-- ==== Sys2Proof/Word.lean ====
section
/-! DEFINITION. The word types of the model (02, R3): bytes, 64-bit words, 128 B lines, and the sparse
maps that hold units which are mostly at their reset value. -/

namespace Sys2Proof

abbrev Byte := BitVec 8
/-- A register, an address as software forms it, an instruction result (02, Architectural state). -/
abbrev Word := BitVec 64
abbrev W32 := BitVec 32
/-- The coherence unit, 128 bytes; byte 0 is bits 7..0 (R3, R194). -/
abbrev Line := BitVec 1024
/-- One mask bit per byte of a line. -/
abbrev LMask := BitVec 128

/-- A sparse map from numbers: keys strictly rising; what an unlisted key reads as is the reader's default. -/
abbrev NMap (α : Type) := List (Nat × α)

def NMap.find? {α : Type} (m : NMap α) (k : Nat) : Option α :=
  match m with
  | [] => none
  | (j, v) :: r => if j = k then some v else NMap.find? r k

/-- Read with a default for an unlisted key. -/
def NMap.get {α : Type} (m : NMap α) (d : α) (k : Nat) : α := (m.find? k).getD d

def NMap.set {α : Type} (m : NMap α) (k : Nat) (v : α) : NMap α :=
  match m with
  | [] => [(k, v)]
  | (j, w) :: r => if k < j then (k, v) :: (j, w) :: r else if k = j then (k, v) :: r else (j, w) :: NMap.set r k v

def NMap.del {α : Type} (m : NMap α) (k : Nat) : NMap α := m.filter (fun e => e.1 ≠ k)

def NMap.has {α : Type} (m : NMap α) (k : Nat) : Bool := (m.find? k).isSome

/-- Change the entry of a key, reading the default where none is listed. -/
def NMap.upd {α : Type} (m : NMap α) (d : α) (k : Nat) (f : α → α) : NMap α := m.set k (f (m.get d k))

end Sys2Proof
end

