-- ==== Sys2Proof/Machine/Maps.lean ====
section
/-! DEFINITION. Bit fields, byte order and list helpers that the meanings use (R3, Numbers and units of 00). -/

namespace Sys2Proof.Machine

/-- Bits [lo + n - 1 : lo] of a word, as a number. -/
def bits (w : Word) (lo n : Nat) : Nat := (w.toNat >>> lo) % 2 ^ n

/-- One bit of a word. -/
def bit (w : Word) (i : Nat) : Bool := w.getLsbD i

/-- A word with bits [lo + n - 1 : lo] replaced. -/
def setBits (w : Word) (lo n v : Nat) : Word :=
  (w &&& ~~~(BitVec.ofNat 64 ((2 ^ n - 1) <<< lo))) ||| BitVec.ofNat 64 ((v % 2 ^ n) <<< lo)

def setBit (w : Word) (i : Nat) (b : Bool) : Word := setBits w i 1 b.toNat

/-- Sign extension of the low n bits of a number to an integer. -/
def sext (n v : Nat) : Int := if (v % 2 ^ n) < 2 ^ (n - 1) then (v % 2 ^ n : Nat) else ((v % 2 ^ n : Nat) : Int) - (2 ^ n : Nat)

/-- An integer as a 64-bit word, modulo 2^64. -/
def wordOfInt (i : Int) : Word := BitVec.ofInt 64 i

/-- Numbers 0 to n - 1. -/
def upTo (n : Nat) : List Nat := List.range n

/-- The bytes of a number, least significant first (R3). -/
def leBytes (n v : Nat) : List Byte := (upTo n).map (fun i => BitVec.ofNat 8 (v >>> (8 * i)))

/-- The number that bytes hold, least significant first (R3). -/
def ofLeBytes (b : List Byte) : Nat := b.foldr (fun x acc => x.toNat + 256 * acc) 0

/-- Byte i of a line. -/
def lineByte (l : Line) (i : Nat) : Byte := BitVec.ofNat 8 (l.toNat >>> (8 * i))

/-- n bytes of a line from byte i, as a number. -/
def lineBytes (l : Line) (i n : Nat) : Nat := (l.toNat >>> (8 * i)) % 2 ^ (8 * n)

/-- The bit mask of the bytes that a byte mask names. -/
def maskBits (m : LMask) : Line :=
  BitVec.ofNat 1024 ((upTo 128).foldr (fun i acc => if m.getLsbD i then acc ||| (255 <<< (8 * i)) else acc) 0)

/-- The bytes of a line that a mask names, replaced. -/
def mergeLine (old new : Line) (m : LMask) : Line :=
  if m = BitVec.allOnes 128 then new else (old &&& ~~~(maskBits m)) ||| (new &&& maskBits m)

/-- The mask of n bytes from byte i. -/
def maskAt (i n : Nat) : LMask := BitVec.ofNat 128 ((2 ^ n - 1) <<< i)

/-- n bytes of value v placed at byte i of a line. -/
def lineAt (i n v : Nat) : Line := BitVec.ofNat 1024 ((v % 2 ^ (8 * n)) <<< (8 * i))

def lineOfBytes (b : List Byte) : Line := BitVec.ofNat 1024 (ofLeBytes b)

/-- Saturating addition at a maximum. -/
def satAdd (max a b : Nat) : Nat := min max (a + b)

/-- The first element that a test accepts is removed. -/
def eraseFirst {α : Type} (p : α → Bool) : List α → List α
  | [] => []
  | x :: r => if p x then r else x :: eraseFirst p r

/-- Element at an index, with a default. -/
def at' {α : Type} (l : List α) (d : α) (i : Nat) : α := (l[i]?).getD d

/-- Replace the element at an index. -/
def setAt {α : Type} (l : List α) (i : Nat) (x : α) : List α := l.set i x

/-- Ceiling division. -/
def ceilDiv (a b : Nat) : Nat := (a + b - 1) / b

/-- The permutation of a list that a number names: each digit picks one of the elements left (R82: any order).
The second argument bounds the recursion and is the list's length. -/
def permute {α : Type} : Nat → Nat → List α → List α
  | 0, _, l => l
  | _ + 1, _, [] => []
  | k + 1, code, x :: r =>
    let l := x :: r
    let i := code % l.length
    match l[i]? with
    | some y => y :: permute k (code / l.length) (l.eraseIdx i)
    | none => l

end Sys2Proof.Machine
end

