-- ==== Sys2Proof/Syntax.lean ====
section
/-! DEFINITION. The commands of the block: one constructor of Instr for each row of the table of operations and
events, with the operands the sender gives, and the plain types of those operands. -/

namespace Sys2Proof

/-- What executes instructions (R9, R15): a processor core, or the group in a slot of a compute-die core (R56). -/
inductive Agent where
  | core (n : Nat)
  | grp (c slot : Nat)
deriving DecidableEq, Repr

/-- An instruction as fetched: one word, or a prefix word and a base word (R21, R25). -/
structure IWord where
  pre : Option W32
  word : W32
deriving DecidableEq, Repr

/-- Who made a register access, so that the answer reaches it: a buffered store, a pending load, or an agent
outside the module's own programs (HD itself, the debugger, a host). -/
inductive Iss where
  | ext
  | store (sid : Nat)
  | op (tag : Nat)
deriving DecidableEq, Repr

/-- Requester of a non-caching message (R194, R202). -/
inductive Who where
  | op (tag : Nat)
  | store (sid : Nat)
  | tileR (id ln : Nat)
  | tileW (id ln : Nat)
  | desc (c ch : Nat)
  | ext (n : Nat)
deriving DecidableEq, Repr

/-- What the error check found (R106, R185, R211). -/
inductive Ecc where
  | good | corrected | uncorrectable
deriving DecidableEq, Repr

/-- What a coherent cache's error check found at an access (R211): a data error, or an error of the tag entry. -/
inductive CacheEcc where
  | good | corrected | data | tag
deriving DecidableEq, Repr

inductive CmoKind where
  | clean | flush | inval
deriving DecidableEq, Repr

/-- A requester of the fault queue (R250): a group, a streamer channel, or the completion word of a packet (R78). -/
inductive Requester where
  | grp (c slot : Nat)
  | chan (c ch : Nat)
  | word (d q pkt : Nat)
deriving DecidableEq, Repr

/-- Header of a flit (R259) or a Col frame (R280). -/
structure FlitHdr where
  seq : Nat
  ack : Nat
  nak : Bool
  epoch : Nat
  vc : Nat
  cred : Nat
deriving DecidableEq, Repr

/-- Access of the auxiliary die through the firewall (R272): an atomic names its operation, numbered as R35 lists them,
and the value that CAS compares; cload and cstore are caching accesses of agent 65. -/
inductive AuxAcc where
  | read | write | atomic (op : Nat) (cmp : Word) | cload | cstore
deriving DecidableEq, Repr

/-- Fields of a HELLO frame (R282). -/
structure HelloF where
  serial : Nat
  plain : Nat
  port : Nat
  member : Nat
  mvalid : Bool
  root : Nat
deriving DecidableEq, Repr

/-- A heartbeat (R280): the sender's fabric time, the offset that the stamps of both ends give the receiver (R300), in ns,
and the sender's flags. -/
structure Heartbeat where
  stamp : Nat
  offset : Int
  alive : Bool
  inReset : Bool
  parked : Bool
deriving DecidableEq, Repr

/-- A DEAD notice (R304). -/
structure DeadN where
  plain : Nat
  member : Nat
  laddr : Nat
  time : Nat
  declarer : Nat
deriving DecidableEq, Repr

/-- A fabric packet: the header fields of R284 and the payload bytes. -/
structure Pkt where
  dst : Nat
  src : Nat
  tc : Nat
  epoch : Nat
  op : Nat
  hops : Nat
  nm : Bool
  via : Nat
  offset : Nat
  group : Nat
  ccount : Nat
  tag : Nat
  tstamp : Nat
  status : Nat
  hint : Nat
  scope : Nat
  poison : Bool
  data : List Byte
deriving DecidableEq, Repr

/-- Reset domains (R366). -/
inductive RDom where
  | pcore (n : Nat) | ccore (c : Nat) | die (d : Nat) | link (e : Nat) | port (p : Nat) | aux | warm | cold
deriving DecidableEq, Repr

/-- Attributes of a memory write: the EP bit, and relaxed ordering (R189, R232). -/
structure TlpAttr where
  ep : Bool := false
  relaxed : Bool := false
deriving DecidableEq, Repr

inductive PcieAtom where
  | fetchAdd | swap | cas
deriving DecidableEq, Repr

/-- I3C common command codes (R378); other is any code not listed there. -/
inductive Ccc where
  | rstdaa | entdaa | setdasa | enec | disec | getpid | getbcr | getdcr | getstatus | getmwl | getmrl | other
deriving DecidableEq, Repr

/-- The commands. -/
inductive Instr where
  /-- ADD_SUB_AND_OR_XOR_ANDN: Register-register integer add, subtract and bitwise operations. (R28) -/
  | addSubAndOrXorAndn (u : Agent) (iw : IWord)
  /-- SLL_SRL_SRA_ROR: Register shifts and rotate by gs2[5:0]. (R28) -/
  | sllSrlSraRor (u : Agent) (iw : IWord)
  /-- MIN_MAX_MINU_MAXU: Signed or unsigned integer minimum and maximum. (R28) -/
  | minMaxMinuMaxu (u : Agent) (iw : IWord)
  /-- MUL_MULH_MULHU: Low or high 64 bits of the 128-bit product. (R28) -/
  | mulMulhMulhu (u : Agent) (iw : IWord)
  /-- DIV_DIVU_REM_REMU: Integer quotient or remainder with no exception on division by zero or overflow. (R29) -/
  | divDivuRemRemu (u : Agent) (iw : IWord)
  /-- ADD_W_SUB_W_MUL_W_SHIFT_W: 32-bit integer operations whose result is sign-extended. (R28) -/
  | wordOps (u : Agent) (iw : IWord)
  /-- CLZ_CTZ_POPC_REV8: Bit counts and byte reversal of gs1. (R28) -/
  | clzCtzPopcRev8 (u : Agent) (iw : IWord)
  /-- SEL: Selects gs1 or gs2 by a predicate. (R28) -/
  | sel (u : Agent) (iw : IWord)
  /-- PTOG: Copies the predicates into a general register. (R28) -/
  | ptog (u : Agent) (iw : IWord)
  /-- GTOP: Copies gs1[7:1] into p7 to p1. (R28) -/
  | gtop (u : Agent) (iw : IWord)
  /-- ADDI_ANDI_ORI_XORI: Integer operations with a sign-extended immediate. (R28) -/
  | addiAndiOriXori (u : Agent) (iw : IWord)
  /-- SHI: Shift or rotate by an immediate amount. (R28) -/
  | shi (u : Agent) (iw : IWord)
  /-- LI: Loads a sign-extended immediate into gd. (R28) -/
  | li (u : Agent) (iw : IWord)
  /-- LIH: Writes gd[63:40] from an immediate and keeps gd[39:0]. (R28) -/
  | lih (u : Agent) (iw : IWord)
  /-- ADDPC: gd := pc plus a scaled immediate. (R28) -/
  | addpc (u : Agent) (iw : IWord)
  /-- ADDI_W: 32-bit add of an immediate with sign extension. (R28) -/
  | addiW (u : Agent) (iw : IWord)
  /-- CMP: Compares two registers into a predicate, on 64 or 32 bits. (R28) -/
  | cmp (u : Agent) (iw : IWord)
  /-- CMPI: Compares a register with an immediate into a predicate. (R28) -/
  | cmpi (u : Agent) (iw : IWord)
  /-- PLOG: Logical operation on predicates. (R28) -/
  | plog (u : Agent) (iw : IWord)
  /-- FADD_FSUB_FMUL_FDIV: IEEE floating arithmetic with fpc rounding and flags. (R30) -/
  | faddFsubFmulFdiv (u : Agent) (iw : IWord)
  /-- FSQRT: Floating square root. (R30) -/
  | fsqrt (u : Agent) (iw : IWord)
  /-- FMIN_FMAX: IEEE minimumNumber and maximumNumber. (R30) -/
  | fminFmax (u : Agent) (iw : IWord)
  /-- FCOPYSIGN_FNEG_FABS_FMULSIGN: Sign-bit operations that set no flag. (R30) -/
  | fsign (u : Agent) (iw : IWord)
  /-- FWIDEN_FNARROW: Converts between binary32 and binary64. (R30) -/
  | fwidenFnarrow (u : Agent) (iw : IWord)
  /-- FTOI_FTOU: Floating to signed or unsigned integer conversion. (R30) -/
  | ftoiFtou (u : Agent) (iw : IWord)
  /-- ITOF_UTOF: Integer to floating conversion. (R30) -/
  | itofUtof (u : Agent) (iw : IWord)
  /-- MOVF_G_MOVG_F: Bit copy between floating and general registers. (R30) -/
  | movfgMovgf (u : Agent) (iw : IWord)
  /-- FKIND: Writes the IEEE class code of fs1. (R30) -/
  | fkind (u : Agent) (iw : IWord)
  /-- FMA_FNMA: Fused multiply-add with one rounding. (R30) -/
  | fmaFnma (u : Agent) (iw : IWord)
  /-- FMS_FNMS: Fused multiply-subtract with one rounding. (R30) -/
  | fmsFnms (u : Agent) (iw : IWord)
  /-- FCMP: Floating compare into a predicate. (R30) -/
  | fcmp (u : Agent) (iw : IWord)
  /-- LD: Zero-extending load, issued as line requests. (R31) -/
  | ld (u : Agent) (iw : IWord)
  /-- LDS: Sign-extending load. (R31) -/
  | lds (u : Agent) (iw : IWord)
  /-- ST: Plain store into the store buffer. (R31) -/
  | st (u : Agent) (iw : IWord)
  /-- FLD: Floating load of size W or D. (R31) -/
  | fld (u : Agent) (iw : IWord)
  /-- FST: Floating store of size W or D. (R31) -/
  | fst (u : Agent) (iw : IWord)
  /-- ORDERED_LOAD: Load with an acquire mark at a scope. (R34) -/
  | orderedLoad (u : Agent) (iw : IWord)
  /-- ORDERED_STORE: Store with a release mark at a scope. (R34) -/
  | orderedStore (u : Agent) (iw : IWord)
  /-- AMO_ADD_AND_OR_XOR: Atomic add or bitwise operation performed at the home. (R35) -/
  | amoAddAndOrXor (u : Agent) (iw : IWord)
  /-- AMO_SWAP_CAS_MIN_MAX: Atomic swap, compare-and-swap, signed min or max at the home. (R35) -/
  | amoSwapCasMinMax (u : Agent) (iw : IWord)
  /-- AMO_MINU_MAXU_FADD: Atomic unsigned min or max, or floating add, at the home. (R35) -/
  | amoMinuMaxuFadd (u : Agent) (iw : IWord)
  /-- LL_D: Loads 8 B and sets the reservation on the granule. (R37) -/
  | llD (u : Agent) (iw : IWord)
  /-- SC_D: Stores only if the reservation is valid, reports success, clears it. (R37) -/
  | scD (u : Agent) (iw : IWord)
  /-- FENCE: Orders earlier loads and stores before later ones at a scope. (R38) -/
  | fence (u : Agent) (iw : IWord)
  /-- FENCE_ACQ: Orders earlier loads before later accesses. (R38) -/
  | fenceAcq (u : Agent) (iw : IWord)
  /-- FENCE_REL: Orders earlier accesses before later stores. (R38) -/
  | fenceRel (u : Agent) (iw : IWord)
  /-- FENCE_IO: Completes every earlier device access before any later access. (R227) -/
  | fenceIo (u : Agent) (iw : IWord)
  /-- FENCE_I: Makes later fetches observe earlier stores. (R197) -/
  | fenceI (u : Agent) (iw : IWord)
  /-- PF_R: Prefetch for read that never faults. (R39) -/
  | pfR (u : Agent) (iw : IWord)
  /-- PF_W: Prefetch for write that never faults. (R39) -/
  | pfW (u : Agent) (iw : IWord)
  /-- ZERO_L: Writes zeros to a whole 128 B line as one store. (R39) -/
  | zeroL (u : Agent) (iw : IWord)
  /-- BR_BRN: Conditional PC-relative branch on a predicate. (R40) -/
  | brBrn (u : Agent) (iw : IWord)
  /-- JAL: Jump and link. (R40) -/
  | jal (u : Agent) (iw : IWord)
  /-- JALR: Indirect jump and link. (R40) -/
  | jalr (u : Agent) (iw : IWord)
  /-- UPCALL: Service request, taken as a trap or entered in the fault queue. (R49) -/
  | upcall (u : Agent) (iw : IWord)
  /-- DBGTRAP: Debug trap, or a debug halt of the group. (R49) -/
  | dbgtrap (u : Agent) (iw : IWord)
  /-- RDCLK: Reads the clock count. (R41) -/
  | rdclk (u : Agent) (iw : IWord)
  /-- RDFT: Reads module fabric time. (R41) -/
  | rdft (u : Agent) (iw : IWord)
  /-- RDFPC: Reads fpc. (R41) -/
  | rdfpc (u : Agent) (iw : IWord)
  /-- WRFPC: Writes fpc. (R20) -/
  | wrfpc (u : Agent) (iw : IWord)
  /-- PAUSE: Spin-wait hint that yields the path set. (R41) -/
  | pause (u : Agent) (iw : IWord)
  /-- MFSYS: Reads a sys register. (R43) -/
  | mfsys (u : Agent) (iw : IWord)
  /-- MTSYS: Writes a sys register, including irq_ack and alarm. (R43) -/
  | mtsys (u : Agent) (iw : IWord)
  /-- TRET: Returns from the current trap level. (R46) -/
  | tret (u : Agent) (iw : IWord)
  /-- IDLE: Waits for an enabled pending interrupt or 1 ms. (R47) -/
  | idle (u : Agent) (iw : IWord)
  /-- IDLE_TIMEOUT: 1 ms of fabric time ends an IDLE wait. (R47) -/
  | idleTimeout (n : Nat)
  /-- IPI: Sets the inter-core interrupt pending bit of another core. (R47) -/
  | ipi (u : Agent) (iw : IWord)
  /-- TLBSYNC: Waits until earlier package TLB invalidations have taken effect. (R47) -/
  | tlbsync (u : Agent) (iw : IWord)
  /-- TLBI_ALL: Removes every TLB entry, locally or package-wide. (R47) -/
  | tlbiAll (u : Agent) (iw : IWord)
  /-- TLBI_ASID: Removes the non-global entries of one ASID. (R47) -/
  | tlbiAsid (u : Agent) (iw : IWord)
  /-- TLBI_VA: Removes the non-global entry for one address and ASID. (R47) -/
  | tlbiVa (u : Agent) (iw : IWord)
  /-- TLBI_VAA: Removes every entry mapping one address. (R47) -/
  | tlbiVaa (u : Agent) (iw : IWord)
  /-- CMO_CLEAN: Writes a line back to memory from every cache. (R47) -/
  | cmoClean (u : Agent) (iw : IWord)
  /-- CMO_FLUSH: Writes a line back and invalidates it everywhere. (R47) -/
  | cmoFlush (u : Agent) (iw : IWord)
  /-- CMO_INVAL: Invalidates a line everywhere without write-back. (R47) -/
  | cmoInval (u : Agent) (iw : IWord)
  /-- INTERRUPT_TAKEN: A pending enabled interrupt is taken at K. (R51) -/
  | interruptTaken (n : Nat)
  /-- ALARM_REACHED: Fabric time reaches sys.alarm and the timer interrupt becomes pending. (R51) -/
  | alarmReached (n : Nat)
  /-- LOAD_RESPONSE: A load response arrives and is matched by tag to its instruction. (R220) -/
  | loadResponse (tag : Nat) (line : Nat) (data : Line) (poison : Bool) (err : Bool)
  /-- STORE_RESPONSE: A store response arrives and the store leaves the buffer. (R234) -/
  | storeResponse (sid : Nat) (err : Bool)
  /-- STORE_BUS_ERROR: A store's bus error is reported at the next instruction boundary. (R235) -/
  | storeBusError (u : Agent)
  /-- WRITE_RESPONSE_TIMEOUT: HD_ORD_CTRL.WTIMEOUT expires on a held store, which ends with a bus error. (R234) -/
  | writeResponseTimeout (sid : Nat)
  /-- XL_R: Lane exchange from a register-indexed lane in the segment. (R62) -/
  | xlR (u : Agent) (iw : IWord)
  /-- XL_FWD: Lane exchange from lane i + D. (R62) -/
  | xlFwd (u : Agent) (iw : IWord)
  /-- XL_BWD: Lane exchange from lane i − D. (R62) -/
  | xlBwd (u : Agent) (iw : IWord)
  /-- XL_FLIP: Lane exchange from lane i XOR D. (R62) -/
  | xlFlip (u : Agent) (iw : IWord)
  /-- XL_BCST: Broadcast of a lane's value within the segment. (R62) -/
  | xlBcst (u : Agent) (iw : IWord)
  /-- LV_ALL: AND of a predicate over the segment's active lanes. (R62) -/
  | lvAll (u : Agent) (iw : IWord)
  /-- LV_ANY: OR of a predicate over the segment's active lanes. (R62) -/
  | lvAny (u : Agent) (iw : IWord)
  /-- LV_MASK: Mask of active lanes whose predicate is set. (R62) -/
  | lvMask (u : Agent) (iw : IWord)
  /-- LV_LIVE: Mask of the segment's active lanes. (R62) -/
  | lvLive (u : Agent) (iw : IWord)
  /-- LV_FIRST: Marks the lowest active lane of the segment. (R62) -/
  | lvFirst (u : Agent) (iw : IWord)
  /-- LV_COUNT: Counts the active lanes whose predicate is set. (R62) -/
  | lvCount (u : Agent) (iw : IWord)
  /-- FOLD: FOLD.ADD, MIN, MAX, OR, MINU or MAXU over the segment's active lanes. (R62) -/
  | fold (u : Agent) (iw : IWord)
  /-- GBAR: Group barrier arrival, completing when every live lane has arrived. (R64) -/
  | gbar (u : Agent) (iw : IWord)
  /-- TBAR: Team barrier arrival with release and acquire at CORE. (R65) -/
  | tbar (u : Agent) (iw : IWord)
  /-- MLD_S: Binds and loads the group's stationary fragment. (R99) -/
  | mldS (u : Agent) (iw : IWord) (ecc : Ecc)
  /-- MMA: Fragment multiply-accumulate by west entry. (R100) -/
  | mma (u : Agent) (iw : IWord) (ecc : Ecc)
  /-- MMA_N: Fragment multiply-accumulate by north entry. (R100) -/
  | mmaN (u : Agent) (iw : IWord) (ecc : Ecc)
  /-- MST: Stores fragment C through the output stage as rows in memory. (R101) -/
  | mst (u : Agent) (iw : IWord) (ecc : Ecc)
  /-- SCH_START: Starts a streamer channel on a descriptor program, or reports busy. (R127) -/
  | schStart (u : Agent) (iw : IWord)
  /-- SCH_POST: Release, then increments the channel's post counter. (R137) -/
  | schPost (u : Agent) (iw : IWord)
  /-- SCH_WAIT: Blocks until the signal counter reaches a target, then acquires. (R137) -/
  | schWait (u : Agent) (iw : IWord)
  /-- TFENCE: Blocks until the named channels' earlier writes are visible at a scope. (R137) -/
  | tfence (u : Agent) (iw : IWord)
  /-- TS_RD: Copies FULL slot lines into registers, optionally freeing the slot. (R137) -/
  | tsRd (u : Agent) (iw : IWord)
  /-- TS_WR: Copies registers into slot lines, optionally marking the slot FULL. (R137) -/
  | tsWr (u : Agent) (iw : IWord)
  /-- SCH_STAT: Reads a channel's status into a register. (R137) -/
  | schStat (u : Agent) (iw : IWord)
  /-- CD_DQ_DOORBELL: A doorbell write raises the queue's write index or is rejected. (R69) -/
  | cdDqDoorbell (iss : Iss) (q : Nat) (size : Nat) (value : Word)
  /-- EMPTY_SLOT_REREAD: The dispatch unit re-reads an empty slot every 1 µs. (R71) -/
  | emptySlotReread (q : Nat)
  /-- PACKET_CONSUME: The dispatch unit reads, checks, consumes or rejects the packet at the read index. (R73) -/
  | packetConsume (q : Nat)
  /-- TEAM_START: A dispatch unit places and starts one team on a core that can hold it. (R75) -/
  | teamStart (c : Nat)
  /-- PACKET_COMPLETION: A packet completes with release, completion word and interrupt. (R76) -/
  | packetCompletion (q : Nat) (pkt : Nat)
  /-- QUEUE_DISABLE_CANCEL: A disabled queue's grace ends and its remaining groups are cancelled. (R79) -/
  | queueDisableCancel (q : Nat)
  /-- CORE_DISABLE_CANCEL: A disabled core's grace ends and its resident launches are cancelled. (R79) -/
  | coreDisableCancel (c : Nat)
  /-- DESCRIPTOR_DECODE: A channel fetches and decodes the next descriptor into its queues. (R128) -/
  | descriptorDecode (c : Nat) (ch : Nat)
  /-- DESCRIPTOR_FETCH_ERROR: A descriptor fetch returns poison or a bus error and the channel halts. (R422) -/
  | descriptorFetchError (c : Nat) (ch : Nat) (poison : Bool)
  /-- TILE_READ_ISSUE: A tile read issues when its slot is EMPTY and run-ahead allows. (R129) -/
  | tileReadIssue (c : Nat) (ch : Nat)
  /-- TILE_LINE_ARRIVAL: Tile-read line data arrives in a slot, which becomes FULL at the last line. (R125) -/
  | tileLineArrival (id : Nat) (ln : Nat) (data : Line) (poison : Bool) (fail : Bool)
  /-- TILE_DEADLINE_EXPIRY: A tile read's deadline expires and missing lines are poisoned. (R139) -/
  | tileDeadlineExpiry (c : Nat) (slot : Nat)
  /-- TILE_WRITE_ISSUE: A tile write issues from its FULL source slot. (R131) -/
  | tileWriteIssue (c : Nat) (ch : Nat)
  /-- TILE_WRITE_ACCEPT: A home accepts or fails a tile write line, possibly freeing the slot. (R131) -/
  | tileWriteAccept (id : Nat) (ln : Nat) (fail : Bool)
  /-- SIGNAL: SIGNAL takes effect once earlier writes are visible and increments the signal counter. (R135) -/
  | signal (c : Nat) (ch : Nat)
  /-- WAIT: WAIT completes when the post counter reaches its target. (R135) -/
  | wait (c : Nat) (ch : Nat)
  /-- TFENCE_DESCRIPTOR: TFENCE descriptor completes when earlier writes are visible. (R135) -/
  | tfenceDescriptor (c : Nat) (ch : Nat)
  /-- END_COMPLETE: END completes, unbinds engines and makes the channel IDLE. (R127) -/
  | endComplete (c : Nat) (ch : Nat)
  /-- GATHER_LOOKUP: The record's memory-side die resolves a block for a GATHER tile. (R151) -/
  | gatherLookup (c : Nat) (ch : Nat)
  /-- LOOKUP_RESPONSE: The streamer receives a lookup result and accesses the block lines. (R151) -/
  | lookupResponse (c : Nat) (ch : Nat)
  /-- SLOAD: Writes a tile into the shadow stationary copy over 64 clocks. (R83) -/
  | sload (c : Nat) (ch : Nat)
  /-- SWAP: Exchanges the active and shadow stationary copies in one clock. (R83) -/
  | swap (c : Nat) (ch : Nat)
  /-- WEST: Streams tiles by west entry into one bank. (R84) -/
  | west (c : Nat) (ch : Nat) (ecc : Ecc)
  /-- NORTH: Streams tiles by north entry into v banks, with optional rescale. (R85) -/
  | north (c : Nat) (ch : Nat) (ecc : Ecc)
  /-- DRAIN: Converts a bank row by row into destination tiles. (R87) -/
  | drain (c : Nat) (ch : Nat) (ecc : Ecc)
  /-- SMAX: Turns a block of scores into probabilities in the shadow copy. (R90) -/
  | smax (c : Nat) (ch : Nat) (ecc : Ecc)
  /-- NORM: Drains the output banks scaled by 1/LS and writes M and LS. (R92) -/
  | norm (c : Nat) (ch : Nat) (ecc : Ecc)
  /-- SMRESET: Resets the softmax state of all rows. (R89) -/
  | smreset (c : Nat) (ch : Nat)
  /-- SLIMIT: Loads LIMIT from two tile-store lines. (R89) -/
  | slimit (c : Nat) (ch : Nat)
  /-- BIND: Binds an engine to the channel once it is free. (R134) -/
  | bind (c : Nat) (ch : Nat)
  /-- UNBIND: Ends the channel's binding of an engine. (R134) -/
  | unbind (c : Nat) (ch : Nat)
  /-- ENGINE_OP_COMPLETE: An engine operation finishes, freeing its resources and updating slots. (R94) -/
  | engineOpComplete (e : Nat)
  /-- CD_MX_SEED_WRITE: A write restarts the engine's stochastic-rounding generator. (R88) -/
  | cdMxSeedWrite (iss : Iss) (e : Nat) (size : Nat) (value : Word)
  /-- SEQ_CREATE: Makes a FREE context LIVE with a table. (R155) -/
  | seqCreate (mb : Nat)
  /-- SEQ_EXTEND: Raises LENGTH and installs new blocks from BLIST. (R156) -/
  | seqExtend (mb : Nat)
  /-- SEQ_TRIM: Lowers LENGTH and clears the entries beyond it. (R157) -/
  | seqTrim (mb : Nat)
  /-- SEQ_MIGRATE: Starts moving a block range to new blocks. (R159) -/
  | seqMigrate (mb : Nat)
  /-- SEQ_RELAYOUT: Starts rebuilding the table into a shadow area. (R160) -/
  | seqRelayout (mb : Nat)
  /-- SEQ_RETIRE: Makes a context FREE and returns its record. (R158) -/
  | seqRetire (mb : Nat)
  /-- SEQ_QUERY: Returns a context record. (R147) -/
  | seqQuery (mb : Nat)
  /-- RELAYOUT_LINE_COPY: The copier writes the next shadow table line. (R160) -/
  | relayoutLineCopy (ctx : Nat)
  /-- EV_SEQ_RELAYOUT_DONE: The relayout done event posts once old-root lookups complete. (R162) -/
  | evSeqRelayoutDone (ctx : Nat)
  /-- MIGRATE_INSTALL: After every copy, the new entries are written and MIG is cleared. (R159) -/
  | migrateInstall (ctx : Nat)
  /-- SEQ_BTC_FLUSH: Invalidates the block-table cache. (R166) -/
  | seqBtcFlush (iss : Iss) (m : Nat)
  /-- MEM_COPY: Queues a physical copy on the data mover. (R189) -/
  | memCopy (mb : Nat)
  /-- MEM_ADVISE: Fills, marks, unmarks or cleans memory-side cache lines of a range. (R190) -/
  | memAdvise (mb : Nat)
  /-- MEM_SPLIT_SET: Writes the interleave split to the boot configuration. (R191) -/
  | memSplitSet (mb : Nat) (flashOk : Bool)
  /-- DATA_MOVER_LINE: The data mover copies the next lines of a job, ending or failing it. (R189) -/
  | dataMoverLine (data : Line) (poison : Bool) (fail : Bool)
  /-- PATROL_SCRUB: The scrubber reads and checks the next line. (R186) -/
  | patrolScrub (m : Nat) (ecc : Ecc)
  /-- MEMORY_TRAINING: HBM and Steppe train, repair lanes, or fail. (R174) -/
  | memoryTraining (unit : Nat) (ok : Bool) (slow : Bool) (repairs : List (Nat × Nat))
  /-- MD_MSC_FLUSH: Writes back and invalidates the memory-side cache. (R193) -/
  | mdMscFlush (iss : Iss) (m : Nat)
  /-- MD_MSC_UNKEEP: Removes every KEEP mark. (R193) -/
  | mdMscUnkeep (iss : Iss) (m : Nat)
  /-- CACHE_LOAD: A load reaches a coherent cache and hits or requests the line. (R204) -/
  | cacheLoad (tag : Nat) (line : Nat) (victim : Option Nat) (ecc : CacheEcc)
  /-- CACHE_STORE: A store reaches a coherent cache and hits or requests ownership. (R204) -/
  | cacheStore (sid : Nat) (victim : Option Nat) (ecc : CacheEcc)
  /-- RDS: The home processes a read-shared request. (R207) -/
  | rds (a : Nat) (line : Nat)
  /-- RDX: The home processes a read-with-ownership request. (R207) -/
  | rdx (a : Nat) (line : Nat)
  /-- UPG: The home processes an upgrade request. (R207) -/
  | upg (a : Nat) (line : Nat)
  /-- WBD: The home processes a write-back. (R207) -/
  | wbd (a : Nat) (line : Nat) (data : Line) (poison : Bool)
  /-- EVC: The home processes an eviction notice. (R207) -/
  | evc (a : Nat) (line : Nat)
  /-- CMPACK: The requester's acknowledgement closes the transaction. (R208) -/
  | cmpack (a : Nat) (line : Nat)
  /-- RDNC: The home processes a non-caching read. (R207) -/
  | rdnc (w : Who) (line : Nat) (hint : Nat)
  /-- WRNC: The home processes a non-caching write. (R207) -/
  | wrnc (w : Who) (line : Nat) (mask : LMask) (data : Line) (poison : Bool) (hint : Nat)
  /-- ATMH: The home performs an atomic. (R207) -/
  | atmh (w : Who) (line : Nat)
  /-- CMO_MESSAGE: The home processes a CMO request. (R207) -/
  | cmoMessage (n : Nat) (kind : CmoKind) (line : Nat)
  /-- HOME_MEMORY_DATA: Data arrives from the memory-side cache or memory, ECC is checked, and the grant is sent. (R208) -/
  | homeMemoryData (line : Nat) (ecc : Ecc)
  /-- RSPS_RSPI: The home receives a snoop response without data. (R208) -/
  | rspsRspi (a : Nat) (line : Nat) (toI : Bool)
  /-- RSPSD_RSPID: The home receives a snoop response with dirty data. (R208) -/
  | rspsdRspid (a : Nat) (line : Nat) (toI : Bool) (data : Line) (poison : Bool)
  /-- SNPS: A cache answers a snoop to give up write permission. (R204) -/
  | snps (a : Nat) (line : Nat)
  /-- SNPX: A cache answers a snoop to invalidate, returning dirty data. (R204) -/
  | snpx (a : Nat) (line : Nat)
  /-- SNPI: A cache answers a snoop to invalidate and discard. (R204) -/
  | snpi (a : Nat) (line : Nat)
  /-- GNTS_GNTE: A cache installs a shared or exclusive grant. (R204) -/
  | gntsGnte (a : Nat) (line : Nat) (excl : Bool) (data : Line) (poison : Bool)
  /-- GNTM: A cache installs a modified grant. (R204) -/
  | gntm (a : Nat) (line : Nat) (data : Line) (poison : Bool)
  /-- GNTUPG: A cache's held copy becomes M. (R204) -/
  | gntupg (a : Nat) (line : Nat)
  /-- GNTWB_GNTEV: An eviction-buffer entry is freed. (R204) -/
  | gntwbGntev (a : Nat) (line : Nat)
  /-- DATNC_CMPNC: A non-caching agent receives its read data or completion. (R202) -/
  | datncCmpnc (w : Who) (line : Nat) (data : Line) (poison : Bool)
  /-- HOME_TIMEOUT: The home timeout expires against an agent's snoop response or acknowledgement. (R213) -/
  | homeTimeout (line : Nat) (a : Nat)
  /-- LOST_OWNER_WALK: The background walk poisons the next line owned by a lost agent. (R214) -/
  | lostOwnerWalk (m : Nat)
  /-- CD_CC_FLUSH: Writes back and drops every cluster-cache sector. (R215) -/
  | cdCcFlush (iss : Iss) (k : Nat)
  /-- DIE_RESET_WRITEBACK_TIMEOUT: The 100 µs pre-reset write-back limit expires. (R212) -/
  | dieResetWritebackTimeout (d : Nat)
  /-- CD_FQ_RESP_RETRY: A RETRY response makes the stalled requester translate again. (R253) -/
  | cdFqRespRetry (iss : Iss) (d : Nat) (token : Nat)
  /-- CD_FQ_RESP_END: An END response ends the launch with ST_CANCELLED. (R253) -/
  | cdFqRespEnd (iss : Iss) (d : Nat) (token : Nat)
  /-- CD_FQ_RESP_FAULT: A FAULT response ends the launch with ST_FAULTED. (R253) -/
  | cdFqRespFault (iss : Iss) (d : Nat) (token : Nat)
  /-- CD_FQ_RIDX_WRITE: Software advances the fault-queue read index. (R252) -/
  | cdFqRidxWrite (iss : Iss) (d : Nat) (size : Nat) (value : Word)
  /-- FQ_RETRY_TIMER: A requester that found the queue full retries its translation and record. (R254) -/
  | fqRetryTimer (r : Requester)
  /-- FAULT_DEADLINE_EXPIRY: A stalled requester's deadline ends its launch with ST_FAULTED. (R255) -/
  | faultDeadlineExpiry (r : Requester)
  /-- FLIT_RECEIVE: A link end receives a flit, checks it and accepts, NAKs or replays. (R262) -/
  | flitReceive (e : Nat) (body : BitVec 2016) (crc : BitVec 32)
  /-- ACK_TIMEOUT: No ACK for 2 µs starts retraining. (R263) -/
  | ackTimeout (e : Nat)
  /-- LINK_TRAINING_ATTEMPT: A training attempt ends in up, retry, fallback or down. (R266) -/
  | linkTrainingAttempt (e : Nat) (good : Nat) (pgood : Nat) (agree : Bool) (repairs : List Nat × List Nat)
  /-- LNK_CTRL_RETRAIN: A write starts link training. (R268) -/
  | lnkCtrlRetrain (iss : Iss) (e : Nat)
  /-- FW_GRANT_IN: Grants an inbound window to the auxiliary die. (R273) -/
  | fwGrantIn (mb : Nat)
  /-- FW_GRANT_OUT: Grants an outbound window to the auxiliary region. (R273) -/
  | fwGrantOut (mb : Nat)
  /-- FW_GRANT_CMD: Sets the MB5 opcode mask and event range. (R273) -/
  | fwGrantCmd (mb : Nat)
  /-- FW_REVOKE: Revokes a firewall grant after its grace. (R274) -/
  | fwRevoke (mb : Nat)
  /-- AUX_INBOUND_ACCESS: The firewall passes or drops an access from the auxiliary die. (R272) -/
  | auxInboundAccess (k : AuxAcc) (addr : Nat) (size : Nat) (value : BitVec 1024)
  /-- AUX_BRINGUP: HD reads and checks the auxiliary die's identifier. (R271) -/
  | auxBringup (id : Nat)
  /-- AUX_UCIE_LINK_DOWN: The UCIe link going down triggers the site reset. (R275) -/
  | auxUcieLinkDown
  /-- COL_PORT_TRAINING: A Col port's training attempt ends in UP or DOWN. (R280) -/
  | colPortTraining (p : Nat) (ok : Bool)
  /-- COL_FRAME_RECEIVE: A port receives a frame and accepts, NAKs or replays. (R280) -/
  | colFrameReceive (p : Nat) (fl : BitVec 2048) (fecOk : Bool)
  /-- HELLO: A received HELLO updates discovery, member number and miswiring. (R282) -/
  | hello (p : Nat) (h : HelloF)
  /-- HELLO_TIMER: Every 10 µs a local port sends a HELLO. (R282) -/
  | helloTimer (p : Nat)
  /-- HEARTBEAT_TIMER: Every 10 µs a port sends a heartbeat. (R280) -/
  | heartbeatTimer (p : Nat)
  /-- HEARTBEAT_RECEIVE: A heartbeat's stamps update the fabric-time offset. (R300) -/
  | heartbeatReceive (p : Nat) (h : Heartbeat)
  /-- HEARTBEAT_MISS: Three missed heartbeats make the port SUSPECT and send a PROBE. (R303) -/
  | heartbeatMiss (p : Nat)
  /-- LOSS_OF_LIGHT: Loss of light makes the port SUSPECT and sends a PROBE. (R303) -/
  | lossOfLight (p : Nat)
  /-- PROBE: A PROBE packet is answered with a PROBE reply. (R303) -/
  | probe (p : Nat) (k : Pkt)
  /-- PROBE_REPLY: A PROBE reply makes the port DOWN with the partner alive. (R303) -/
  | probeReply (p : Nat)
  /-- PROBE_TIMEOUT: No reply in 20 µs declares the partner dead. (R303) -/
  | probeTimeout (p : Nat)
  /-- DEAD_NOTICE: A DEAD notice marks an address dead, fails its requests and is forwarded. (R304) -/
  | deadNotice (d : DeadN)
  /-- PACKET_RECEIVE: A packet is routed, delivered, forwarded or discarded. (R287) -/
  | packetReceive (p : Option Nat) (k : Pkt)
  /-- FABRIC_REMOTE_REQUEST: A target hub performs or refuses a fabric request at its home. (R294) -/
  | fabricRemoteRequest (k : Pkt)
  /-- FABRIC_RESPONSE: A fabric response ends a remote request. (R293) -/
  | fabricResponse (k : Pkt)
  /-- TIME_PACKET: A TIME packet takes part in the master election. (R301) -/
  | timePacket (p : Nat) (prio : Nat) (serial : Nat) (hops : Nat)
  /-- FABRIC_TIME_LOCK: The offset stays within ±10 ns for 1 ms and fabric time locks. (R300) -/
  | fabricTimeLock (count : Nat)
  /-- HOLDOVER_TIMEOUT: 20 ms in HOLDOVER returns to UNLOCKED and cancels scheduled actions. (R300) -/
  | holdoverTimeout
  /-- RT_BANK_FLIP: Fabric time reaches T and the active routing bank flips. (R292) -/
  | rtBankFlip
  /-- BANK_HELD_EXPIRY: After 2 × LIFETIME the old bank is released and EV_FAB_EPOCH posts. (R291) -/
  | bankHeldExpiry
  /-- FAB_CONFIG: Writes the plain number to flash. (R307) -/
  | fabConfig (mb : Nat) (flashOk : Bool)
  /-- FAB_RT_WRITE: Writes plain-table or member-map entries into the inactive bank. (R290) -/
  | fabRtWrite (mb : Nat)
  /-- FAB_RT_SWITCH: Schedules a routing bank switch at T. (R292) -/
  | fabRtSwitch (mb : Nat)
  /-- FAB_PORT_DISABLE: Disables a Col port with a grace. (R305) -/
  | fabPortDisable (mb : Nat)
  /-- FAB_PORT_ENABLE: Enables a Col port. (R305) -/
  | fabPortEnable (mb : Nat)
  /-- FAB_PORT_DRAIN_END: A disabled port's grace ends and the remaining packets are cancelled. (R305) -/
  | fabPortDrainEnd (p : Nat)
  /-- FAB_CG_CREATE: Creates a communication group. (R295) -/
  | fabCgCreate (mb : Nat)
  /-- FAB_CG_DESTROY: Destroys a group and cancels its open instances. (R307) -/
  | fabCgDestroy (mb : Nat)
  /-- FAB_CG_DOORBELL: Raises a group's ring write index. (R296) -/
  | fabCgDoorbell (iss : Iss) (g : Nat) (size : Nat) (value : Word)
  /-- COLLECTIVE_START: An instance opens at START and begins moving data. (R297) -/
  | collectiveStart (g : Nat)
  /-- COLLECTIVE_DATA: A CDATA or CFWD packet is folded into a shard, which may close. (R297) -/
  | collectiveData (k : Pkt)
  /-- COLLECTIVE_DEADLINE: At DEADLINE every open shard closes with the contributions present. (R298) -/
  | collectiveDeadline (g : Nat)
  /-- COLLECTIVE_COMPLETION: The completion record is written after all DST writes are visible. (R299) -/
  | collectiveCompletion (g : Nat)
  /-- WS_SAMPLE: A Watershed sample updates averages, score and state. (R312) -/
  | wsSample
  /-- WS_SNAPSHOT: Accepts a snapshot of local regions to a buddy slot. (R315) -/
  | wsSnapshot (mb : Nat)
  /-- SNAPSHOT_START: At START the commit record is written with VALID = 0 and copying begins. (R315) -/
  | snapshotStart
  /-- SNAPSHOT_COMMIT: Once data is visible at the buddy the commit record gets VALID = 1. (R315) -/
  | snapshotCommit
  /-- WS_CG_EXPORT: Writes group records to memory. (R320) -/
  | wsCgExport (mb : Nat)
  /-- WS_CG_IMPORT: Creates a group from an exported entry. (R320) -/
  | wsCgImport (mb : Nat)
  /-- MB_DOORBELL: Issues the command in a mailbox's command area. (R326) -/
  | mbDoorbell (iss : Iss) (mb : Nat) (size : Nat) (value : Word)
  /-- MB_COMMAND_COMPLETE: A command finishes and writes its response and status. (R326) -/
  | mbCommandComplete (mb : Nat)
  /-- REMOTE_COMMAND_RECEIVE: A target executes a remote command as an MB7 command. (R331) -/
  | remoteCommandReceive (k : Pkt)
  /-- REMOTE_ANSWER: A remote answer completes the local mailbox. (R331) -/
  | remoteAnswer (k : Pkt)
  /-- REMOTE_COMMAND_TIMEOUT: No remote answer arrives in time and the command ends with ST_REMOTE_TIMEOUT. (R331) -/
  | remoteCommandTimeout (mb : Nat)
  /-- SYS_NOP: Does nothing. (R334) -/
  | sysNop (mb : Nat)
  /-- SYS_INFO: Returns module identity and state. (R334) -/
  | sysInfo (mb : Nat)
  /-- SYS_DELEGATE: Sets MB1's delegated address space. (R335) -/
  | sysDelegate (mb : Nat)
  /-- SYS_EVR_CONFIG: Configures a memory event ring. (R344) -/
  | sysEvrConfig (mb : Nat)
  /-- SYS_EV_FETCH: Moves the oldest record of ring 3 into the response. (R344) -/
  | sysEvFetch (mb : Nat)
  /-- SYS_RESET: Resets the named domain. (R336) -/
  | sysReset (mb : Nat)
  /-- RESET_COMPLETE: A domain leaves reset and held doorbells run. (R336) -/
  | resetComplete (d : RDom)
  /-- DQ_CREATE: Creates a dispatch queue and maps its doorbell page. (R337) -/
  | dqCreate (mb : Nat)
  /-- DQ_DISABLE: Disables a queue under the drain rule. (R338) -/
  | dqDisable (mb : Nat)
  /-- DQ_ENABLE: Re-enables a disabled queue. (R338) -/
  | dqEnable (mb : Nat)
  /-- DQ_DESTROY: Frees a disabled queue's number. (R338) -/
  | dqDestroy (mb : Nat)
  /-- DQ_QUERY: Returns a queue's indices and settings. (R338) -/
  | dqQuery (mb : Nat)
  /-- DQ_CORE_DISABLE: Disables a compute-die core under the drain rule. (R338) -/
  | dqCoreDisable (mb : Nat)
  /-- DQ_CORE_ENABLE: Lets a core take teams again. (R338) -/
  | dqCoreEnable (mb : Nat)
  /-- TEL_READ: Returns sensor values. (R341) -/
  | telRead (mb : Nat)
  /-- TEL_ALERT_SET: Programs and re-arms an alert slot. (R342) -/
  | telAlertSet (mb : Nat)
  /-- SENSOR_REFRESH: Sensors are refreshed every 1 ms. (R341) -/
  | sensorRefresh (id : Nat) (value : BitVec 32)
  /-- TEL_ALERT_CHECK: Every 1 ms enabled slots are compared and EV_TEL_ALERT may post. (R342) -/
  | telAlertCheck
  /-- DBG_ATTACH: Attaches or detaches the debugger. (R343) -/
  | dbgAttach (mb : Nat)
  /-- DBG_HALT: Halts a processor core or compute-die core. (R343) -/
  | dbgHalt (mb : Nat)
  /-- DBG_RESUME: Ends a debug halt. (R343) -/
  | dbgResume (mb : Nat)
  /-- DBG_READ: Reads bytes as a non-caching or device read. (R343) -/
  | dbgRead (mb : Nat)
  /-- DBG_WRITE: Writes bytes as a non-caching or device write. (R343) -/
  | dbgWrite (mb : Nat)
  /-- HD_EVR_RIDX_WRITE: Writing an event ring's read index may clear the interrupt. (R347) -/
  | hdEvrRidxWrite (iss : Iss) (r : Nat) (size : Nat) (value : Word)
  /-- PD_DQINT_PEND_CLEAR: Writing 1 to PEND clears the completion interrupt. (R340) -/
  | pdDqintPendClear (iss : Iss) (n : Nat) (size : Nat) (value : Word)
  /-- CP_WATCHDOG_RESTART: The watchdog restarts Utnak after 10 ms without an answer. (R350) -/
  | cpWatchdogRestart (cause : Nat)
  /-- CP_RESTART_END: Utnak finishes restarting and EV_CP_RESTART posts. (R350) -/
  | cpRestartEnd
  /-- CP_READY: Utnak sets READY and posts EV_CP_READY. (R349) -/
  | cpReady
  /-- PWR_STATE: Changes the power state or starts a power-down. (R363) -/
  | pwrState (mb : Nat)
  /-- PWR_CAP: Sets or removes the power cap. (R363) -/
  | pwrCap (mb : Nat)
  /-- PWR_SLEW: Schedules a new slew limit. (R359) -/
  | pwrSlew (mb : Nat)
  /-- PWR_LEVEL_DRAW: Schedules level-draw settings. (R358) -/
  | pwrLevelDraw (mb : Nat)
  /-- PWR_QUERY: Returns the power registers and pending instants. (R363) -/
  | pwrQuery (mb : Nat)
  /-- PWR_SETTING_EFFECT: A pending slew or level-draw setting takes effect at its AT. (R359) -/
  | pwrSettingEffect
  /-- POWER_SAMPLE: Each 1 µs the controller applies current, slew and floor limits. (R357) -/
  | powerSample (current : Nat) (mw : Nat) (idle : Bool)
  /-- SAG_START: The input falls below 40 V. (R352) -/
  | sagStart (mv : Nat)
  /-- SAG_END: The input stays at or above 40 V for 1 ms and EV_PWR_SUPPLY posts. (R352) -/
  | sagEnd
  /-- SAG_TIMEOUT: A sag lasting 10 ms starts an orderly power-down. (R352) -/
  | sagTimeout
  /-- SURGE_START: The input rises above 56 V. (R352) -/
  | surgeStart (mv : Nat)
  /-- SURGE_END: The input stays at or below 56 V for 1 ms. (R352) -/
  | surgeEnd
  /-- SURGE_TIMEOUT: A surge beyond 100 ms, or above 60 V, starts a power-down. (R352) -/
  | surgeTimeout (mv : Nat)
  /-- INPUT_UNDERVOLTAGE: The input falls below 36 V and power-down starts at once. (R352) -/
  | inputUndervoltage (mv : Nat)
  /-- INPUT_COLLAPSE: The input falls below 28 V and held memory is lost. (R354) -/
  | inputCollapse (mv : Nat)
  /-- POWER_DOWN_RESUME: The input returns for 100 ms and the module boots with memory kept. (R367) -/
  | powerDownResume (mv : Nat)
  /-- COLD_RAMP_END: Cold ramp ends after 1 s and stored settings apply. (R360) -/
  | coldRampEnd
  /-- THERMAL_THROTTLE_STEP: A hot sensor raises or relaxes throttling by one step. (R369) -/
  | thermalThrottleStep (id : Nat)
  /-- THERMAL_SHUTDOWN: A junction at 110 °C or HBM at 105 °C starts a power-down. (R370) -/
  | thermalShutdown (id : Nat)
  /-- REGULATOR_STRESS: A regulator at its limit clamps current and raises a stress report. (R270) -/
  | regulatorStress (die : Nat)
  /-- REFCLK_LOSS: The J1 reference is lost and the module switches to the oscillator. (R365) -/
  | refclkLoss
  /-- POWER_UP: The input reaches 40 V with RESET_N high and the boot sequence starts. (R368) -/
  | powerUp (mv : Nat) (refclk : Bool)
  /-- BOOT_STEP: The next timed step of the boot sequence runs. (R368) -/
  | bootStep (ok : List Bool)
  /-- RESET_N_ASSERT: RESET_N low starts module cold reset. (R411) -/
  | resetNAssert
  /-- PERST_CHANGE: PERSTn_N in the endpoint role holds or releases the port. (R413) -/
  | perstChange (n : Nat) (level : Bool)
  /-- SEC_FW_STAGE: Copies or opens staging of an image into the inactive bank. (R383) -/
  | secFwStage (mb : Nat)
  /-- SEC_FW_CHUNK: Adds a chunk to a streamed stage and verifies at the last. (R384) -/
  | secFwChunk (mb : Nat)
  /-- STAGE_VERIFY_DONE: A staged image finishes verification and EV_SEC_FW posts. (R383) -/
  | stageVerifyDone
  /-- STAGE_ABANDON: A stage left 10 s without a chunk is abandoned. (R384) -/
  | stageAbandon
  /-- SEC_FW_ACTIVATE: Selects the boot bank and optionally raises rollback counters. (R383) -/
  | secFwActivate (mb : Nat) (flashOk : Bool)
  /-- SEC_ATTEST_CREATE: Builds and signs an attestation report. (R388) -/
  | secAttestCreate (mb : Nat) (flashOk : Bool)
  /-- SEC_ATTEST_READ: Returns 64 B of the report. (R388) -/
  | secAttestRead (mb : Nat)
  /-- SEC_ATTEST_PUBKEY: Returns the HSS public key. (R388) -/
  | secAttestPubkey (mb : Nat)
  /-- SEC_ID_READ: Returns a die's identity record. (R380) -/
  | secIdRead (mb : Nat)
  /-- PCIE_MEMORY_READ: HD performs an inbound PCIe read at the home. (R375) -/
  | pcieMemoryRead (n : Nat) (bar : Nat) (addr : Nat) (len : Nat)
  /-- PCIE_MEMORY_WRITE: HD performs an inbound posted write in order. (R375) -/
  | pcieMemoryWrite (n : Nat) (bar : Nat) (addr : Nat) (data : List Byte) (attr : TlpAttr)
  /-- PCIE_ATOMICOP: HD performs an inbound AtomicOp as AtmH. (R375) -/
  | pcieAtomicop (n : Nat) (k : PcieAtom) (addr : Nat) (wide : Bool) (op1 : Word) (op2 : Word)
  /-- PCIE_LINK_DOWN: A link-down or hot reset acts as a disable with grace 0 and retrains. (R377) -/
  | pcieLinkDown (n : Nat)
  /-- PCI_PORT_DISABLE: A write of EN = 0 disables a PCIe port. (R377) -/
  | pciPortDisable (iss : Iss) (n : Nat)
  /-- PCI_PORT_ENABLE: A write of EN = 1 re-enables and trains the port. (R390) -/
  | pciPortEnable (iss : Iss) (n : Nat)
  /-- PCIE_DRAIN_END: A disabled port's grace ends and open requests are cancelled. (R377) -/
  | pcieDrainEnd (n : Nat)
  /-- I3C_PRIVATE_WRITE: Sets the pointer and writes MB4 bytes, the doorbell or DONE. (R379) -/
  | i3cPrivateWrite (b : List Byte)
  /-- I3C_PRIVATE_READ: Reads bytes from the pointer, clearing ALERT bits. (R379) -/
  | i3cPrivateRead (n : Nat)
  /-- I3C_CCC: The target answers or NACKs a common command code. (R378) -/
  | i3cCcc (k : Ccc) (arg : Nat)
  /-- JTAG_MBACCESS: At Update-DR the TAP performs one access to MB6. (R418) -/
  | jtagMbaccess (dr : BitVec 72)
  /-- PMU_DUMP_TICK: At a tick the selected units latch their counters or the tick is skipped. (R397) -/
  | pmuDumpTick
  /-- DUMP_COMPLETE: The dump engine finishes writing a tick's records. (R397) -/
  | dumpComplete
  /-- PMU_COUNTER_WRITE: A counter write takes the value plus that clock's events. (R392) -/
  | pmuCounterWrite (iss : Iss) (unit : Nat) (idx : Nat) (size : Nat) (value : Word) (events : Nat)
  /-- HD_MON_CLEAR: Resets a monitor's extremes and bins. (R400) -/
  | hdMonClear (iss : Iss) (mon : Nat)
  /-- REGISTER_WRITE: A write to a register with no row of its own follows its access codes. (R4) -/
  | registerWrite (iss : Iss) (addr : Nat) (size : Nat) (value : Word)
  /-- REGISTER_READ_CLEAR: A read of an RC field returns and clears it. (R5) -/
  | registerReadClear (iss : Iss) (addr : Nat) (size : Nat)
  /-- LIGHT_DETECTED: Light appears on a DARK or DOWN Col port, which enters TRAINING. (R281) -/
  | lightDetected (p : Nat)
  /-- FW_REVOKE_CANCEL: The grace of a firewall revoke ends, and accesses still in flight are cancelled. (R274) -/
  | fwRevokeCancel (kind : Nat) (slot : Nat)
  /-- STAND_IN_DEADLINE: A stand-in's re-reduced shard closes at DEADLINE + DEFDL with the contributions present. (R298) -/
  | standInDeadline (g : Nat) (shard : Nat)
  /-- FABRIC_REQUEST_TIMEOUT: A fabric-remote load, atomic or tile request gets no response within WTIMEOUT and ends as a bus error. (R293) -/
  | fabricRequestTimeout (tag : Nat)
  /-- COMPLETION_TIMEOUT: A non-posted request through a root-port window gets no completion in time and the load ends in BUS_ERROR. (R376) -/
  | completionTimeout (w : Who) (line : Nat)
  /-- PCIE_LINK_UP: A PCIe port finishes training and its link enters L0, setting UP. (R377) -/
  | pcieLinkUp (n : Nat) (gen : Nat) (width : Nat) (flit : Bool)
  /-- PERST_RELEASE: In the root-port role the module drives PERSTn_N high 100 ms after EN becomes 1 with a stable reference clock. (R413) -/
  | perstRelease (n : Nat)
  /-- AUX_EVENT_POST: The auxiliary die posts an event code, which is posted if inside the granted range and otherwise discarded and logged. (R272) -/
  | auxEventPost (code : Nat) (payload : List Byte)
  /-- MONITOR_SAMPLE: Every 1 µs the monitors with periodic sources record the MD queue depths and the deepest Col-port transmit queue. (R400) -/
  | monitorSample
  /-- TLBI_TAKES_EFFECT: A package TLBI has taken effect in every TLB, which lets a waiting TLBSYNC complete. (R47) -/
  | tlbiTakesEffect (id : Nat)
deriving DecidableEq, Repr

end Sys2Proof
end

