-- ==== Sys2Proof/Decode.lean ====
section
/-! DEFINITION. The table of commands gives no row any bits, so no word spells a command. The words that instruction
commands carry are decoded here (R21 to R27, and the tables of 02, 03, 04 and 06): every field once, every reserved
or unused field checked (R23). -/

namespace Sys2Proof

/-- No row of the table has bits. -/
def decodeTableWord (_nbits _w : Nat) : Option Instr := none

namespace Machine

/-- An instruction after decoding. Register numbers, selectors in the order of the tables, signed immediates;
`d` is the double precision flag; hints are hint3 codes, 0 the page attribute (R25). -/
inductive Op where
  | alu (f rd a b : Nat)
  | shr (f rd a b : Nat)
  | minmax (f rd a b : Nat)
  | mul (f rd a b : Nat)
  | div (f rd a b : Nat)
  | word (f rd a b : Nat)
  | cnt (f rd a : Nat)
  | sel (p rd a b : Nat)
  | ptog (rd : Nat)
  | gtop (a : Nat)
  | immop (f rd a : Nat) (imm : Int)
  | shi (f rd a n : Nat)
  | li (rd : Nat) (imm : Int)
  | lih (rd v : Nat)
  | addpc (rd : Nat) (imm : Int)
  | addiw (rd a : Nat) (imm : Int)
  | cmp (w32 : Bool) (cond pd a b : Nat)
  | cmpi (cond pd a : Nat) (imm : Int)
  | plog (pop pd pa pb : Nat)
  | farith (f : Nat) (d : Bool) (fd a b : Nat)
  | fsqrt (d : Bool) (fd a : Nat)
  | fminmax (f : Nat) (d : Bool) (fd a b : Nat)
  | fsign (f : Nat) (d : Bool) (fd a b : Nat)
  | fcvt (d : Bool) (fd a : Nat)
  | ftoi (uns d : Bool) (rd a : Nat)
  | itof (uns d : Bool) (fd a : Nat)
  | mov (toG d : Bool) (rd a : Nat)
  | fkind (d : Bool) (rd a : Nat)
  | fma (neg sub d : Bool) (fd a b c : Nat)
  | fcmp (d : Bool) (cond pd a b : Nat)
  | load (sgn fp : Bool) (size rd a : Nat) (off : Int) (hint ord scope : Nat)
  | store (fp : Bool) (size rt a : Nat) (off : Int) (hint ord scope : Nat)
  | oload (size rd a : Nat) (off : Int) (hint ord scope : Nat)
  | ostore (size rt a : Nat) (off : Int) (hint ord scope : Nat)
  | amo (k : Nat) (wide : Bool) (rd a b : Nat) (off : Int) (hint ord scope : Nat)
  | ll (rd a : Nat) (off : Int) (hint ord scope : Nat)
  | sc (rd a b : Nat) (off : Int) (hint ord scope : Nat)
  | fence (k scope : Nat)
  | fenceIo
  | fenceI
  | pf (w : Bool) (a : Nat)
  | zerol (a : Nat)
  | br (p : Nat) (sense : Bool) (off : Int)
  | jal (rd : Nat) (off : Int)
  | jalr (rd a : Nat) (imm : Int)
  | upcall
  | dbgtrap
  | rdclk (rd : Nat)
  | rdft (rd : Nat)
  | rdfpc (rd : Nat)
  | wrfpc (a : Nat)
  | pause
  | mfsys (rd n : Nat)
  | mtsys (a n : Nat)
  | tret
  | idle
  | ipi (a : Nat)
  | tlbsync
  | tlbi (k : Nat) (pkg : Bool) (a b : Nat)
  | cmo (k : CmoKind) (a : Nat)
  | xl (k : Nat) (fl : Bool) (edge seg d rd a b : Nat)
  | lv (k seg pd pa rd : Nat)
  | fold (k seg rd a : Nat)
  | gbar
  | tbar
  | mlds (shape fmt a : Nat)
  | mma (n : Bool) (shape fmt : Nat) (z : Bool) (rd a : Nat)
  | mst (shape ofmt : Nat) (sr sat iacc : Bool) (rd a b : Nat)
  | schStart (ch rd a : Nat)
  | schPost (ch scope : Nat)
  | schWait (ch a : Nat)
  | tfence (mask scope : Nat)
  | tsRd (lines : Nat) (free : Bool) (rd a : Nat)
  | tsWr (lines : Nat) (mark : Bool) (a b : Nat)
  | schStat (ch rd : Nat)
deriving DecidableEq, Repr

/-- The three parts of Prieno (R15). -/
inductive Part where
  | b | s | g
deriving DecidableEq, Repr

def Op.part : Op → Part
  | .mfsys .. | .mtsys .. | .tret | .idle | .ipi .. | .tlbsync | .tlbi .. | .cmo .. => .s
  | .xl .. | .lv .. | .fold .. | .gbar | .tbar | .mlds .. | .mma .. | .mst .. | .schStart .. | .schPost ..
  | .schWait .. | .tfence .. | .tsRd .. | .tsWr .. | .schStat .. => .g
  | _ => .b

/-- Integer, compare and predicate instructions (R28), which a conforming LL/SC loop may hold (R229). -/
def Op.isR28 : Op → Bool
  | .alu .. | .shr .. | .minmax .. | .mul .. | .div .. | .word .. | .cnt .. | .sel .. | .ptog .. | .gtop ..
  | .immop .. | .shi .. | .li .. | .lih .. | .addpc .. | .addiw .. | .cmp .. | .cmpi .. | .plog .. => true
  | _ => false

/-- The general registers that an instruction names (R54). -/
def Op.gRegs : Op → List Nat
  | .alu _ rd a b | .shr _ rd a b | .minmax _ rd a b | .mul _ rd a b | .div _ rd a b | .word _ rd a b
  | .sel _ rd a b => [rd, a, b]
  | .cnt _ rd a | .immop _ rd a _ | .shi _ rd a _ | .addiw rd a _ => [rd, a]
  | .ptog rd | .li rd _ | .lih rd _ | .addpc rd _ => [rd]
  | .gtop a => [a]
  | .cmp _ _ _ a b => [a, b]
  | .cmpi _ _ a _ => [a]
  | .ftoi _ _ rd _ | .fkind _ rd _ => [rd]
  | .itof _ _ _ a => [a]
  | .mov toG _ rd a => [if toG then rd else a]
  | .load _ fp _ rd a _ _ _ _ => if fp then [a] else [rd, a]
  | .store fp _ rt a _ _ _ _ => if fp then [a] else [rt, a]
  | .oload _ rd a _ _ _ _ | .ostore _ rd a _ _ _ _ | .ll rd a _ _ _ _ => [rd, a]
  | .amo _ _ rd a b _ _ _ _ | .sc rd a b _ _ _ _ => [rd, a, b]
  | .pf _ a | .zerol a => [a]
  | .jal rd _ => [rd]
  | .jalr rd a _ => [rd, a]
  | .rdclk rd | .rdft rd | .rdfpc rd => [rd]
  | .wrfpc a => [a]
  | .xl _ fl _ _ _ rd a b => if fl then [b] else [rd, a, b]
  | .lv _ _ _ _ rd => [rd]
  | .fold _ _ rd a => [rd, a]
  | .mst _ _ _ _ _ _ a b => [a, b]
  | .schStart _ rd a => [rd, a]
  | .schWait _ a | .tsRd _ _ _ a | .tsWr _ _ a _ => [a]
  | .schStat _ rd => [rd]
  | _ => []

/-- The floating registers that an instruction names singly (R54); fragments and line transfers are checked where
their sizes are known. -/
def Op.fRegs : Op → List Nat
  | .farith _ _ fd a b | .fminmax _ _ fd a b | .fsign _ _ fd a b => [fd, a, b]
  | .fsqrt _ fd a | .fcvt _ fd a => [fd, a]
  | .ftoi _ _ _ a | .fkind _ _ a => [a]
  | .itof _ _ fd _ => [fd]
  | .mov toG _ rd a => [if toG then a else rd]
  | .fma _ _ _ fd a b c => [fd, a, b, c]
  | .fcmp _ _ _ a b => [a, b]
  | .load _ fp _ rd _ _ _ _ _ => if fp then [rd] else []
  | .store fp _ rt _ _ _ _ _ => if fp then [rt] else []
  | .xl _ fl _ _ _ rd a _ => if fl then [rd, a] else []
  | _ => []

/-- The floating register that an instruction writes in every active lane. -/
def Op.fDst : Op → List Nat
  | .farith _ _ fd _ _ | .fminmax _ _ fd _ _ | .fsign _ _ fd _ _ | .fsqrt _ fd _ | .fcvt _ fd _ | .itof _ _ fd _
  | .fma _ _ _ fd _ _ _ => [fd]
  | .mov toG _ rd _ => if toG then [] else [rd]
  | .xl _ fl _ _ _ rd _ _ => if fl then [rd] else []
  | _ => []

/-- Field [lo + n - 1 : lo] of an instruction word (R22). -/
def fieldOf (w : W32) (lo n : Nat) : Nat := (w.toNat >>> lo) % 2 ^ n

/-- Hint of the M format as a hint3 code (R22, R25). -/
def hint3Of : Nat → Nat
  | 1 => 2 | 2 => 3 | 3 => 4 | _ => 0

/-- Order and scope allowed on a load, or on a store (R34). -/
def loadOrdOk (ord scope : Nat) : Bool := ord == 0 || (ord == 1 && scope ≤ 4)
def storeOrdOk (ord scope : Nat) : Bool := ord == 0 || (ord == 2 && scope ≤ 4)

/-- R format, opcode 0x01 (R28). -/
def decodeInt (func rd a b : Nat) : Option Op :=
  if func ≤ 5 then some (.alu func rd a b)
  else if func ≤ 9 then some (.shr (func - 6) rd a b)
  else if func ≤ 0xD then some (.minmax (func - 0xA) rd a b)
  else if 0x10 ≤ func ∧ func ≤ 0x12 then some (.mul (func - 0x10) rd a b)
  else if 0x13 ≤ func ∧ func ≤ 0x16 then some (.div (func - 0x13) rd a b)
  else if 0x18 ≤ func ∧ func ≤ 0x1D then some (.word (func - 0x18) rd a b)
  else if 0x20 ≤ func ∧ func ≤ 0x23 then (if b = 0 then some (.cnt (func - 0x20) rd a) else none)
  else if 0x28 ≤ func ∧ func ≤ 0x2F then some (.sel (func - 0x28) rd a b)
  else if func = 0x30 then (if a = 0 ∧ b = 0 then some (.ptog rd) else none)
  else if func = 0x31 then (if rd = 0 ∧ b = 0 then some (.gtop a) else none)
  else none

/-- R format, opcode 0x30 (R30): func[7:1] is the operation, func[0] the precision. -/
def decodeFloat (func rd a b : Nat) : Option Op :=
  let n := func / 2
  let d := func % 2 == 1
  if n ≤ 3 then some (.farith n d rd a b)
  else if n = 4 then (if b = 0 then some (.fsqrt d rd a) else none)
  else if n ≤ 6 then some (.fminmax (n - 5) d rd a b)
  else if n = 7 ∨ n = 0xA then some (.fsign (n - 7) d rd a b)
  else if n = 8 ∨ n = 9 then (if b = 0 then some (.fsign (n - 7) d rd a 0) else none)
  else if b ≠ 0 then none
  else if n = 0xB then some (.fcvt d rd a)
  else if n = 0xC ∨ n = 0xD then some (.ftoi (n == 0xD) d rd a)
  else if n = 0xE ∨ n = 0xF then some (.itof (n == 0xF) d rd a)
  else if n = 0x10 ∨ n = 0x11 then some (.mov (n == 0x10) d rd a)
  else if n = 0x12 then some (.fkind d rd a)
  else none

/-- R format, opcode 0x1A (R38). -/
def decodeFence (func rd a b : Nat) : Option Op :=
  let k := func / 64
  let sc := func / 8 % 8
  let lo := func % 8
  if rd ≠ 0 ∨ a ≠ 0 ∨ b ≠ 0 then none
  else if k < 3 then (if sc ≤ 4 ∧ lo = 0 then some (.fence k sc) else none)
  else if sc ≠ 0 then none
  else if lo = 0 then some .fenceIo
  else if lo = 1 then some .fenceI
  else none

/-- R format, opcode 0x38 (R41). -/
def decodeUser (func rd a b : Nat) : Option Op :=
  if b ≠ 0 then none
  else match func with
  | 1 => if rd = 0 ∧ a = 0 then some .upcall else none
  | 2 => if rd = 0 ∧ a = 0 then some .dbgtrap else none
  | 3 => if a = 0 then some (.rdclk rd) else none
  | 4 => if a = 0 then some (.rdft rd) else none
  | 5 => if a = 0 then some (.rdfpc rd) else none
  | 6 => if rd = 0 then some (.wrfpc a) else none
  | 7 => if rd = 0 ∧ a = 0 then some .pause else none
  | _ => none

/-- R format, opcode 0x3E (R46, R47). -/
def decodePriv (func rd a b : Nat) : Option Op :=
  if rd ≠ 0 then none
  else match func with
  | 0x00 => if a = 0 ∧ b = 0 then some .tret else none
  | 0x01 => if a = 0 ∧ b = 0 then some .idle else none
  | 0x02 => if b = 0 then some (.ipi a) else none
  | 0x08 => if a = 0 ∧ b = 0 then some .tlbsync else none
  | 0x10 => if a = 0 ∧ b = 0 then some (.tlbi 0 false 0 0) else none
  | 0x30 => if a = 0 ∧ b = 0 then some (.tlbi 0 true 0 0) else none
  | 0x11 => if b = 0 then some (.tlbi 1 false a 0) else none
  | 0x31 => if b = 0 then some (.tlbi 1 true a 0) else none
  | 0x12 => some (.tlbi 2 false a b)
  | 0x32 => some (.tlbi 2 true a b)
  | 0x13 => if b = 0 then some (.tlbi 3 false a 0) else none
  | 0x33 => if b = 0 then some (.tlbi 3 true a 0) else none
  | 0x40 => if b = 0 then some (.cmo .clean a) else none
  | 0x41 => if b = 0 then some (.cmo .flush a) else none
  | 0x42 => if b = 0 then some (.cmo .inval a) else none
  | _ => none

/-- A format, opcodes 0x15 to 0x19 (R34, R35, R37), with a byte offset and a hint from a MEMX prefix. -/
def decodeA (op rt a b ord scope sub : Nat) (off : Int) (hint : Nat) : Option Op :=
  if op = 0x15 then
    if b ≠ 0 then none
    else if sub < 4 then (if loadOrdOk ord scope then some (.oload (sub % 4) rt a off hint ord scope) else none)
    else (if storeOrdOk ord scope then some (.ostore (sub % 4) rt a off hint ord scope) else none)
  else if op = 0x19 then
    if scope > 4 then none
    else if sub = 0 then (if b = 0 ∧ ord < 2 then some (.ll rt a off hint ord scope) else none)
    else if sub = 1 then (if ord = 0 ∨ ord = 2 then some (.sc rt a b off hint ord scope) else none)
    else none
  else
    let k := (op - 0x16) * 4 + sub % 4
    if scope > 4 ∨ k = 11 then none else some (.amo k (sub ≥ 4) rt a b off hint ord scope)

/-- M format, opcodes 0x10 to 0x14 (R31), offset in units of the size. -/
def decodeM (op rt a size : Nat) (off : Int) (hint ord scope : Nat) : Option Op :=
  let o := off * (2 ^ size : Nat)
  if op = 0x10 ∨ op = 0x11 then
    (if loadOrdOk ord scope then some (.load (op == 0x11) false size rt a o hint ord scope) else none)
  else if op = 0x12 then (if storeOrdOk ord scope then some (.store false size rt a o hint ord scope) else none)
  else if size < 2 then none
  else if op = 0x13 then (if loadOrdOk ord scope then some (.load false true size rt a o hint ord scope) else none)
  else (if storeOrdOk ord scope then some (.store true size rt a o hint ord scope) else none)

/-- A base word of Prieno-B or Prieno-S with the payload of a WIDE prefix, if it has one (R25). -/
def decodeBase (w : W32) (wide : Option Nat) : Option Op :=
  let op := fieldOf w 26 6
  let rd := fieldOf w 20 6
  let a := fieldOf w 14 6
  let b := fieldOf w 8 6
  let func := fieldOf w 0 8
  let pl := wide.getD 0
  let immI : Int := match wide with | none => sext 14 (fieldOf w 0 14) | some p => sext 34 (p * 2 ^ 14 + fieldOf w 0 14)
  let immJ : Int := match wide with | none => sext 20 (fieldOf w 0 20) | some p => sext 40 (p * 2 ^ 20 + fieldOf w 0 20)
  let offM : Int := match wide with | none => sext 10 (fieldOf w 0 10) | some p => sext 30 (p * 2 ^ 10 + fieldOf w 0 10)
  let offB : Int := match wide with | none => sext 22 (fieldOf w 0 22) | some p => sext 42 (p * 2 ^ 22 + fieldOf w 0 22)
  let c := fieldOf w 23 3
  let pd := fieldOf w 20 3
  if 2 ≤ op ∧ op ≤ 5 then some (.immop (op - 2) rd a immI)
  else if op = 0x0A then some (.addiw rd a immI)
  else if op = 0x07 then some (.li rd immJ)
  else if op = 0x08 then
    (match wide with
     | none => some (.lih rd ((immJ % 2 ^ 24).toNat))
     | some p => if p < 16 then some (.lih rd (p * 2 ^ 20 + fieldOf w 0 20)) else none)
  else if op = 0x09 then some (.addpc rd immJ)
  else if 0x10 ≤ op ∧ op ≤ 0x14 then decodeM op rd a (fieldOf w 12 2) offM (hint3Of (fieldOf w 10 2)) 0 0
  else if op = 0x20 then some (.br c (fieldOf w 22 1 == 1) offB)
  else if op = 0x21 then some (.jal rd immJ)
  else if op = 0x22 then some (.jalr rd a immI)
  else if pl ≠ 0 then none
  else if op = 0x01 then decodeInt func rd a b
  else if op = 0x06 then
    (if fieldOf w 6 6 = 0 then some (.shi (fieldOf w 12 2) rd a (fieldOf w 0 6)) else none)
  else if 0x15 ≤ op ∧ op ≤ 0x19 then decodeA op rd a b (fieldOf w 6 2) (fieldOf w 3 3) (fieldOf w 0 3) 0 0
  else if op = 0x1A then decodeFence func rd a b
  else if op = 0x1B then
    (if rd ≠ 0 ∨ b ≠ 0 then none
     else if func = 0 then some (.pf false a) else if func = 1 then some (.pf true a)
     else if func = 2 then some (.zerol a) else none)
  else if op = 0x24 then (if c ≤ 5 ∧ func ≤ 1 then some (.cmp (func == 1) c pd a b) else none)
  else if op = 0x25 then (if c ≤ 5 then some (.cmpi c pd a (sext 14 (fieldOf w 0 14))) else none)
  else if op = 0x26 then (if c ≤ 4 ∧ func ≤ 1 then some (.fcmp (func == 1) c pd a b) else none)
  else if op = 0x27 then
    (if c ≤ 4 ∧ fieldOf w 0 14 = 0 ∧ (c = 4 → fieldOf w 14 3 = 0) then
       some (.plog c pd (fieldOf w 17 3) (fieldOf w 14 3)) else none)
  else if op = 0x30 then decodeFloat func rd a b
  else if op = 0x31 ∨ op = 0x32 then
    some (.fma (fieldOf w 1 1 == 1) (op == 0x32) (fieldOf w 0 1 == 1) rd a b (fieldOf w 2 6))
  else if op = 0x38 then decodeUser func rd a b
  else if op = 0x3C then (if a = 0 ∧ fieldOf w 12 2 = 0 then some (.mfsys rd (fieldOf w 0 12)) else none)
  else if op = 0x3D then (if rd = 0 ∧ fieldOf w 12 2 = 0 then some (.mtsys a (fieldOf w 0 12)) else none)
  else if op = 0x3E then decodePriv func rd a b
  else none

/-- A MEMX long form (R25). -/
def decodeMemx (p : Nat) (w : W32) : Option Op :=
  let op := fieldOf w 26 6
  let hint := p / 2 ^ 17
  let ord := p / 2 ^ 15 % 4
  let scope := p / 2 ^ 12 % 8
  let ext := p % 2 ^ 12
  let rd := fieldOf w 20 6
  let a := fieldOf w 14 6
  if hint > 4 then none
  else if 0x10 ≤ op ∧ op ≤ 0x14 then
    (if fieldOf w 10 2 = 0 then
       decodeM op rd a (fieldOf w 12 2) (sext 22 (ext * 2 ^ 10 + fieldOf w 0 10)) hint ord scope else none)
  else if 0x15 ≤ op ∧ op ≤ 0x19 then
    (if ord = 0 ∧ scope = 0 then
       decodeA op rd a (fieldOf w 8 6) (fieldOf w 6 2) (fieldOf w 3 3) (fieldOf w 0 3) (sext 12 ext) hint else none)
  else none

/-- A Prieno-G long form: gop, modifiers, registers, and whether its guard is p0 with gsense 0 (R62, R64, R65, R102,
R137). -/
def decodeG (gop m rd a b : Nat) (always : Bool) : Option Op :=
  let seg := m / 64 % 8
  let fmt := m / 128 % 16
  let shape := m / 2048 % 2
  if gop ≤ 4 then
    (if seg = 7 ∨ m / 512 % 4 = 3 ∨ (gop = 0 ∧ m % 64 ≠ 0) ∨ (gop ≠ 0 ∧ b ≠ 0) then none
     else some (.xl gop (m / 2048 % 2 == 1) (m / 512 % 4) seg (m % 64) rd a b))
  else if 0x10 ≤ gop ∧ gop ≤ 0x15 then
    let pd := m / 8 % 8
    let pa := m % 8
    let k := gop - 0x10
    (if seg = 7 ∨ m / 512 ≠ 0 ∨ a ≠ 0 ∨ b ≠ 0 then none
     else if (k < 2 ∨ k = 4) ∧ rd ≠ 0 then none
     else if (k = 2 ∨ k = 3 ∨ k = 5) ∧ pd ≠ 0 then none
     else if (k = 3 ∨ k = 4) ∧ pa ≠ 0 then none
     else some (.lv k seg pd pa rd))
  else if 0x18 ≤ gop ∧ gop ≤ 0x1D then
    (if seg = 7 ∨ m / 512 ≠ 0 ∨ m % 64 ≠ 0 ∨ b ≠ 0 then none else some (.fold (gop - 0x18) seg rd a))
  else if gop = 0x20 ∨ gop = 0x21 then
    (if m ≠ 0 ∨ rd ≠ 0 ∨ a ≠ 0 ∨ b ≠ 0 ∨ !always then none else some (if gop = 0x20 then .gbar else .tbar))
  else if gop = 0x40 then
    (if rd ≠ 0 ∨ b ≠ 0 ∨ m % 128 ≠ 0 then none else some (.mlds shape fmt a))
  else if gop = 0x41 ∨ gop = 0x42 then
    (if b ≠ 0 ∨ m % 64 ≠ 0 then none else some (.mma (gop == 0x42) shape fmt (m / 64 % 2 == 1) rd a))
  else if gop = 0x43 then
    (if m % 16 ≠ 0 then none
     else some (.mst shape fmt (m / 64 % 2 == 1) (m / 32 % 2 == 1) (m / 16 % 2 == 1) rd a b))
  else if gop = 0x60 then (if b ≠ 0 ∨ m ≥ 8 then none else some (.schStart m rd a))
  else if gop = 0x61 then
    (if rd ≠ 0 ∨ a ≠ 0 ∨ b ≠ 0 ∨ m ≥ 64 ∨ m / 8 > 4 then none else some (.schPost (m % 8) (m / 8)))
  else if gop = 0x62 then (if rd ≠ 0 ∨ b ≠ 0 ∨ m ≥ 8 then none else some (.schWait m a))
  else if gop = 0x63 then
    (if rd ≠ 0 ∨ a ≠ 0 ∨ b ≠ 0 ∨ m ≥ 2048 ∨ m / 256 > 4 then none else some (.tfence (m % 256) (m / 256)))
  else if gop = 0x64 then (if b ≠ 0 ∨ m ≥ 32 then none else some (.tsRd (m % 16 + 1) (m / 16 == 1) rd a))
  else if gop = 0x65 then (if rd ≠ 0 ∨ m ≥ 32 then none else some (.tsWr (m % 16 + 1) (m / 16 == 1) a b))
  else if gop = 0x66 then (if a ≠ 0 ∨ b ≠ 0 ∨ m ≥ 8 then none else some (.schStat m rd))
  else none

/-- An instruction as decoded: the guard of a long form, its length, and the operation, or none where it is ILLEGAL. -/
structure Decoded where
  guard : Nat
  gsense : Bool
  len : Nat
  op : Option Op
deriving DecidableEq, Repr

/-- Decode the words of an instruction (R21 to R27). -/
def decodeI (iw : IWord) : Decoded :=
  match iw.pre with
  | none => ⟨0, false, 4, decodeBase iw.word none⟩
  | some p =>
    let g := fieldOf p 23 3
    let gs := fieldOf p 22 1 == 1
    let cls := fieldOf p 20 2
    let pl := fieldOf p 0 20
    let w := iw.word
    let isG := fieldOf w 26 6 == 0x3A
    let op :=
      match cls with
      | 0 => if isG then none else decodeBase w (some pl)
      | 1 => if isG && fieldOf w 0 8 == 0 then
               decodeG (pl / 4096) (pl % 4096) (fieldOf w 20 6) (fieldOf w 14 6) (fieldOf w 8 6) (g == 0 && !gs)
             else none
      | 2 => decodeMemx pl w
      | _ => none
    ⟨g, gs, 8, op⟩

/-- A prefix word has opcode 0x3F, and a word without a prefix has another (R25). -/
def iwordWf (iw : IWord) : Bool :=
  match iw.pre with
  | none => fieldOf iw.word 26 6 != 0x3F
  | some p => fieldOf p 26 6 == 0x3F

end Machine

end Sys2Proof
end

