-- ==== Sys2Proof/Config.lean ====
section
/-! DEFINITION. What one module fixes at manufacture (fuses, identities: the HW entries of the register tables)
and the free values: constants with no body, so that nothing can be proved of their value. -/

namespace Sys2Proof

/- Fuses and identities (01, 17). -/
/-- Module serial number, 8 B, HD fuses (R380). -/
opaque Config.serial : Word
/-- Identity record of a die as 9 bytes: lot, wafer, X, Y (R380). -/
opaque Config.dieId : Nat → BitVec 72
/-- PCIe vendor ID fuse (R390). -/
opaque Config.pciVendor : BitVec 16
/-- CD_MX_FUSE of an engine (R109). -/
opaque Config.mxFuse : Nat → W32
/-- Steppings of PD, compute dies, memory-side dies and HD (R334), PD's also sys.stepping (R43). -/
opaque Config.stepping : Nat → Byte
/-- Utnak version of a component 0 image, by the hash of its body (R334: [31:24] major, [23:16] minor, [15:0] build). -/
opaque Config.utnakVersion : BitVec 256 → W32
/-- Factory reference REF of Watershed input i (R323). -/
opaque Config.wsRef : Nat → BitVec 16
/-- Bus characteristics the I3C target answers to GETPID, GETBCR, GETDCR, GETMWL, GETMRL and GETSTATUS (R378 gives no values). -/
opaque Config.i3cChar : Nat → Word

/- Free values: what the manual leaves open. The argument is a counter of State or the operands. -/
/-- Undefined 64-bit register at a thread's start: stamp, lane, register (R19, R74). -/
opaque Config.startReg : Nat → Nat → Word
/-- Undefined contents of storage at a team start or a binding: stamp, byte index (R95, R125). -/
opaque Config.freeByte : Nat → Nat → Byte
/-- An order of addition: any number names a permutation (R82, R121). -/
opaque Config.addOrder : Nat → Nat
/-- exp2 of SMAX before the bound of R90 is applied: one fixed device function. -/
opaque Config.exp2 : W32 → W32
/-- Whether an SC.D of a loop that may fail spuriously does so (R228). -/
opaque Config.scFails : Nat → Bool
/-- The VIA plain drawn for a non-minimal route (R288). -/
opaque Config.viaPick : Nat → Nat
/-- Credits of a lane of a Col port, in frames (R286; the rule gives no count): a packet takes up to three. -/
opaque Config.laneFrames : Nat → Nat
/-- Whether the count of fabric time moves by 1 ns where the slew rate allows it (R300; the rule bounds the rate alone). -/
opaque Config.slews : Nat → Bool
/-- Whether the plain of an address of another plain gives it to another member at a switch, by its number (R304): only that
plain's modules hold its map. -/
opaque Config.remapsFar : Nat → Nat → Bool
/-- Whether a signed image verifies: its LMS signature by a key slot that is not revoked, and the hash of its body (R381). -/
opaque Config.imageOk : List Byte → Nat → Bool
/-- SVN field of an image's header, and the fields of a boot configuration record: roles, clocking, HP, SP, plain (R381 gives
no byte places). -/
opaque Config.imageSvn : List Byte → BitVec 6
opaque Config.recordField : List Byte → Nat → Nat
/-- SHA-256 of a list of bytes given as a number and its length (R381, R388). -/
opaque Config.sha256 : Nat → Nat → BitVec 256
/-- HSS signature bytes, of a leaf over a message, and public key (R386): the private seed never leaves the security root. -/
opaque Config.hssSig : Nat → List Byte → Nat → Byte
opaque Config.hssPub : Nat → Byte
/-- Set index of a snoop filter and of PD's directory (R209 and R196 give the sizes and no index). -/
opaque Config.sfSet : Nat → Nat
/-- Set index of a set-associative TLB (R248: not architectural). -/
opaque Config.tlbSet : Nat → Nat
/-- Contents of a line that a home takes as poisoned from an agent that does not answer (R213): line, counter. -/
opaque Config.lostLine : Nat → Nat → BitVec 1024
/-- Whether a die is fitted at the auxiliary site, the presence fuse (R276), and the nn of the part number (R271). -/
opaque Config.auxPresent : Bool
opaque Config.auxId : BitVec 16
/-- What a sensor shows before its first refresh (R341 gives no value). -/
opaque Config.sensor0 : Nat → W32
/-- A value a rule leaves unstated, fresh by the counter. -/
opaque Config.freeWord : Nat → Word

end Sys2Proof
end

