-- ==== Sys2Proof/Machine/Regs.lean ====
section
/-! DEFINITION. The register map: for every register of the tables its block, offset, stride, fields with their
access codes, reset value and reset domain (R4, R170, R421 and the rule named beside each register). The lookup of
an address is a search in this table. -/

namespace Sys2Proof.Machine

/-- Access codes (R4). -/
inductive Acc where
  | ro | rw | w1c | w1s | rc | wo
deriving DecidableEq, Repr

/-- A field: low bit, width, access code. -/
structure Fld where
  lo : Nat
  wid : Nat
  acc : Acc
deriving DecidableEq, Repr

/-- Which reset restores a register: module cold reset, package warm reset, compute-die reset, the reset of the die
that holds it (R396), the creation of its queue (R69). -/
inductive RegDom where
  | cold | warm | die | own | queue
deriving DecidableEq, Repr

/-- Register blocks (R170). -/
inductive Blk where
  | CD | PD | MD | HD | DQ
deriving DecidableEq, Repr

/-- The registers, each with the name and rule of its table. -/
inductive RegKind where
  /-- CD_MX_FUSE (R109) -/
  | mxFuse
  /-- CD_MX_SEED (R109) -/
  | mxSeed
  /-- CD_MX_STATUS (R109) -/
  | mxStatus
  /-- CD_MX_BIND (R109) -/
  | mxBind
  /-- CD_TS_CH_CTRL (R145) -/
  | tsChCtrl
  /-- CD_TS_CH_STATUS (R145) -/
  | tsChStatus
  /-- CD_TS_CH_PC (R145) -/
  | tsChPc
  /-- CD_TS_CH_COUNT (R145) -/
  | tsChCount
  /-- CD_TS_CFG (R145) -/
  | tsCfg
  /-- CD_CC_WAYMASK0 (R215) -/
  | ccMask0
  /-- CD_CC_WAYMASK1 (R215) -/
  | ccMask1
  /-- CD_CC_STATUS (R215) -/
  | ccStatus
  /-- CD_CC_CTRL (R215) -/
  | ccCtrl
  /-- CD_XLT_AST (R256) -/
  | xltAst
  /-- CD_FQ_BASE (R256) -/
  | fqBase
  /-- CD_FQ_WIDX (R256) -/
  | fqWidx
  /-- CD_FQ_RIDX (R256) -/
  | fqRidx
  /-- CD_FQ_RESP (R256) -/
  | fqResp
  /-- CD_FQ_DEADLINE (R256) -/
  | fqDeadline
  /-- CD_FQ_STATUS (R256) -/
  | fqStatus
  /-- LNK_CTRL (R268) -/
  | lnkCtrl
  /-- LNK_STATUS (R268) -/
  | lnkStatus
  /-- LNK_ERR (R268) -/
  | lnkErr
  /-- LNK_REPAIR (R268) -/
  | lnkRepair
  /-- PMU_CTRL (R396) -/
  | pmuCtrl
  /-- PMU_EVSEL (R396) -/
  | pmuEvsel
  /-- PMU_PMC (R396) -/
  | pmuPmc
  /-- PMU_CYCLES,_INSTR,_RET,_WASTE,_FRONT,_BACK (R396) -/
  | pmuFixed
  /-- PMU_TAG (R396) -/
  | pmuTag
  /-- PD_CACHE_STATUS (R215) -/
  | pdCacheStatus
  /-- PD_SERR_STATUS (R240) -/
  | serrStatus
  /-- PD_SERR_ADDR (R240) -/
  | serrAddr
  /-- PD_SERR_PC (R240) -/
  | serrPc
  /-- PD_DQINT (R351) -/
  | dqint
  /-- PD_PMU_USER_EN (R395) -/
  | pmuUserEn
  /-- MD_MEM_SPLIT (R193) -/
  | memSplit
  /-- MD_MEM_STATUS (R193) -/
  | memStatus
  /-- MD_MEM_UE_ADDR (R193) -/
  | memUeAddr
  /-- MD_SCRUB_CTRL (R193) -/
  | scrubCtrl
  /-- MD_MSC_CTRL (R193) -/
  | mscCtrl
  /-- MD_MSC_HIT (R193) -/
  | mscHit
  /-- MD_MSC_MISS (R193) -/
  | mscMiss
  /-- MD_HBM_STATUS (R193) -/
  | hbmStatus
  /-- MD_HBM_REPAIR (R193) -/
  | hbmRepair
  /-- MD_LP_STATUS (R193) -/
  | lpStatus
  /-- SEQ_STATUS (R166) -/
  | seqStatus
  /-- SEQ_BTC_CTRL (R166) -/
  | seqBtcCtrl
  /-- SEQ_BTC_HIT (R166) -/
  | seqBtcHit
  /-- SEQ_BTC_MISS (R166) -/
  | seqBtcMiss
  /-- SEQ_POISON_ADDR (R166) -/
  | seqPoisonAddr
  /-- SEQ_CPT_RATE (R166) -/
  | seqCptRate
  /-- MD_COH_CTRL (R215) -/
  | cohCtrl
  /-- MD_COH_STATUS (R215) -/
  | cohStatus
  /-- MD_COH_LOST0 (R215) -/
  | cohLost0
  /-- MD_COH_LOST1 (R215) -/
  | cohLost1
  /-- MD_COH_TO_ADDR (R215) -/
  | cohToAddr
  /-- MD_SF_STATUS (R215) -/
  | sfStatus
  /-- MB_CMD (R325) -/
  | mbCmd
  /-- MB_RSP (R325) -/
  | mbRsp
  /-- MB_DOORBELL (R325) -/
  | mbDoorbell
  /-- MB_STATUS (R325) -/
  | mbStatus
  /-- MB_CTRL (R325) -/
  | mbCtrl
  /-- HD_CP_STATUS (R351) -/
  | cpStatus
  /-- HD_EVR_WIDX (R351) -/
  | evrWidx
  /-- HD_EVR_RIDX (R351) -/
  | evrRidx
  /-- HD_EVR_STATUS (R351) -/
  | evrStatus
  /-- HD_ORD_CTRL (R240) -/
  | ordCtrl
  /-- HD_ORD_STATUS (R240) -/
  | ordStatus
  /-- HD_FW_STATUS (R276) -/
  | fwStatus
  /-- HD_FW_LOG (R276) -/
  | fwLog
  /-- FAB_CTRL (R310) -/
  | fabCtrl
  /-- FAB_ID (R310) -/
  | fabId
  /-- FAB_RT_STATUS (R310) -/
  | fabRtStatus
  /-- FAB_RT_AT (R310) -/
  | fabRtAt
  /-- FAB_TIME (R310) -/
  | fabTime
  /-- FAB_TIME_STATUS (R310) -/
  | fabTimeStatus
  /-- FAB_TIME_CFG (R310) -/
  | fabTimeCfg
  /-- FAB_STATUS (R310) -/
  | fabStatus
  /-- FAB_PORT_STATUS (R310) -/
  | fabPortStatus
  /-- FAB_PORT_ERR (R310) -/
  | fabPortErr
  /-- FAB_CG_DOORBELL (R310) -/
  | cgDoorbell
  /-- WS_CTRL (R323) -/
  | wsCtrl
  /-- WS_THRESH (R323) -/
  | wsThresh
  /-- WS_STATUS (R323) -/
  | wsStatus
  /-- WS_SNAP_TIME (R323) -/
  | wsSnapTime
  /-- WS_IN_i (R323) -/
  | wsIn
  /-- PWR_STATUS (R372) -/
  | pwrStatus
  /-- PWR_INPUT (R372) -/
  | pwrInput
  /-- PWR_LIMITS (R372) -/
  | pwrLimits
  /-- PWR_THROTTLE (R372) -/
  | pwrThrottle
  /-- PWR_PDFREQ (R372) -/
  | pwrPdfreq
  /-- PWR_SUPPLY (R372) -/
  | pwrSupply
  /-- PWR_THERM (R372) -/
  | pwrTherm
  /-- PCI_ID (R390) -/
  | pciId
  /-- PCI_PORT_CTRL (R390) -/
  | pciPortCtrl
  /-- PCI_PORT_STATUS (R390) -/
  | pciPortStatus
  /-- HD_SEC_STATUS (R390) -/
  | secStatus
  /-- HD_PMU_DCTRL (R401) -/
  | dctrl
  /-- HD_PMU_DBASE (R401) -/
  | dbase
  /-- HD_PMU_DWIDX (R401) -/
  | dwidx
  /-- HD_PMU_DRIDX (R401) -/
  | dridx
  /-- HD_PMU_DSEL (R401) -/
  | dsel
  /-- HD_PMU_DSTATUS (R401) -/
  | dstatus
  /-- HD_PMU_SBASE (R401) -/
  | sbase
  /-- HD_PMU_SWIDX (R401) -/
  | swidx
  /-- HD_PMU_SRIDX (R401) -/
  | sridx
  /-- HD_PMU_SSTATUS (R401) -/
  | sstatus
  /-- HD_MON_CTRL (R401) -/
  | monCtrl
  /-- HD_MON_RANGE (R401) -/
  | monRange
  /-- HD_MON_BIN (R401) -/
  | monBin
  /-- CD_DQ_DOORBELL (R69) -/
  | dqDoorbell
  /-- CD_DQ_RIDX (R69) -/
  | dqRidx
  /-- CD_DQ_STATUS (R69) -/
  | dqStatus
deriving DecidableEq, Repr

/-- Where a register stands: block unit u, window a and element b lie at off + a * sa + b * sb, and are register
i = i0 + u * iu + a * ia, element b. -/
structure RegRow where
  kind : RegKind
  blk : Blk
  off : Nat
  sa : Nat
  na : Nat
  sb : Nat
  nb : Nat
  i0 : Nat
  iu : Nat
  ia : Nat
deriving DecidableEq, Repr

def regRows0 : List RegRow :=
  [⟨.mxFuse, .CD, 0x400000, 0x100, 256, 8, 1, 0, 256, 1⟩,
   ⟨.mxSeed, .CD, 0x400008, 0x100, 256, 8, 1, 0, 256, 1⟩,
   ⟨.mxStatus, .CD, 0x400010, 0x100, 256, 8, 1, 0, 256, 1⟩,
   ⟨.mxBind, .CD, 0x400018, 0x100, 256, 8, 1, 0, 256, 1⟩,
   ⟨.tsChCtrl, .CD, 0x500000, 0x400, 64, 0x40, 8, 0, 64, 1⟩,
   ⟨.tsChStatus, .CD, 0x500008, 0x400, 64, 0x40, 8, 0, 64, 1⟩,
   ⟨.tsChPc, .CD, 0x500010, 0x400, 64, 0x40, 8, 0, 64, 1⟩,
   ⟨.tsChCount, .CD, 0x500018, 0x400, 64, 0x40, 8, 0, 64, 1⟩,
   ⟨.tsCfg, .CD, 0x500200, 0x400, 64, 8, 1, 0, 64, 1⟩,
   ⟨.ccMask0, .CD, 0x600000, 0x100, 8, 8, 1, 0, 8, 1⟩,
   ⟨.ccMask1, .CD, 0x600008, 0x100, 8, 8, 1, 0, 8, 1⟩,
   ⟨.ccStatus, .CD, 0x600010, 0x100, 8, 8, 1, 0, 8, 1⟩,
   ⟨.ccCtrl, .CD, 0x600018, 0x100, 8, 8, 1, 0, 8, 1⟩,
   ⟨.xltAst, .CD, 0x700000, 8, 1, 8, 1, 0, 1, 1⟩,
   ⟨.fqBase, .CD, 0x700008, 8, 1, 8, 1, 0, 1, 1⟩,
   ⟨.fqWidx, .CD, 0x700010, 8, 1, 8, 1, 0, 1, 1⟩,
   ⟨.fqRidx, .CD, 0x700018, 8, 1, 8, 1, 0, 1, 1⟩,
   ⟨.fqResp, .CD, 0x700020, 8, 1, 8, 1, 0, 1, 1⟩,
   ⟨.fqDeadline, .CD, 0x700028, 8, 1, 8, 1, 0, 1, 1⟩,
   ⟨.fqStatus, .CD, 0x700030, 8, 1, 8, 1, 0, 1, 1⟩,
   ⟨.lnkCtrl, .CD, 0x800000, 0x100, 4, 8, 1, 0, 32, 1⟩,
   ⟨.lnkCtrl, .PD, 0x800000, 0x100, 5, 8, 1, 256, 0, 1⟩,
   ⟨.lnkCtrl, .MD, 0x800000, 0x100, 10, 8, 1, 288, 32, 1⟩,
   ⟨.lnkCtrl, .HD, 0x800000, 0x100, 17, 8, 1, 416, 0, 1⟩,
   ⟨.lnkCtrl, .HD, 0x800580, 0x100, 12, 8, 1, 448, 0, 32⟩,
   ⟨.lnkStatus, .CD, 0x800008, 0x100, 4, 8, 1, 0, 32, 1⟩,
   ⟨.lnkStatus, .PD, 0x800008, 0x100, 5, 8, 1, 256, 0, 1⟩,
   ⟨.lnkStatus, .MD, 0x800008, 0x100, 10, 8, 1, 288, 32, 1⟩,
   ⟨.lnkStatus, .HD, 0x800008, 0x100, 17, 8, 1, 416, 0, 1⟩,
   ⟨.lnkStatus, .HD, 0x800588, 0x100, 12, 8, 1, 448, 0, 32⟩]

def regRows1 : List RegRow :=
  [⟨.lnkErr, .CD, 0x800010, 0x100, 4, 8, 1, 0, 32, 1⟩,
   ⟨.lnkErr, .PD, 0x800010, 0x100, 5, 8, 1, 256, 0, 1⟩,
   ⟨.lnkErr, .MD, 0x800010, 0x100, 10, 8, 1, 288, 32, 1⟩,
   ⟨.lnkErr, .HD, 0x800010, 0x100, 17, 8, 1, 416, 0, 1⟩,
   ⟨.lnkErr, .HD, 0x800590, 0x100, 12, 8, 1, 448, 0, 32⟩,
   ⟨.lnkRepair, .CD, 0x800020, 0x100, 4, 8, 4, 0, 32, 1⟩,
   ⟨.lnkRepair, .PD, 0x800020, 0x100, 4, 8, 4, 256, 0, 1⟩,
   ⟨.lnkRepair, .PD, 0x800420, 0x100, 1, 8, 1, 260, 0, 1⟩,
   ⟨.lnkRepair, .MD, 0x800020, 0x100, 9, 8, 4, 288, 32, 1⟩,
   ⟨.lnkRepair, .MD, 0x800920, 0x100, 1, 8, 6, 297, 32, 1⟩,
   ⟨.lnkRepair, .HD, 0x800020, 0x100, 4, 8, 6, 416, 0, 1⟩,
   ⟨.lnkRepair, .HD, 0x800420, 0x100, 1, 8, 1, 420, 0, 1⟩,
   ⟨.lnkRepair, .HD, 0x800520, 0x100, 12, 8, 2, 421, 0, 1⟩,
   ⟨.lnkRepair, .HD, 0x8005A0, 0x100, 12, 8, 2, 448, 0, 32⟩,
   ⟨.pmuCtrl, .CD, 0xB00000, 0x100, 64, 8, 1, 0, 64, 1⟩,
   ⟨.pmuCtrl, .PD, 0x130000, 0x100, 64, 8, 1, 512, 0, 1⟩,
   ⟨.pmuCtrl, .MD, 0x500000, 8, 1, 8, 1, 576, 1, 1⟩,
   ⟨.pmuCtrl, .HD, 0xB00000, 8, 1, 8, 1, 580, 0, 1⟩,
   ⟨.pmuEvsel, .CD, 0xB00008, 0x100, 64, 8, 8, 0, 64, 1⟩,
   ⟨.pmuEvsel, .PD, 0x130008, 0x100, 64, 8, 8, 512, 0, 1⟩,
   ⟨.pmuEvsel, .MD, 0x500008, 0x40, 1, 8, 8, 576, 1, 1⟩,
   ⟨.pmuEvsel, .HD, 0xB00008, 0x40, 1, 8, 8, 580, 0, 1⟩,
   ⟨.pmuPmc, .CD, 0xB00048, 0x100, 64, 8, 8, 0, 64, 1⟩,
   ⟨.pmuPmc, .PD, 0x130048, 0x100, 64, 8, 8, 512, 0, 1⟩,
   ⟨.pmuPmc, .MD, 0x500048, 0x40, 1, 8, 8, 576, 1, 1⟩,
   ⟨.pmuPmc, .HD, 0xB00048, 0x40, 1, 8, 8, 580, 0, 1⟩,
   ⟨.pmuFixed, .CD, 0xB00088, 0x100, 64, 8, 6, 0, 64, 1⟩,
   ⟨.pmuFixed, .PD, 0x130088, 0x100, 64, 8, 6, 512, 0, 1⟩,
   ⟨.pmuFixed, .MD, 0x500088, 0x30, 1, 8, 6, 576, 1, 1⟩,
   ⟨.pmuFixed, .HD, 0xB00088, 0x30, 1, 8, 6, 580, 0, 1⟩]

def regRows2 : List RegRow :=
  [⟨.pmuTag, .CD, 0xB000C0, 0x100, 64, 8, 1, 0, 64, 1⟩,
   ⟨.pmuTag, .PD, 0x1300C0, 0x100, 64, 8, 1, 512, 0, 1⟩,
   ⟨.pdCacheStatus, .PD, 0x100000, 8, 1, 8, 1, 0, 0, 1⟩,
   ⟨.serrStatus, .PD, 0x110000, 0x20, 64, 8, 1, 0, 0, 1⟩,
   ⟨.serrAddr, .PD, 0x110008, 0x20, 64, 8, 1, 0, 0, 1⟩,
   ⟨.serrPc, .PD, 0x110010, 0x20, 64, 8, 1, 0, 0, 1⟩,
   ⟨.dqint, .PD, 0x120000, 0x10, 64, 8, 1, 0, 0, 1⟩,
   ⟨.pmuUserEn, .PD, 0x140000, 8, 1, 8, 1, 0, 0, 1⟩,
   ⟨.memSplit, .MD, 0x0, 8, 1, 8, 1, 0, 1, 1⟩,
   ⟨.memStatus, .MD, 0x8, 8, 1, 8, 1, 0, 1, 1⟩,
   ⟨.memUeAddr, .MD, 0x10, 8, 1, 8, 1, 0, 1, 1⟩,
   ⟨.scrubCtrl, .MD, 0x18, 8, 1, 8, 1, 0, 1, 1⟩,
   ⟨.mscCtrl, .MD, 0x20, 8, 1, 8, 1, 0, 1, 1⟩,
   ⟨.mscHit, .MD, 0x28, 8, 1, 8, 1, 0, 1, 1⟩,
   ⟨.mscMiss, .MD, 0x30, 8, 1, 8, 1, 0, 1, 1⟩,
   ⟨.hbmStatus, .MD, 0x100000, 0x1000, 2, 8, 1, 0, 2, 1⟩,
   ⟨.hbmRepair, .MD, 0x100100, 0x1000, 2, 8, 64, 0, 2, 1⟩,
   ⟨.lpStatus, .MD, 0x200000, 0x1000, 4, 8, 1, 0, 4, 1⟩,
   ⟨.seqStatus, .MD, 0x300000, 8, 1, 8, 1, 0, 1, 1⟩,
   ⟨.seqBtcCtrl, .MD, 0x300008, 8, 1, 8, 1, 0, 1, 1⟩,
   ⟨.seqBtcHit, .MD, 0x300010, 8, 1, 8, 1, 0, 1, 1⟩,
   ⟨.seqBtcMiss, .MD, 0x300018, 8, 1, 8, 1, 0, 1, 1⟩,
   ⟨.seqPoisonAddr, .MD, 0x300020, 8, 1, 8, 1, 0, 1, 1⟩,
   ⟨.seqCptRate, .MD, 0x300028, 8, 1, 8, 1, 0, 1, 1⟩,
   ⟨.cohCtrl, .MD, 0x400000, 8, 1, 8, 1, 0, 1, 1⟩,
   ⟨.cohStatus, .MD, 0x400008, 8, 1, 8, 1, 0, 1, 1⟩,
   ⟨.cohLost0, .MD, 0x400010, 8, 1, 8, 1, 0, 1, 1⟩,
   ⟨.cohLost1, .MD, 0x400018, 8, 1, 8, 1, 0, 1, 1⟩,
   ⟨.cohToAddr, .MD, 0x400020, 8, 1, 8, 1, 0, 1, 1⟩,
   ⟨.sfStatus, .MD, 0x400028, 8, 1, 8, 1, 0, 1, 1⟩]

def regRows3 : List RegRow :=
  [⟨.mbCmd, .HD, 0x0, 0x4000, 8, 8, 8, 0, 0, 1⟩,
   ⟨.mbRsp, .HD, 0x40, 0x4000, 8, 8, 8, 0, 0, 1⟩,
   ⟨.mbDoorbell, .HD, 0x80, 0x4000, 8, 8, 1, 0, 0, 1⟩,
   ⟨.mbStatus, .HD, 0x88, 0x4000, 8, 8, 1, 0, 0, 1⟩,
   ⟨.mbCtrl, .HD, 0x90, 0x4000, 8, 8, 1, 0, 0, 1⟩,
   ⟨.cpStatus, .HD, 0x40000, 8, 1, 8, 1, 0, 0, 1⟩,
   ⟨.evrWidx, .HD, 0x40040, 0x40, 3, 8, 1, 0, 0, 1⟩,
   ⟨.evrRidx, .HD, 0x40048, 0x40, 3, 8, 1, 0, 0, 1⟩,
   ⟨.evrStatus, .HD, 0x40050, 0x40, 3, 8, 1, 0, 0, 1⟩,
   ⟨.ordCtrl, .HD, 0x700000, 8, 1, 8, 1, 0, 0, 1⟩,
   ⟨.ordStatus, .HD, 0x700008, 8, 1, 8, 1, 0, 0, 1⟩,
   ⟨.fwStatus, .HD, 0x900000, 8, 1, 8, 1, 0, 0, 1⟩,
   ⟨.fwLog, .HD, 0x900008, 8, 1, 8, 1, 0, 0, 1⟩,
   ⟨.fabCtrl, .HD, 0xA00000, 8, 1, 8, 1, 0, 0, 1⟩,
   ⟨.fabId, .HD, 0xA00008, 8, 1, 8, 1, 0, 0, 1⟩,
   ⟨.fabRtStatus, .HD, 0xA00010, 8, 1, 8, 1, 0, 0, 1⟩,
   ⟨.fabRtAt, .HD, 0xA00018, 8, 1, 8, 1, 0, 0, 1⟩,
   ⟨.fabTime, .HD, 0xA00020, 8, 1, 8, 1, 0, 0, 1⟩,
   ⟨.fabTimeStatus, .HD, 0xA00028, 8, 1, 8, 1, 0, 0, 1⟩,
   ⟨.fabTimeCfg, .HD, 0xA00030, 8, 1, 8, 1, 0, 0, 1⟩,
   ⟨.fabStatus, .HD, 0xA00038, 8, 1, 8, 1, 0, 0, 1⟩,
   ⟨.fabPortStatus, .HD, 0xA10000, 0x40, 48, 8, 1, 0, 0, 1⟩,
   ⟨.fabPortErr, .HD, 0xA10008, 0x40, 48, 8, 1, 0, 0, 1⟩,
   ⟨.cgDoorbell, .HD, 0x2000000, 0x10, 4096, 8, 1, 0, 0, 1⟩,
   ⟨.wsCtrl, .HD, 0xC00000, 8, 1, 8, 1, 0, 0, 1⟩,
   ⟨.wsThresh, .HD, 0xC00008, 8, 1, 8, 1, 0, 0, 1⟩,
   ⟨.wsStatus, .HD, 0xC00010, 8, 1, 8, 1, 0, 0, 1⟩,
   ⟨.wsSnapTime, .HD, 0xC00018, 8, 1, 8, 1, 0, 0, 1⟩,
   ⟨.wsIn, .HD, 0xC00020, 8, 12, 8, 1, 0, 0, 1⟩,
   ⟨.pwrStatus, .HD, 0xD00000, 8, 1, 8, 1, 0, 0, 1⟩]

def regRows4 : List RegRow :=
  [⟨.pwrInput, .HD, 0xD00008, 8, 1, 8, 1, 0, 0, 1⟩,
   ⟨.pwrLimits, .HD, 0xD00010, 8, 1, 8, 1, 0, 0, 1⟩,
   ⟨.pwrThrottle, .HD, 0xD00018, 8, 1, 8, 1, 0, 0, 1⟩,
   ⟨.pwrPdfreq, .HD, 0xD00020, 8, 1, 8, 1, 0, 0, 1⟩,
   ⟨.pwrSupply, .HD, 0xD00028, 8, 1, 8, 1, 0, 0, 1⟩,
   ⟨.pwrTherm, .HD, 0xD00030, 8, 1, 8, 1, 0, 0, 1⟩,
   ⟨.pciId, .HD, 0xE00000, 0x100, 2, 8, 1, 0, 0, 1⟩,
   ⟨.pciPortCtrl, .HD, 0xE00008, 0x100, 2, 8, 1, 0, 0, 1⟩,
   ⟨.pciPortStatus, .HD, 0xE00010, 0x100, 2, 8, 1, 0, 0, 1⟩,
   ⟨.secStatus, .HD, 0xF00000, 8, 1, 8, 1, 0, 0, 1⟩,
   ⟨.dctrl, .HD, 0xB10000, 8, 1, 8, 1, 0, 0, 1⟩,
   ⟨.dbase, .HD, 0xB10008, 8, 1, 8, 1, 0, 0, 1⟩,
   ⟨.dwidx, .HD, 0xB10010, 8, 1, 8, 1, 0, 0, 1⟩,
   ⟨.dridx, .HD, 0xB10018, 8, 1, 8, 1, 0, 0, 1⟩,
   ⟨.dsel, .HD, 0xB10020, 0x50, 1, 8, 10, 0, 0, 1⟩,
   ⟨.dstatus, .HD, 0xB10070, 8, 1, 8, 1, 0, 0, 1⟩,
   ⟨.sbase, .HD, 0xB10080, 8, 1, 8, 1, 0, 0, 1⟩,
   ⟨.swidx, .HD, 0xB10088, 8, 1, 8, 1, 0, 0, 1⟩,
   ⟨.sridx, .HD, 0xB10090, 8, 1, 8, 1, 0, 0, 1⟩,
   ⟨.sstatus, .HD, 0xB10098, 8, 1, 8, 1, 0, 0, 1⟩,
   ⟨.monCtrl, .HD, 0xB20000, 0x100, 16, 8, 1, 0, 0, 1⟩,
   ⟨.monRange, .HD, 0xB20008, 0x100, 16, 8, 1, 0, 0, 1⟩,
   ⟨.monBin, .HD, 0xB20010, 0x100, 16, 8, 8, 0, 0, 1⟩,
   ⟨.dqDoorbell, .DQ, 0x0, 0x4000, 1024, 8, 1, 0, 0, 1⟩,
   ⟨.dqRidx, .DQ, 0x8, 0x4000, 1024, 8, 1, 0, 0, 1⟩,
   ⟨.dqStatus, .DQ, 0x10, 0x4000, 1024, 8, 1, 0, 0, 1⟩]

def regRows : List RegRow := regRows0 ++ regRows1 ++ regRows2 ++ regRows3 ++ regRows4

/-- Fields of a register, by its table. -/
def regFields : RegKind → List Fld
  | .mxFuse => [⟨0, 32, .ro⟩]
  | .mxSeed => [⟨0, 64, .rw⟩]
  | .mxStatus => [⟨0, 1, .w1c⟩, ⟨8, 8, .rc⟩]
  | .mxBind => [⟨0, 1, .ro⟩, ⟨1, 3, .ro⟩]
  | .tsChCtrl => [⟨0, 7, .rw⟩, ⟨8, 16, .rw⟩]
  | .tsChStatus => [⟨0, 2, .ro⟩, ⟨2, 1, .w1c⟩, ⟨3, 1, .w1c⟩, ⟨4, 1, .w1c⟩, ⟨8, 8, .ro⟩, ⟨16, 16, .ro⟩]
  | .tsChPc => [⟨0, 64, .ro⟩]
  | .tsChCount => [⟨0, 32, .ro⟩, ⟨32, 32, .ro⟩]
  | .tsCfg => [⟨0, 20, .rw⟩, ⟨20, 1, .w1c⟩, ⟨32, 16, .ro⟩]
  | .ccMask0 => [⟨0, 16, .rw⟩, ⟨16, 16, .rw⟩, ⟨32, 16, .rw⟩, ⟨48, 16, .rw⟩]
  | .ccMask1 => [⟨0, 16, .rw⟩, ⟨16, 16, .rw⟩, ⟨32, 16, .rw⟩, ⟨48, 16, .rw⟩]
  | .ccStatus => [⟨0, 1, .w1c⟩, ⟨1, 1, .w1c⟩, ⟨8, 8, .rc⟩, ⟨16, 6, .ro⟩]
  | .ccCtrl => [⟨0, 1, .wo⟩]
  | .xltAst => [⟨0, 1, .rw⟩, ⟨19, 37, .rw⟩]
  | .fqBase => [⟨0, 1, .rw⟩, ⟨16, 40, .rw⟩]
  | .fqWidx => [⟨0, 64, .ro⟩]
  | .fqRidx => [⟨0, 64, .rw⟩]
  | .fqResp => [⟨0, 32, .wo⟩, ⟨32, 2, .wo⟩]
  | .fqDeadline => [⟨0, 20, .rw⟩]
  | .fqStatus => [⟨0, 1, .ro⟩, ⟨1, 1, .w1c⟩, ⟨2, 1, .w1c⟩, ⟨8, 8, .rc⟩, ⟨16, 16, .ro⟩, ⟨32, 32, .rc⟩]
  | .lnkCtrl => [⟨0, 3, .rw⟩, ⟨3, 1, .wo⟩]
  | .lnkStatus => [⟨0, 2, .ro⟩, ⟨2, 3, .ro⟩, ⟨5, 1, .ro⟩, ⟨6, 1, .w1c⟩, ⟨8, 8, .ro⟩, ⟨16, 6, .ro⟩, ⟨22, 6, .ro⟩]
  | .lnkErr => [⟨0, 16, .rc⟩, ⟨16, 16, .rc⟩, ⟨32, 8, .rc⟩]
  | .lnkRepair => [⟨0, 7, .ro⟩, ⟨8, 7, .ro⟩, ⟨16, 7, .ro⟩, ⟨24, 7, .ro⟩, ⟨31, 1, .ro⟩]
  | .pmuCtrl => [⟨0, 1, .rw⟩, ⟨1, 1, .w1c⟩]
  | .pmuEvsel => [⟨0, 12, .rw⟩, ⟨12, 3, .rw⟩]
  | .pmuPmc => [⟨0, 64, .rw⟩]
  | .pmuFixed => [⟨0, 64, .rw⟩]
  | .pmuTag => [⟨0, 1, .rw⟩, ⟨1, 5, .rw⟩, ⟨6, 24, .rw⟩]
  | .pdCacheStatus => [⟨0, 1, .w1c⟩, ⟨8, 8, .rc⟩]
  | .serrStatus => [⟨0, 1, .w1c⟩, ⟨1, 1, .w1c⟩, ⟨2, 2, .ro⟩]
  | .serrAddr => [⟨0, 56, .ro⟩]
  | .serrPc => [⟨0, 64, .ro⟩]
  | .dqint => [⟨0, 1, .w1c⟩]
  | .pmuUserEn => [⟨0, 1, .rw⟩, ⟨1, 1, .rw⟩]
  | .memSplit => [⟨0, 6, .ro⟩, ⟨8, 7, .ro⟩]
  | .memStatus => [⟨0, 2, .ro⟩, ⟨2, 4, .ro⟩, ⟨8, 1, .w1c⟩, ⟨9, 1, .w1c⟩, ⟨16, 16, .rc⟩]
  | .memUeAddr => [⟨7, 49, .ro⟩]
  | .scrubCtrl => [⟨0, 1, .rw⟩, ⟨8, 10, .rw⟩]
  | .mscCtrl => [⟨0, 4, .rw⟩, ⟨8, 1, .wo⟩, ⟨9, 1, .wo⟩]
  | .mscHit => [⟨0, 64, .rc⟩]
  | .mscMiss => [⟨0, 64, .rc⟩]
  | .hbmStatus => [⟨0, 1, .ro⟩, ⟨1, 1, .ro⟩, ⟨2, 1, .ro⟩, ⟨3, 1, .ro⟩, ⟨8, 8, .ro⟩, ⟨16, 8, .ro⟩]
  | .hbmRepair => [⟨0, 6, .ro⟩, ⟨6, 1, .ro⟩, ⟨8, 6, .ro⟩, ⟨14, 1, .ro⟩, ⟨15, 1, .ro⟩, ⟨16, 6, .ro⟩]
  | .lpStatus => [⟨0, 1, .ro⟩, ⟨1, 1, .ro⟩, ⟨2, 1, .ro⟩, ⟨3, 1, .ro⟩, ⟨8, 8, .ro⟩]
  | .seqStatus => [⟨0, 17, .ro⟩, ⟨24, 1, .w1c⟩, ⟨25, 1, .w1c⟩]
  | .seqBtcCtrl => [⟨0, 1, .wo⟩]
  | .seqBtcHit => [⟨0, 64, .rc⟩]
  | .seqBtcMiss => [⟨0, 64, .rc⟩]
  | .seqPoisonAddr => [⟨0, 56, .ro⟩]
  | .seqCptRate => [⟨0, 8, .rw⟩]
  | .cohCtrl => [⟨0, 10, .rw⟩]
  | .cohStatus => [⟨0, 1, .w1c⟩, ⟨1, 1, .w1c⟩, ⟨8, 8, .rc⟩, ⟨16, 16, .rc⟩, ⟨32, 16, .rc⟩]
  | .cohLost0 => [⟨0, 64, .ro⟩]
  | .cohLost1 => [⟨0, 1, .ro⟩, ⟨1, 1, .ro⟩]
  | .cohToAddr => [⟨7, 49, .ro⟩]
  | .sfStatus => [⟨0, 22, .ro⟩, ⟨32, 32, .rc⟩]
  | .mbCmd => [⟨0, 64, .rw⟩]
  | .mbRsp => [⟨0, 64, .ro⟩]
  | .mbDoorbell => [⟨0, 1, .wo⟩]
  | .mbStatus => [⟨0, 16, .ro⟩, ⟨16, 8, .ro⟩, ⟨24, 1, .ro⟩, ⟨25, 1, .w1c⟩, ⟨26, 1, .w1c⟩, ⟨27, 1, .w1c⟩]
  | .mbCtrl => [⟨0, 14, .rw⟩, ⟨14, 1, .rw⟩, ⟨15, 1, .rw⟩]
  | .cpStatus => [⟨0, 1, .ro⟩, ⟨1, 1, .ro⟩, ⟨8, 8, .rc⟩, ⟨16, 32, .ro⟩]
  | .evrWidx => [⟨0, 32, .ro⟩]
  | .evrRidx => [⟨0, 32, .rw⟩]
  | .evrStatus => [⟨0, 1, .ro⟩, ⟨1, 1, .w1c⟩, ⟨16, 16, .rc⟩]
  | .ordCtrl => [⟨0, 10, .rw⟩]
  | .ordStatus => [⟨0, 1, .w1c⟩, ⟨8, 16, .rc⟩, ⟨24, 16, .rc⟩]
  | .fwStatus => [⟨0, 1, .ro⟩, ⟨1, 1, .ro⟩, ⟨2, 1, .ro⟩, ⟨8, 16, .ro⟩, ⟨24, 16, .rc⟩]
  | .fwLog => [⟨0, 56, .ro⟩, ⟨56, 3, .ro⟩]
  | .fabCtrl => [⟨0, 1, .rw⟩, ⟨1, 10, .rw⟩, ⟨16, 8, .rw⟩, ⟨32, 20, .rw⟩]
  | .fabId => [⟨0, 14, .ro⟩, ⟨14, 1, .ro⟩, ⟨16, 9, .ro⟩, ⟨25, 5, .ro⟩, ⟨30, 1, .ro⟩]
  | .fabRtStatus => [⟨0, 1, .ro⟩, ⟨1, 1, .ro⟩, ⟨2, 1, .ro⟩, ⟨3, 1, .ro⟩, ⟨16, 16, .rc⟩]
  | .fabRtAt => [⟨0, 64, .ro⟩]
  | .fabTime => [⟨0, 64, .ro⟩]
  | .fabTimeStatus => [⟨0, 2, .ro⟩, ⟨2, 1, .ro⟩, ⟨8, 3, .ro⟩, ⟨16, 6, .ro⟩, ⟨32, 32, .ro⟩]
  | .fabTimeCfg => [⟨0, 8, .rw⟩]
  | .fabStatus => [⟨0, 1, .w1c⟩, ⟨8, 16, .rc⟩, ⟨24, 16, .rc⟩, ⟨40, 14, .ro⟩]
  | .fabPortStatus => [⟨0, 3, .ro⟩, ⟨3, 2, .ro⟩, ⟨5, 2, .ro⟩, ⟨7, 1, .ro⟩, ⟨8, 9, .ro⟩, ⟨17, 5, .ro⟩, ⟨22, 1, .ro⟩, ⟨32, 4, .ro⟩]
  | .fabPortErr => [⟨0, 16, .rc⟩, ⟨16, 16, .rc⟩, ⟨32, 8, .rc⟩]
  | .cgDoorbell => [⟨0, 64, .rw⟩]
  | .wsCtrl => [⟨0, 1, .rw⟩, ⟨8, 8, .rw⟩, ⟨16, 11, .rw⟩]
  | .wsThresh => [⟨0, 16, .rw⟩, ⟨16, 16, .rw⟩, ⟨32, 16, .rw⟩]
  | .wsStatus => [⟨0, 16, .ro⟩, ⟨16, 2, .ro⟩, ⟨18, 1, .ro⟩, ⟨19, 1, .w1c⟩, ⟨20, 1, .ro⟩, ⟨24, 17, .ro⟩]
  | .wsSnapTime => [⟨0, 64, .ro⟩]
  | .wsIn => [⟨0, 16, .rw⟩, ⟨16, 16, .rw⟩, ⟨32, 16, .ro⟩]
  | .pwrStatus => [⟨0, 3, .ro⟩, ⟨3, 1, .ro⟩, ⟨4, 1, .ro⟩, ⟨5, 1, .ro⟩, ⟨6, 1, .ro⟩, ⟨8, 5, .ro⟩, ⟨13, 1, .ro⟩, ⟨14, 1, .ro⟩]
  | .pwrInput => [⟨0, 16, .ro⟩, ⟨16, 16, .ro⟩, ⟨32, 12, .ro⟩]
  | .pwrLimits => [⟨0, 8, .ro⟩, ⟨16, 12, .ro⟩, ⟨32, 12, .ro⟩, ⟨44, 1, .ro⟩]
  | .pwrThrottle => [⟨0, 6, .ro⟩, ⟨8, 6, .ro⟩, ⟨16, 6, .ro⟩, ⟨24, 6, .ro⟩, ⟨32, 6, .ro⟩, ⟨40, 6, .ro⟩, ⟨48, 6, .ro⟩, ⟨56, 6, .ro⟩]
  | .pwrPdfreq => [⟨0, 6, .ro⟩]
  | .pwrSupply => [⟨0, 16, .rc⟩, ⟨16, 16, .rc⟩, ⟨32, 32, .rc⟩]
  | .pwrTherm => [⟨0, 16, .ro⟩, ⟨16, 8, .ro⟩, ⟨24, 8, .rc⟩]
  | .pciId => [⟨0, 16, .ro⟩, ⟨16, 16, .ro⟩]
  | .pciPortCtrl => [⟨0, 1, .rw⟩, ⟨1, 20, .rw⟩]
  | .pciPortStatus => [⟨0, 1, .ro⟩, ⟨1, 1, .ro⟩, ⟨2, 3, .ro⟩, ⟨5, 4, .ro⟩, ⟨9, 1, .ro⟩, ⟨10, 1, .ro⟩, ⟨11, 1, .w1c⟩, ⟨12, 1, .w1c⟩, ⟨13, 1, .w1c⟩, ⟨16, 16, .rc⟩]
  | .secStatus => [⟨0, 1, .ro⟩, ⟨1, 1, .ro⟩, ⟨8, 13, .ro⟩, ⟨21, 6, .ro⟩, ⟨27, 6, .ro⟩]
  | .dctrl => [⟨0, 1, .rw⟩, ⟨1, 1, .rw⟩, ⟨2, 20, .rw⟩]
  | .dbase => [⟨0, 5, .rw⟩, ⟨7, 49, .rw⟩]
  | .dwidx => [⟨0, 64, .ro⟩]
  | .dridx => [⟨0, 64, .rw⟩]
  | .dsel => [⟨0, 64, .rw⟩]
  | .dstatus => [⟨0, 1, .w1c⟩, ⟨1, 1, .ro⟩, ⟨16, 16, .rc⟩, ⟨32, 16, .rc⟩]
  | .sbase => [⟨0, 5, .rw⟩, ⟨6, 50, .rw⟩]
  | .swidx => [⟨0, 64, .ro⟩]
  | .sridx => [⟨0, 64, .rw⟩]
  | .sstatus => [⟨0, 32, .rc⟩]
  | .monCtrl => [⟨0, 1, .rw⟩, ⟨1, 1, .wo⟩]
  | .monRange => [⟨0, 32, .ro⟩, ⟨32, 32, .ro⟩]
  | .monBin => [⟨0, 32, .ro⟩, ⟨32, 32, .ro⟩]
  | .dqDoorbell => [⟨0, 64, .rw⟩]
  | .dqRidx => [⟨0, 64, .ro⟩]
  | .dqStatus => [⟨0, 1, .ro⟩, ⟨1, 1, .w1c⟩, ⟨2, 1, .ro⟩]

/-- Reset domain of a register. -/
def regDom : RegKind → RegDom
  | .mxFuse => .die
  | .mxSeed => .die
  | .mxStatus => .die
  | .mxBind => .die
  | .tsChCtrl => .die
  | .tsChStatus => .die
  | .tsChPc => .die
  | .tsChCount => .die
  | .tsCfg => .die
  | .ccMask0 => .die
  | .ccMask1 => .die
  | .ccStatus => .die
  | .ccCtrl => .die
  | .xltAst => .die
  | .fqBase => .die
  | .fqWidx => .die
  | .fqRidx => .die
  | .fqResp => .die
  | .fqDeadline => .die
  | .fqStatus => .die
  | .lnkCtrl => .cold
  | .lnkStatus => .cold
  | .lnkErr => .cold
  | .lnkRepair => .cold
  | .pmuCtrl => .own
  | .pmuEvsel => .own
  | .pmuPmc => .own
  | .pmuFixed => .own
  | .pmuTag => .own
  | .pdCacheStatus => .warm
  | .serrStatus => .warm
  | .serrAddr => .warm
  | .serrPc => .warm
  | .dqint => .warm
  | .pmuUserEn => .warm
  | .memSplit => .warm
  | .memStatus => .warm
  | .memUeAddr => .warm
  | .scrubCtrl => .warm
  | .mscCtrl => .warm
  | .mscHit => .warm
  | .mscMiss => .warm
  | .hbmStatus => .warm
  | .hbmRepair => .cold
  | .lpStatus => .warm
  | .seqStatus => .warm
  | .seqBtcCtrl => .warm
  | .seqBtcHit => .warm
  | .seqBtcMiss => .warm
  | .seqPoisonAddr => .warm
  | .seqCptRate => .warm
  | .cohCtrl => .warm
  | .cohStatus => .warm
  | .cohLost0 => .warm
  | .cohLost1 => .warm
  | .cohToAddr => .warm
  | .sfStatus => .warm
  | .mbCmd => .cold
  | .mbRsp => .cold
  | .mbDoorbell => .cold
  | .mbStatus => .cold
  | .mbCtrl => .cold
  | .cpStatus => .cold
  | .evrWidx => .cold
  | .evrRidx => .cold
  | .evrStatus => .cold
  | .ordCtrl => .cold
  | .ordStatus => .cold
  | .fwStatus => .cold
  | .fwLog => .cold
  | .fabCtrl => .cold
  | .fabId => .cold
  | .fabRtStatus => .cold
  | .fabRtAt => .cold
  | .fabTime => .cold
  | .fabTimeStatus => .cold
  | .fabTimeCfg => .cold
  | .fabStatus => .cold
  | .fabPortStatus => .cold
  | .fabPortErr => .cold
  | .cgDoorbell => .cold
  | .wsCtrl => .cold
  | .wsThresh => .cold
  | .wsStatus => .cold
  | .wsSnapTime => .cold
  | .wsIn => .cold
  | .pwrStatus => .cold
  | .pwrInput => .cold
  | .pwrLimits => .cold
  | .pwrThrottle => .cold
  | .pwrPdfreq => .cold
  | .pwrSupply => .cold
  | .pwrTherm => .cold
  | .pciId => .cold
  | .pciPortCtrl => .cold
  | .pciPortStatus => .cold
  | .secStatus => .cold
  | .dctrl => .cold
  | .dbase => .cold
  | .dwidx => .cold
  | .dridx => .cold
  | .dsel => .cold
  | .dstatus => .cold
  | .sbase => .cold
  | .swidx => .cold
  | .sridx => .cold
  | .sstatus => .cold
  | .monCtrl => .cold
  | .monRange => .cold
  | .monBin => .cold
  | .dqDoorbell => .queue
  | .dqRidx => .queue
  | .dqStatus => .queue

/-- Weights of the Watershed inputs after reset (R311). -/
def wsWeight : Nat → Nat
  | 0 => 256 | 1 => 256 | 2 => 512 | 3 => 65535 | 4 => 16 | 5 => 64 | 6 => 65535 | 7 => 32 | 8 => 64
  | 9 => 4096 | 10 => 8192 | _ => 4096

/-- Lane groups of a link end, numbered die * 32 + port as SYS_RESET kind 3 does (R258, R336); an optical engine's end
is die 14 + k, port 0. -/
def linkGroups (e : Nat) : Nat :=
  let d := e / 32
  let p := e % 32
  if d < 8 then 4 else if d = 8 then (if p = 4 then 1 else 4) else if d < 13 then (if p = 9 then 6 else 4)
  else if d = 13 then (if p < 4 then 6 else if p = 4 then 1 else 2) else 2

/-- Two skipped rows or columns as the test fuses hold them (R109): places 0 to 65, each with its valid bit, and the second
beyond the first where both are valid. -/
def skipFuse (w : Nat) : Nat :=
  let a := w % 128
  let b := (w / 256) % 128
  let va := (w / 128) % 2
  let vb := w / 32768
  let a1 := if va = 1 ∧ vb = 1 then a % 65 else a % 66
  let b1 := if va = 1 ∧ vb = 1 then a1 + 1 + b % (65 - a1) else b % 66
  a1 + 128 * va + 256 * b1 + 32768 * vb

/-- Value after reset of register i, element j. HW fields read as after module cold reset before training (0, or
the fuse of Config). -/
def regReset (k : RegKind) (i _j : Nat) : Word :=
  match k with
  | .mxFuse => BitVec.ofNat 64 (let w := (Config.mxFuse i).toNat; skipFuse (w % 2 ^ 16) + skipFuse (w / 2 ^ 16) * 2 ^ 16)
  | .mxSeed => BitVec.ofNat 64 (i + 1)
  | .tsChCtrl => 0xC860
  | .tsCfg => 0x7D000000064
  | .ccMask0 => 0xFFFFFFFFFFFFFFFF
  | .ccMask1 => 0xFFFFFFFFFFFFFFFF
  | .fqDeadline => 0x186A0
  | .lnkCtrl => BitVec.ofNat 64 (linkGroups i)
  | .pmuEvsel => if i < 512 ∨ 576 ≤ i then 0 else 0x7000
  | .pmuTag => BitVec.ofNat 64 (12 * 2 + (i + 1) * 64)
  | .scrubCtrl => 0x1801
  | .mscCtrl => 0x8
  | .seqCptRate => 0xA
  | .cohCtrl => 0x14
  | .ordCtrl => 0x14
  | .fwStatus => BitVec.ofNat 64 Config.auxPresent.toNat
  | .fabCtrl => 0x64001000C8
  | .fabRtStatus => 0x8
  | .fabTimeStatus => 0x3F0700
  | .fabTimeCfg => 0x80
  | .fabPortStatus => BitVec.ofNat 64 ((if i < 23 then 0 else if i < 47 then 1 else 2) * 8)
  | .wsCtrl => 0x1E0501
  | .wsThresh => 0x300040002000
  | .wsIn => BitVec.ofNat 64 (wsWeight i + (Config.wsRef i).toNat * 65536)
  | .pwrStatus => 0x8
  | .pwrLimits => 0x14
  | .pwrPdfreq => 0x20
  | .pciId => BitVec.ofNat 64 (Config.pciVendor.toNat + 0x1408 * 65536)
  | .pciPortCtrl => 0xC9
  | .dctrl => 0xFA0
  | .dbase => 0xA
  | .sbase => 0xA
  | .monRange => 0xFFFFFFFF
  | .dqStatus => 0x1
  | .mxStatus | .mxBind | .tsChStatus | .tsChPc | .tsChCount | .ccStatus | .ccCtrl | .xltAst | .fqBase | .fqWidx | .fqRidx | .fqResp | .fqStatus | .lnkStatus | .lnkErr | .lnkRepair | .pmuCtrl | .pmuPmc | .pmuFixed | .pdCacheStatus | .serrStatus | .serrAddr | .serrPc | .dqint | .pmuUserEn | .memSplit | .memStatus | .memUeAddr | .mscHit | .mscMiss | .hbmStatus | .hbmRepair | .lpStatus | .seqStatus | .seqBtcCtrl | .seqBtcHit | .seqBtcMiss | .seqPoisonAddr | .cohStatus | .cohLost0 | .cohLost1 | .cohToAddr | .sfStatus | .mbCmd | .mbRsp | .mbDoorbell | .mbStatus | .mbCtrl | .cpStatus | .evrWidx | .evrRidx | .evrStatus | .ordStatus | .fwLog | .fabId | .fabRtAt | .fabTime | .fabStatus | .fabPortErr | .cgDoorbell | .wsStatus | .wsSnapTime | .pwrInput | .pwrThrottle | .pwrSupply | .pwrTherm | .pciPortStatus | .secStatus | .dwidx | .dridx | .dsel | .dstatus | .swidx | .sridx | .sstatus | .monCtrl | .monBin | .dqDoorbell | .dqRidx => 0

/-- Base of a unit's register block, and how many units the block has (R170). -/
def blkBase : Blk → Nat → Nat
  | .CD, d => 0xF00000000000 + d * 0x4000000
  | .PD, _ => 0xF00020000000
  | .MD, m => 0xF00024000000 + m * 0x4000000
  | .HD, _ => 0xF00034000000
  | .DQ, _ => 0xF00040000000

def blkUnits : Blk → Nat
  | .CD => 8 | .MD => 4 | _ => 1

/-- The block that holds an address of the MMIO region (R170). -/
def blkOf (a : Nat) : Option (Blk × Nat) :=
  if a < 0xF00000000000 then none
  else if a < 0xF00020000000 then some (.CD, (a - 0xF00000000000) / 0x4000000)
  else if a < 0xF00024000000 then some (.PD, 0)
  else if a < 0xF00034000000 then some (.MD, (a - 0xF00024000000) / 0x4000000)
  else if a < 0xF00038000000 then some (.HD, 0)
  else if 0xF00040000000 ≤ a ∧ a < 0xF00041000000 then some (.DQ, 0)
  else none

/-- The register that a row gives at an offset of its block. -/
def RegRow.at? (r : RegRow) (u off : Nat) : Option (RegKind × Nat × Nat) :=
  if off < r.off then none
  else
    let x := off - r.off
    let a := x / r.sa
    let y := x % r.sa
    let b := y / r.sb
    if a < r.na ∧ b < r.nb ∧ y % r.sb = 0 then some (r.kind, r.i0 + u * r.iu + a * r.ia, b) else none

/-- The register at an address, or none where no chapter assigns the offset (R170). -/
def regAt (addr : Nat) : Option (RegKind × Nat × Nat) :=
  match blkOf addr with
  | none => none
  | some (b, u) => regRows.findSome? (fun r => if r.blk = b then r.at? u (addr - blkBase b u) else none)

/-- The address of register i, element j of a row, where the row has it. -/
def RegRow.addr? (r : RegRow) (k : RegKind) (i j : Nat) : Option Nat :=
  if r.kind = k ∧ r.i0 ≤ i ∧ j < r.nb then
    let x := i - r.i0
    let u := if r.iu = 0 then 0 else x / r.iu
    let y := if r.iu = 0 then x else x % r.iu
    let a := y / r.ia
    if y % r.ia = 0 ∧ a < r.na ∧ u < blkUnits r.blk then
      some (blkBase r.blk u + r.off + a * r.sa + j * r.sb) else none
  else none

/-- The physical address of register i, element j. -/
def regAddr (k : RegKind) (i j : Nat) : Nat := (regRows.findSome? (fun r => r.addr? k i j)).getD 0

end Sys2Proof.Machine
end

