-- ==== Sys2Proof/Machine/State.lean ====
section
/-! DEFINITION. The state of the module: plain data, everything the manual names, and the reasons to stop. -/

namespace Sys2Proof.Machine

/-- Reasons a command stops the block. -/
inductive Fault where
  /-- POWER_UP, SURGE_START and SURGE_TIMEOUT with an input above 65 V: the absolute maximum, the module may be
  damaged and no behaviour is given (R352). Safe: the model stops where the manual gives no effect. -/
  | damaged
deriving DecidableEq, Repr

/-- Reasons a command has no meaning. -/
inductive Refusal where
  /-- The dispatch arm of a command without a meaning. Safe. -/
  | notModelled (mnemonic : String)
  /-- Raised by a command whose operands name a unit or a width that the module does not have (R9). Safe. -/
  | illFormed
  /-- Raised by an instruction command whose word is that of another row of the table. Safe. -/
  | wordsOfAnotherRow
deriving DecidableEq, Repr

/- Threads (02, Architectural state). -/

/-- Registers of one thread. A register that is not listed still holds its value at the start: zero on a processor
core after reset (log 2), a free value on a compute-die thread (`fill` is the stamp of the start, R19). Bit 0 of p
is not stored: p0 reads 1 (R17). -/
structure Thr where
  g : NMap Word := []
  f : NMap Word := []
  p : BitVec 8 := 0
  fpc : W32 := 0
  pc : Word := 0
  /-- Line of the LL reservation (R37). -/
  resv : Option Nat := none
  /-- Instructions since LL.D, whether they conform (R229), and SC.D executions since a spurious failure (R228). -/
  llLen : Nat := 0
  llOk : Bool := false
  scSince : Nat := 16
  fill : Option Nat := none
  lane : Nat := 0
deriving DecidableEq, Repr

/- Memory accesses in flight. -/

inductive CmpMem where
  /-- Cached line, non-caching access of local memory, MMIO, PCIe window, fabric-remote, nothing there (R167). -/
  | cached | nc | mmio | pcie | remote | unmapped
deriving DecidableEq, Repr

inductive AmoOp where
  | add | and | or | xor | swap | cas | min | max | minu | maxu | fadd
deriving DecidableEq, Repr

/-- What a pending instruction does with its data. -/
inductive PKind where
  | load (size : Nat) (signed fp : Bool)
  | amo (o : AmoOp) (wide : Bool)
  | ll | sc
  | cmo (k : CmoKind)
  /-- A fetch of an instruction word that no cache can hold (R169). -/
  | fetch
deriving DecidableEq, Repr

/-- One lane's part of an access: physical address (of both parts where the access crosses a page), operands of an
atomic and the old value it got. -/
structure LAcc where
  lane : Nat := 0
  va : Nat := 0
  pa : Nat := 0
  pa2 : Option Nat := none
  size : Nat := 0
  op1 : Nat := 0
  op2 : Nat := 0
  old : Nat := 0
  done : Bool := false
  /-- Level and TIER of the leaf that translated it (R251). -/
  leaf : Nat × Nat := (0, 0)
deriving DecidableEq, Repr

/-- A line request of an instruction (R66): 0 not sent, 1 sent, 2 answered; its hint (R182), and the lane that alone
makes it where the access is of device type (R226). -/
structure LineReq where
  line : Nat := 0
  mem : CmpMem := .cached
  hint : Nat := 1
  lane : Option Nat := none
  st : Nat := 0
  data : Line := 0
  poison : Bool := false
  err : Bool := false
deriving DecidableEq, Repr

/-- An instruction whose responses have not all arrived (R220). -/
structure PendOp where
  u : Agent
  kind : PKind
  rd : Nat := 0
  accs : List LAcc := []
  lines : List LineReq := []
  len : Nat := 4
  scope : Nat := 0
  cls : Nat := 0
  started : Nat := 0
  launch : Option Nat := none
  npc : Option Word := none
deriving DecidableEq, Repr

/-- A buffered store, one line each (R233). -/
structure SbE where
  u : Agent
  mem : CmpMem
  line : Nat := 0
  mask : LMask := 0
  data : Line := 0
  /-- The latest store that it holds: its addresses, instruction and level (R235). -/
  va : Nat := 0
  pa : Nat := 0
  pc : Word := 0
  lvl : Nat := 0
  leaf : Nat × Nat := (0, 0)
  hint : Nat := 0
  cls : Nat := 1
  /-- Of device type (R226, R227); and accepted by its home (R218). -/
  dev : Bool := false
  accepted : Bool := false
  sent : Bool := false
  launch : Option Nat := none
  orphan : Bool := false
  lane : Nat := 0
  /-- When it left, and the bound of its response in ns (R234, R240). -/
  since : Nat := 0
  bound : Nat := 0
  /-- The completion word of a packet (R78). -/
  word : Bool := false
deriving DecidableEq, Repr

/-- A barrier that waits on older stores (R236), and what its instruction does when they are complete: stores that
then enter the buffer, an access that then starts, an arrival at GBAR or TBAR, or only the next pc. -/
structure Barrier where
  sids : List Nat := []
  stores : List SbE := []
  op : Option PendOp := none
  arrive : Nat := 0
  /-- Channel whose post counter goes up; and a channel that starts: channel, program address, result register and active
  lanes (R137, R236). -/
  post : Option Nat := none
  start : Option (Nat × Nat × Nat × List Nat) := none
  adv : Nat := 0
  /-- Active lanes of the instruction. -/
  act : Nat := 0
  /-- Scope of a release, at which a store that its home has accepted may count (R218); 4 where stores must be complete. -/
  scope : Nat := 4
deriving DecidableEq, Repr

/-- A store error not yet reported to its issuer (R235). -/
structure SErr where
  va : Nat := 0
  pa : Nat := 0
  pc : Word := 0
  lvl : Nat := 0
  lane : Nat := 0
  leaf : Nat × Nat := (0, 0)
deriving DecidableEq, Repr

/-- A tagged instruction in flight (R399). -/
structure TagI where
  slot : Nat := 0
  pc : Word := 0
  va : Nat := 0
  iw : IWord := ⟨none, 0⟩
  lanes : Nat := 1
  mem : Bool := false
  tlb : Bool := false
  src : Nat := 0
deriving DecidableEq, Repr

/- Processor cores (02, Prieno-S). -/

structure PCore where
  thr : Thr := {}
  /-- sys.state, reset LVL = MPL = M (R44). -/
  state : Word := 0x202
  irqEn : Word := 0
  /-- Inter-core interrupt latch, bit 2 of sys.irq_pend (R51). -/
  ipi : Bool := false
  alarm : Word := 0
  tpcK : Word := 0
  whyK : Word := 0
  tinfoK : Word := 0
  entryK : Word := 0
  spareK : Word := 0
  tpcM : Word := 0
  whyM : Word := 0
  tinfoM : Word := 0
  entryM : Word := 0
  spareM : Word := 0
  ptroot : Word := 0
  asid : Word := 0
  route : Word := 0
  /-- End of an IDLE wait in fabric time (R47). -/
  idle : Option Nat := none
  barrier : Option Barrier := none
  op : Option Nat := none
  serr : List SErr := []
  halted : Bool := false
  /-- Not yet out of reset (R368, R382). -/
  held : Bool := true
  tagged : Option TagI := none
  /-- Lines fetched from memory that is never cached, for the instruction that is next: 0 good, 1 poisoned, 2 a bus error
  (R169). -/
  far : List (Nat × Nat) := []
deriving DecidableEq, Repr

/- Thread groups (03). -/

/-- Why a lane's path set is blocked (R59). -/
inductive LWait where
  | run | gbar | tbar | mat | hand | dbg
deriving DecidableEq, Repr

structure Lane where
  thr : Thr := {}
  exited : Bool := false
  wait : LWait := .run
  /-- Tile writes that TFENCE awaits (R137). -/
  await : Option (List Nat) := none
deriving DecidableEq, Repr

/-- Stationary fragment binding (R99): its registers, and the words of the fragment as they were loaded. -/
structure MBind where
  base : Nat := 0
  count : Nat := 0
  shape : Nat := 0
  fmt : Nat := 0
  words : List Word := []
deriving DecidableEq, Repr

structure Group where
  team : Nat := 0
  lid : Nat := 0
  /-- Index within the team. -/
  gi : Nat := 0
  width : Nat := 8
  gn : Nat := 8
  fn : Nat := 0
  lanes : List Lane := []
  /-- Path set that keeps executing after a yield (R60): its lanes. -/
  ycur : List Nat := []
  /-- Lanes that executed last and their consecutive taken backward branches. -/
  last : List Nat := []
  back : Nat := 0
  /-- Stalled in the fault queue (R250). -/
  stalled : Bool := false
  op : Option Nat := none
  barrier : Option Barrier := none
  /-- Lanes that a pending instruction or barrier works for. -/
  opLanes : List Nat := []
  serr : List SErr := []
  bind : Option MBind := none
  /-- MST rows already stored (R101). -/
  mstRow : Nat := 0
  tbar : Bool := false
  far : List (Nat × Nat) := []
  /-- Its launch has ended; it leaves when its instruction in flight is complete (R77). -/
  stop : Bool := false
  /-- Length of the DBGTRAP at which lanes stand (R26). -/
  dbgLen : Nat := 4
deriving DecidableEq, Repr

structure Team where
  lid : Nat := 0
  c : Nat := 0
  base : Nat := 0
  tiles : Nat := 0
  x : Nat := 0
  y : Nat := 0
  z : Nat := 0
  slots : List Nat := []
  live : List Nat := []
deriving DecidableEq, Repr

/-- A launch (R52, R72). -/
structure Launch where
  q : Nat := 0
  pkt : Nat := 0
  /-- Address space, interrupt core and fabric-remote permission of its queue (R337). -/
  asid : Nat := 0
  intcore : Nat := 0
  remote : Bool := false
  width : Nat := 8
  groups : Nat := 1
  gregs : Nat := 1
  fregs : Nat := 0
  tiles : Nat := 0
  diemask : Nat := 0
  tx : Nat := 1
  ty : Nat := 1
  tz : Nat := 1
  entry : Nat := 0
  args : Nat := 0
  compl : Nat := 0
  stackBase : Nat := 0
  stackBytes : Nat := 0
  rel : Nat := 0
  int : Bool := false
  barrier : Bool := false
  bar : Bool := false
  bad : Bool := false
  /-- Teams started, and teams resident now. -/
  started : Nat := 0
  live : Nat := 0
  ended : Bool := false
  faulted : Bool := false
  tier : Bool := false
  cancelled : Bool := false
  /-- Consumed: all teams started, or rejected (R68). -/
  consumed : Bool := false
  /-- The completion word is stalled or left (R78). -/
  wordStalled : Bool := false
  wordSkip : Bool := false
  t0 : Nat := 0
deriving DecidableEq, Repr

/-- A dispatch queue's parameters (R337); its indices and status are its page's registers (R69). -/
structure Queue where
  ring : Nat := 0
  ridxAddr : Nat := 0
  log2 : Nat := 6
  asid : Nat := 0
  prio : Nat := 0
  intcore : Nat := 0
  grace : Nat := 0
  qflags : Nat := 0
  /-- Launch whose teams are being started. -/
  cur : Option Nat := none
  drainEnd : Option Nat := none
  drainMb : Option Nat := none
  stopRidx : Nat := 0
  cancelled : Nat := 0
  rung : Nat := 0
  rr : Nat := 0
deriving DecidableEq, Repr

/- Tile store and streamer (06). -/

/-- A descriptor as read (R130). -/
structure Desc where
  addr : Nat := 0
  op : Nat := 0
  flags : Nat := 0
  count : Nat := 0
  slot : Nat := 0
  slotn : Nat := 0
  fmt : Nat := 0
  hint : Nat := 0
  adr : Nat := 0
  stride : Nat := 0
  istep : Nat := 0
  ostep : Nat := 0
  deadline : Nat := 0
  p0 : Nat := 0
  p1 : Nat := 0
  /-- Loop indices when it was decoded. -/
  i0 : Nat := 0
  i1 : Nat := 0
  /-- Tiles issued or used by this execution, and the tiles complete. -/
  k : Nat := 0
  done : Nat := 0
  started : Bool := false
  /-- The descriptor's counter when this execution was decoded. -/
  n0 : Nat := 0
  /-- Order of decoding within the program. -/
  ord : Nat := 0
deriving DecidableEq, Repr

structure Chan where
  team : Option Nat := none
  lid : Nat := 0
  /-- Address of the next descriptor, and of the last one decoded. -/
  pc : Nat := 0
  lastDesc : Nat := 0
  i0 : Nat := 0
  i1 : Nat := 0
  ord : Nat := 0
  /-- Descriptors of each queue that are not complete, in program order (R128). -/
  acc : List Desc := []
  exe : List Desc := []
  /-- Tiles moved or used by the descriptor at an address since the start (R130). -/
  cnt : NMap Nat := []
  /-- END decoded. -/
  ending : Bool := false
  /-- Halted on a malformed or unreadable descriptor (R136, R422), or cancelled (R142): the status to end with. -/
  halt : Option Nat := none
  cancel : Option Nat := none
  /-- Stalled in the fault queue: 1 a descriptor fetch, 2 a tile read, 3 a tile write. -/
  stall : List Nat := []
  /-- Engines that the program binds, in the order of decoding (R136). -/
  bound : List Nat := []
  /-- A descriptor fetch from beyond the package: asked for, and the line that came. -/
  fetching : Bool := false
  fetched : Option (Nat × Line) := none
deriving DecidableEq, Repr

/-- A tile read in flight (R129): its lines' state, poison that scale lines bring (R126), and whether it still waits
for its lookup. -/
structure TileRd where
  c : Nat := 0
  slot : Nat := 0
  ch : Nat := 0
  ord : Nat := 0
  lid : Nat := 0
  k : Nat := 0
  deadline : Nat := 0
  issued : Nat := 0
  nln : Nat := 64
  got : List Nat := []
  pz : BitVec 64 := 0
  look : Bool := false
deriving DecidableEq, Repr

/-- A tile write (R131): lines not yet accepted. -/
structure TileWr where
  c : Nat := 0
  slot : Nat := 0
  ch : Nat := 0
  ord : Nat := 0
  lid : Nat := 0
  k : Nat := 0
  free : Bool := false
  left : List Nat := []
  look : Bool := false
deriving DecidableEq, Repr

/-- A slot (R124-R126): state 0 EMPTY, 1 FILLING, 2 FULL; lines 0-63 and scale lines 64-67; parts written by DRAIN. -/
structure TSlot where
  st : Nat := 0
  data : NMap Line := []
  fill : Option Nat := none
  poison : BitVec 64 := 0
  part : Nat := 0
deriving DecidableEq, Repr

/-- Streamer and placement state of a compute-die core. -/
structure CoreS where
  disabled : Bool := false
  drainEnd : Option Nat := none
  drainMb : Option Nat := none
  halted : Bool := false
  chans : NMap Chan := []
  slots : NMap TSlot := []
  rdDone : Nat := 0
  rdSum : Nat := 0
  /-- The 8-line fetch buffer, latest line first: line, data, poison; it is not snooped (R197). -/
  ibuf : List (Nat × Line × Bool) := []
  tagged : Option TagI := none
deriving DecidableEq, Repr

/-- An engine operation in progress (R93, R94): its descriptor, its resources (0 array, 1 shadow copy, 2 output stage,
3 softmax state, 4 + b bank b), and the tile-store slots that it reads and writes. -/
structure EngOp where
  ch : Nat := 0
  d : Desc := {}
  res : List Nat := []
  startClk : Nat := 0
  endClk : Nat := 0
  src : List Nat := []
  dst : List Nat := []
  /-- Draws of its rows, and what a read of the seed gives while row i converts (R88). -/
  draws : List Word := []
  seeds : List Word := []
deriving DecidableEq, Repr

/-- An engine (04). Bank rows are keyed bank * 64 + row, 64 words of 32 bits each; a stationary copy holds 64 lines and
their scale lines as a slot does, and the format that it was loaded with. -/
structure Engine where
  banks : NMap (BitVec 2048) := []
  bankFill : Option Nat := none
  bankPoison : BitVec 256 := 0
  act : TSlot := {}
  shadow : TSlot := {}
  actFmt : Option Nat := none
  shFmt : Option Nat := none
  m : NMap W32 := []
  ls : NMap W32 := []
  pend : NMap W32 := []
  limit : NMap W32 := []
  smPoison : BitVec 64 := 0
  owner : Option Nat := none
  busy : List EngOp := []
deriving DecidableEq, Repr

/- Caches and homes (08, 09). -/

/-- Cache states (R204). -/
inductive CSt where
  | M | O | E | S | I | ISD | IMD | SMA | OMA | MIA | OIA | EIA | SIA | IIA
deriving DecidableEq, Repr

/-- The access that a grant completes. -/
inductive Cause where
  | none' | st (sid : Nat) | ld (tag : Nat)
deriving DecidableEq, Repr

structure CLine where
  st : CSt := .I
  data : Line := 0
  poison : Bool := false
  cause : Cause := .none'
  /-- A flush of the cache waits for this sector's transaction (R215). -/
  flush : Bool := false
  /-- Of PD: the processor cores whose caches hold a copy; none is listed where L3 alone holds it (R196). -/
  cores : List Nat := []
deriving DecidableEq, Repr

/-- A tag of a cluster cache (R198): its way and when it was used last. -/
structure CTag where
  way : Nat := 0
  age : Nat := 0
deriving DecidableEq, Repr

/-- A coherent agent's cache; tags are kept for cluster caches only. -/
structure Cache where
  lines : NMap CLine := []
  tags : NMap CTag := []
deriving DecidableEq, Repr

/-- Home states (09, The home); a line with no entry is in H_I. -/
inductive HSt where
  | HS | HX | HO
deriving DecidableEq, Repr

structure DirE where
  st : HSt := .HS
  owner : Nat := 0
  sharers : List Nat := []
  age : Nat := 0
deriving DecidableEq, Repr

inductive RqKind where
  | rds | rdx | upg | wbd | evc | rdnc | wrnc | atmh | cmo (k : CmoKind) | recall
deriving DecidableEq, Repr

/-- A request at a home (R202); `a` is the coherent agent that makes it, 66 where none does. -/
structure HReq where
  kind : RqKind
  a : Nat := 66
  w : Who := .ext 0
  line : Nat := 0
  hint : Nat := 1
  mask : LMask := 0
  data : Line := 0
  poison : Bool := false
  /-- One of the two lines of a burst (R230). -/
  burst : Bool := false
  /-- An atomic and its lanes (R35). -/
  amo : Option (AmoOp × Bool) := none
  accs : List LAcc := []
deriving DecidableEq, Repr

/-- Phases of R205; `pair` is a line of a burst that is ready and waits for the other one (R230). -/
inductive Phase where
  | snp | mem | ack | pair
deriving DecidableEq, Repr

/-- An open transaction (R205): the answers awaited, H and D of R207. -/
structure Txn where
  req : HReq
  phase : Phase
  await : List Nat := []
  h : List Nat := []
  d : Option (Line × Bool) := none
  od : Option Nat := none
  wasOwner : Option Nat := none
  /-- Line whose request waits for this recall (R209). -/
  resume : Option Nat := none
  /-- When the transaction started. -/
  since : Nat := 0
  /-- Memory's data, of a line that waits for the other line of its burst. -/
  mdata : Line × Bool := (0, false)
deriving DecidableEq, Repr

inductive SnpK where
  | s | x | i
deriving DecidableEq, Repr

/-- Messages sent and not arrived. -/
inductive Msg where
  | req (r : HReq)
  | snp (k : SnpK) (a line : Nat)
  | rsp (a line : Nat) (toI : Bool)
  | rspd (a line : Nat) (toI : Bool) (data : Line) (poison : Bool)
  | gnt (a line : Nat) (excl : Bool) (data : Line) (poison : Bool)
  | gntm (a line : Nat) (data : Line) (poison : Bool)
  | gntupg (a line : Nat)
  | gntwb (a line : Nat)
  | cmpack (a line : Nat)
  | dat (w : Who) (line : Nat) (data : Line) (poison : Bool)
  | load (tag line : Nat) (data : Line) (poison err : Bool)
  | stor (sid : Nat) (err : Bool)
deriving DecidableEq, Repr

/-- A line of the memory-side cache (R181). -/
structure MscLine where
  data : Line := 0
  poison : Bool := false
  dirty : Bool := false
  keep : Bool := false
  age : Nat := 0
deriving DecidableEq, Repr

/- Translation (11). -/

/-- A TLB entry: virtual page, its size in bits (a run is one entry, R246), frame and attributes. -/
structure TlbE where
  vpn : Nat := 0
  bits : Nat := 14
  asid : Nat := 0
  g : Bool := false
  frame : Nat := 0
  attr : Nat := 0
deriving DecidableEq, Repr

/-- A cached non-leaf entry: level, the index path as the address bits above it, ASID, next table (R248). -/
structure WalkE where
  level : Nat := 0
  path : Nat := 0
  asid : Nat := 0
  next : Nat := 0
deriving DecidableEq, Repr

/-- One TLB (most recent first) with its walker's cached non-leaf entries. -/
structure Tlb where
  es : List TlbE := []
  ws : List WalkE := []
deriving DecidableEq, Repr

/-- A package TLBI of a processor core (R47): 0 all, 1 an ASID, 2 an address of an ASID, 3 an address. Once it has
taken effect it lists the accesses that were in flight, which TLBSYNC waits for. -/
structure TlbiS where
  n : Nat := 0
  k : Nat := 0
  va : Nat := 0
  asid : Nat := 0
  took : Bool := false
  ops : List Nat := []
  sids : List Nat := []
  trds : List Nat := []
  twrs : List Nat := []
  /-- Units that hold translated accesses behind a barrier. -/
  units : List Agent := []
deriving DecidableEq, Repr

/-- A stalled requester of a fault queue (R250, R253). -/
structure Stall where
  r : Requester
  token : Option Nat := none
  deadline : Nat := 0
  since : Nat := 0
  va : Nat := 0
  upcall : Bool := false
  /-- Of a channel: 1 a descriptor fetch, 2 a tile read, 3 a tile write; of an UPCALL: the lanes that executed it. -/
  what : Nat := 0
  /-- Length of an UPCALL (R26). -/
  len : Nat := 4
  /-- The record it tries to write. -/
  record : List Byte := []
deriving DecidableEq, Repr

structure FqS where
  stalled : List Stall := []
  /-- TERMINAL records waiting (R254). -/
  hold : List (List Byte) := []
deriving DecidableEq, Repr

/- Sequence directory (07). -/

structure SeqRec where
  live : Bool := false
  seqid : Nat := 0
  length : Nat := 0
  layers : Nat := 0
  rowb : Nat := 0
  ver : Bool := false
  cpt : Bool := false
  mig : Bool := false
  asid : Nat := 0
  miglo : Nat := 0
  mign : Nat := 0
  root0 : Nat := 0
  root1 : Nat := 0
  /-- Relayout copier: shadow lines written, and when (R160). -/
  copied : Nat := 0
  copiedAt : Nat := 0
  /-- Migration (R159): the entries it moves, the entries of BLIST, and whether every copy has succeeded. -/
  olds : List Nat := []
  blist : List Nat := []
  migDone : Bool := false
deriving DecidableEq, Repr

/-- A lookup (R151) of a channel's descriptor: 0 sent, 1 resolved, 2 delivered; its result is 0 malformed, 1 failure,
2 zero lines, 3 the block at an address. -/
structure Lookup where
  n : Nat := 0
  c : Nat := 0
  ch : Nat := 0
  ord : Nat := 0
  write : Bool := false
  ctx : Nat := 0
  layer : Nat := 0
  blk : Nat := 0
  col : Nat := 0
  asid : Nat := 0
  st : Nat := 0
  res : Nat := 0
  addr : Nat := 0
  length : Nat := 0
  rowb : Nat := 0
deriving DecidableEq, Repr

/-- The event of a relayout or a migration, with the lookups that it waits for (R159, R162). -/
structure SeqEv where
  ctx : Nat := 0
  seqid : Nat := 0
  mig : Bool := false
  word : Nat := 0
  waits : List Nat := []
deriving DecidableEq, Repr

structure BtcLine where
  data : Line := 0
  age : Nat := 0
deriving DecidableEq, Repr

structure SeqS where
  recs : NMap SeqRec := []
  btc : NMap BtcLine := []
  looks : List Lookup := []
  evs : List SeqEv := []
  /-- Lines whose poison event posted since TPOISON was cleared (R165). -/
  reported : List Nat := []
deriving DecidableEq, Repr

/-- A job of the hub's data mover (R189): 0 a copy, 1 a block of a migration, 2 a region of a snapshot; `asked` is 0 for
the next line, 1 while a line that is not local is read, 2 when it has come, 3 while a line beyond the package is written. -/
structure Job where
  kind : Nat := 0
  tag : Nat := 0
  src : Nat := 0
  dst : Nat := 0
  len : Nat := 0
  off : Nat := 0
  hint : Nat := 0
  poisoned : Nat := 0
  ctx : Nat := 0
  n : Nat := 0
  burst : Nat := 0
  asked : Nat := 0
  data : Line := 0
  bad : Bool := false
deriving DecidableEq, Repr

/- Links (12). -/

/-- One end of a die-to-die link, or of a Col port (R262, R263, R266, R280). -/
structure LinkS where
  /-- Sequence numbers sent and not covered by an ACK, oldest first. -/
  sent : List Nat := []
  nextSeq : Nat := 0
  expect : Nat := 0
  /-- A NAK has been answered; flits are discarded until the expected one comes. -/
  dropping : Bool := false
  replaySeq : Nat := 0
  replays : Nat := 0
  attempts : Nat := 0
  trained : Bool := false
  fallbackTry : Bool := false
  credits : NMap Nat := []
  nakOut : Bool := false
  /-- When flits became outstanding, or an ACK covered some of them. -/
  ackAt : Nat := 0
  /-- Numbers that a NAK or a training has it send again, and the channels of the message slots of each flit in the replay
  buffer (R262, R263). -/
  again : List Nat := []
  loads : NMap (List Nat) := []
  /-- Message slots that wait for transmission, and those in the receive buffers, by channel (R260). -/
  wait : NMap Nat := []
  rx : NMap Nat := []
  /-- Flits since the last one with a Management slot (R261). -/
  quietMgmt : Nat := 64
  /-- MAXW as the training in progress offers it (R268). -/
  maxw : Nat := 0
deriving DecidableEq, Repr

/-- A firewall window (R272). -/
structure FwWin where
  base : Nat := 0
  size : Nat := 0
  rights : Nat := 0
  hint : Nat := 0
  offset : Nat := 0
  /-- End of the grace of a revoke, with the mailbox that waits (R274). -/
  revoking : Option (Nat × Option Nat) := none
deriving DecidableEq, Repr

structure AuxS where
  inw : NMap FwWin := []
  outw : NMap FwWin := []
  mask : Nat := 0
  evFirst : Option Nat := none
  cmdRevoking : Option (Nat × Option Nat) := none
  /-- Violations since the last event, and when it posted (R272). -/
  viol : Nat := 0
  violAt : Option Nat := none
  inReset : Bool := true
  cause : Nat := 0
  /-- Accesses of agent 65 and answers that await it. -/
  replies : List (Nat × Bool) := []
  /-- Package accesses that an outbound window passed: a write, the address in the die's own space, bytes and value (R272). -/
  sent : List (Bool × Nat × Nat × Nat) := []
deriving DecidableEq, Repr

/- The Col fabric (13). -/

/-- A heartbeat as it left (R280): the sender's fabric time, the partner's last stamp with the time it came, and the flags;
ALIVE is set in every one. -/
structure BeatOut where
  stamp : Nat := 0
  echo : Nat := 0
  echoAt : Nat := 0
  inReset : Bool := false
  parked : Bool := false
deriving DecidableEq, Repr

structure ColPort where
  light : Bool := false
  serial : Nat := 0
  root : Nat := 0
  plain : Nat := 0
  member : Nat := 0
  mvalid : Bool := false
  pport : Nat := 0
  known : Bool := false
  missed : Nat := 0
  /-- Packets waiting for transmission. -/
  txq : List Pkt := []
  lnk : LinkS := {}
  probeAt : Option Nat := none
  drainEnd : Option Nat := none
  drainMb : Option Nat := none
  /-- Held dark by a Col port reset (R416). -/
  dark : Bool := false
  hellos : Nat := 0
  beats : Nat := 0
  dist : Nat := 7
  /-- The last HELLO and the last heartbeat that left (R280, R282), and the partner's last stamp with the time it came. -/
  helloOut : Option HelloF := none
  beatOut : Option BeatOut := none
  echo : Nat × Nat := (0, 0)
  /-- Payload of accepted frames that is not yet a whole packet, and whole packets that wait for PACKET_RECEIVE (R284). -/
  part : List Byte := []
  arrived : List Pkt := []
deriving DecidableEq, Repr

/-- A fabric-remote request without its response (R293): its packet, the lane of an atomic, and whether it has left; a
second request for a remote line waits for the first (R288). -/
structure RemReq where
  tag : Nat := 0
  w : Who := .ext 0
  op : Nat := 0
  dst : Nat := 0
  line : Nat := 0
  lane : Nat := 0
  started : Nat := 0
  sent : Bool := false
  pkt : Option Pkt := none
deriving DecidableEq, Repr

structure FabS where
  ports : NMap ColPort := []
  /-- Plain tables: bank * 512 + plain; member maps: bank * 32 + member (R290). -/
  plain : NMap Word := []
  map : NMap Nat := []
  mapSet : List Nat := []
  lifetime : Nat := 100
  heldUntil : Option Nat := none
  switchAt : Option Nat := none
  dead : List Nat := []
  deadPhys : List (Nat × Nat) := []
  notices : List DeadN := []
  rem : List RemReq := []
  nextTag : Nat := 0
  /-- Since when the offset has stayed within 10 ns, and since when in HOLDOVER (R300). -/
  goodSince : Option Nat := none
  holdSince : Option Nat := none
  /-- The count of the port toward the master by its last heartbeat, and the reference clock then; what the count has still
  to slew, and the ns that have passed since it last moved by one (R300). -/
  up : Option (Nat × Nat) := none
  slewLeft : Int := 0
  slewRoom : Nat := 0
  /-- When the election in progress ends (R301). -/
  electAt : Option Nat := some 100000
  master : Nat × Nat := (0, 0)
  masterSet : Bool := false
  /-- Answers and remote requests delivered to this module, waiting for their step. -/
  inbox : List Pkt := []
deriving DecidableEq, Repr

/-- A shard of an instance at its owner or stand-in (R297, R298): the lines that came, keyed rank * 2^28 + line, those
of them that were poisoned, and the ranks whose contribution is whole, each with the contributions folded into it. -/
structure Shard where
  lines : NMap Line := []
  poison : List Nat := []
  got : NMap Nat := []
  closed : Bool := false
  standIn : Bool := false
deriving DecidableEq, Repr

/-- The instance of a group that its engine has read and not completed (R296). -/
structure CInst where
  k : Nat := 0
  op : Nat := 0
  fp32 : Bool := false
  mean : Bool := false
  root : Nat := 0
  src : Nat := 0
  dst : Nat := 0
  bytes : Nat := 0
  start : Nat := 0
  deadline : Nat := 0
  compl : Nat := 0
  bad : Bool := false
  opened : Bool := false
  openedAt : Nat := 0
  /-- Completes with ST_FAB_NOT_LOCKED (R302), or with ST_CANCELLED (R307). -/
  unlocked : Bool := false
  cancelled : Bool := false
  /-- Ranks awaited since it opened, less those declared dead (R318). -/
  live : List Nat := []
  /-- Shards still to be sent, each with the rank that gets it. -/
  send : List (Nat × Nat) := []
  shards : NMap Shard := []
  /-- Lines of DST written, each with the contribution count of its shard; of them, those still on their way. -/
  recv : NMap Nat := []
  pend : List (Nat × Line × Bool) := []
  rootLost : Bool := false
  shardLost : Bool := false
deriving DecidableEq, Repr

/-- A group (R295, R320): the logical address under which the module is a member, and the number of its ring's record 0. -/
structure CGrp where
  members : List Nat := []
  addr : Nat := 0
  ring : Nat := 0
  size : Nat := 16
  defdl : Nat := 0
  first : Nat := 0
  ridx : Nat := 0
  inst : Option CInst := none
  destroying : Option Nat := none
deriving DecidableEq, Repr

/- Watershed (14). -/

/-- A snapshot (R315, R316): its regions that are not empty; stage 0 accepted, 1 started, 2 its last record is sent. -/
structure Snap where
  gen : Nat := 0
  buddy : Nat := 0
  nreg : Nat := 1
  regions : List (Nat × Nat) := []
  start : Nat := 0
  dest : Nat := 0
  step : Nat := 0
  stage : Nat := 0
  startTime : Nat := 0
  /-- Region being copied, bytes copied, lines poisoned, and whether every region is copied. -/
  region : Nat := 0
  bytes : Nat := 0
  poisoned : Nat := 0
  copied : Bool := false
deriving DecidableEq, Repr

structure WsS where
  c : NMap Nat := []
  f : NMap Int := []
  b : NMap Int := []
  /-- Entry to PRIOR or last committed snapshot, in periods of the reference, and whether a snapshot has committed since
  entry to PENDING (R314). -/
  secured : Nat := 0
  committed : Bool := false
  snap : Option Snap := none
deriving DecidableEq, Repr

/- Mailboxes and the CP (15). -/

/-- A command in progress on a mailbox (R326): the copied area and control, and the result once it is known. -/
structure Mbx where
  cmd : List Byte := []
  ctrl : Nat := 0
  deleg : Option Nat := none
  remote : Option Nat := none
  remoteBound : Nat := 0
  busy : Bool := false
  held : Bool := false
  res : Option (Nat × List Byte) := none
  /-- Time before which the command waits: drains, resets. -/
  waiting : Bool := false
  /-- MB7: the module that asked and its tag. -/
  from' : Nat := 0
  fromTag : Nat := 0
deriving DecidableEq, Repr

/-- An event record as posted (R345). -/
structure Ev where
  code : Nat := 0
  source : Nat := 13
  loss : Bool := false
  unlocked : Bool := false
  seq : Nat := 0
  time : Nat := 0
  payload : List Byte := []
deriving DecidableEq, Repr

structure Ring where
  base : Nat := 0
  log2 : Nat := 6
  mask : Nat := 0
  cores : Word := 0
  loss : Bool := false
deriving DecidableEq, Repr

structure Alert where
  sensor : Nat := 0
  high : Int := 0
  low : Int := 0
  en : Bool := false
  armed : Bool := true
deriving DecidableEq, Repr

structure CpS where
  rings : NMap Ring := []
  ring3 : List Ev := []
  ring3Seq : Nat := 0
  ring3Loss : Bool := false
  queued : List Ev := []
  /-- Codes of the events beyond the 256 queued. -/
  queuedLost : List Nat := []
  deleg : Option Nat := none
  alerts : NMap Alert := []
  sensors : NMap (BitVec 32) := []
  attach : Bool := false
  /-- A debugger's access beyond the package: its number, and what is read (R343). -/
  dbg : Option (Nat × Nat × Nat) := none
  restarts : Nat := 0
  cause : Nat := 0
  heldMb : List Nat := []
  /-- I3C: register pointer, dynamic address, in-band interrupts enabled, ALERT bits 1 and 2, the bytes of the last read
and the in-band interrupts raised (R378, R379). -/
  i3cPtr : Nat := 0
  i3cDyn : Option Nat := none
  i3cIbi : Bool := false
  i3cAlert : Nat := 0
  i3cOut : List Byte := []
  i3cIbis : List Nat := []
  /-- JTAG: data register loaded at Capture-DR (R418). -/
  jtag : Word := 0
  /-- DBG_PRSNT_N is low: a debugger is attached to J14 (R417; an input that no command changes, log 74). -/
  prsnt : Bool := true
  /-- MSI-X messages sent: port and vector, oldest first (R374). -/
  msix : List (Nat × Nat) := []
deriving DecidableEq, Repr

/- Power and reset (16). -/

inductive PwrPhase where
  /-- Input absent; RESET_N low; boot sequence at its next step; running; down and holding memory (R354). -/
  | off | held | boot (step : Nat) | warm (step : Nat) | on | down (supply : Bool)
deriving DecidableEq, Repr

structure PwrS where
  phase : PwrPhase := .boot 1
  pwrgd : Bool := false
  /-- The J1 reference clock is present (R365). -/
  refclk : Bool := true
  /-- The input switch has opened (R352). -/
  switchOpen : Bool := false
  /-- A sag and a surge in progress: when it began and its extreme in mV. -/
  sag : Option (Nat × Nat) := none
  surge : Option (Nat × Nat) := none
  /-- Pending settings (R359): SLEW and its AT; EN, FLOOR and AT. -/
  slewPend : Option (Nat × Nat) := none
  ldPend : Option (Bool × Nat × Nat) := none
  /-- Input current of the last sample, in mA (R357). -/
  lastCur : Nat := 0
  /-- Throttle steps that each sensor asks for, and when it took its last step (R369). -/
  therm : NMap Nat := []
  thermAt : NMap Nat := []
  /-- Level and frequency that the current, the cap and the slew limit ask for (R356), regulators at their limit, and the
  levels that the reports of the last sample ask for, by die (R270). -/
  curThr : Nat := 0
  curFreq : Nat := 32
  stress : List Nat := []
  stressThr : NMap Nat := []
  /-- When EV_PWR_THROTTLE last posted for a cause. -/
  thrEvAt : NMap Nat := []
  /-- When step 5 of the boot sequence ran (R360). -/
  poweredAt : Nat := 0
  /-- Entry to P-Park: the end of its grace, and the mailbox that waits (R362). -/
  park : Option Nat := none
  parkMb : Option Nat := none
  /-- Leaving P-Park, which applies no new split (R404). -/
  keepSplit : Bool := false
  /-- Split that the running memory uses (R177). -/
  hp : Nat := 0
  sp : Nat := 0
deriving DecidableEq, Repr

/-- A domain in reset, or waiting for its write-backs (R212, R238): start and the mailbox that asked. -/
structure RstS where
  dom : RDom
  since : Nat := 0
  mb : Option Nat := none
  writing : Bool := false
  /-- Its stores have drained, and the write-back began at `since` (R212, R238). -/
  drained : Bool := false
deriving DecidableEq, Repr

/- PCIe and security (17). -/

/-- A posted write of a peer that has arrived and waits for its turn (R232): its BAR, address, data and EP bit. -/
structure Posted where
  bar : Nat := 0
  addr : Nat := 0
  data : List Byte := []
  ep : Bool := false
deriving DecidableEq, Repr

structure PciS where
  drainEnd : Option Nat := none
  /-- Requests in flight through the window: who asked, and the line. -/
  out : List (Who × Nat) := []
  /-- Memory writes sent to the link partner: line, bytes, data and EP (R189). -/
  sent : List (Nat × LMask × Line × Bool) := []
  /-- PERSTn_N of an endpoint is low; that of a root port has been released (R413). -/
  perst : Bool := false
  released : Bool := false
  /-- Completions sent to the link partner: data, and 0 good, 1 Unsupported Request, 2 Completer Abort, 3 EP set. -/
  cpl : List (List Byte × Nat) := []
  /-- The common clock was lost since cold reset (R377). -/
  noRefclk : Bool := false
  /-- The MSI-X table of BAR0, two 8 B words an entry, and the pending bits (R374). -/
  tab : NMap Word := []
  pba : Nat := 0
  /-- Posted writes of the peer, in the order in which they arrived (R232). -/
  posted : List Posted := []
deriving DecidableEq, Repr

/-- An image in a flash bank (R381): whether it verifies, its SVN, and the hash of its body. -/
structure Image where
  ok : Bool := true
  svn : Nat := 0
  len : Nat := 0
  hash : BitVec 256 := 0
deriving DecidableEq, Repr

/-- The boot configuration record (R373, R381, R385). -/
structure BootCfg where
  roles : Nat := 0
  sris : Nat := 0
  hp : Nat := 0
  sp : Nat := 0
  plain : Nat := 0
deriving DecidableEq, Repr

structure Stage where
  comp : Nat := 0
  bank : Nat := 0
  len : Nat := 0
  got : List Byte := []
  mb : Nat := 0
  streamed : Bool := false
  last : Nat := 0
  src : Nat := 0
  /-- Result of a streamed stage whose event has not posted. -/
  res : Option Nat := none
deriving DecidableEq, Repr

structure SecS where
  /-- Images keyed bank * 3 + component. -/
  img : NMap Image := []
  cfg : NMap BootCfg := []
  sel : Nat := 0
  running : Nat := 0
  rb : NMap Nat := []
  /-- Hashes measured at the last boot (R385, R388). -/
  measured : NMap (BitVec 256) := []
  stage : Option Stage := none
  fuse : Nat := 0
  flashTop : Option Nat := none
  leaf : Nat := 0
  reports : NMap (List Byte) := []
deriving DecidableEq, Repr

/- Performance monitoring (18). -/

structure PmuS where
  /-- Ticks since EN was set, and the fabric time of the latest one. -/
  tick : Nat := 0
  last : Nat := 0
  loss : Bool := false
  missed : Bool := false
  /-- Records of the dump that the engine still has to write. -/
  out : List (List Byte) := []
  /-- INTERVAL in force until the next tick. -/
  interval : Nat := 1000
  /-- Issue slots that instructions have taken on a core that counts and that no clocks of it have covered yet (R393; the
model's own). -/
  used : NMap Nat := []
deriving DecidableEq, Repr

/-- A record that the hardware is writing to a ring in memory: the register that counts it moves when the write has
been performed (R251, R346, R397, R399). -/
structure WrJob where
  kind : RegKind
  idx : Nat := 0
  addr : Nat := 0
  data : List Byte := []
deriving DecidableEq, Repr

/-- Counters of the model itself, not of the manual: stamps for free values, tags, ages. -/
structure CtrS where
  free : Nat := 0
  tag : Nat := 0
  sid : Nat := 0
  lid : Nat := 0
  tid : Nat := 0
  age : Nat := 0
  tlbi : Nat := 0
deriving DecidableEq, Repr

/-- The module. -/
structure State where
  /-- Commands waiting, first in, first out. -/
  pending : List Instr := []
  ctr : CtrS := {}
  /-- Fabric time in ns (R300), the module's own 10 ns reference count, and the arithmetic clocks (R365). -/
  now : Nat := 0
  ref : Nat := 0
  cdClk : Nat := 0
  pdClk : Nat := 0
  /-- Registers that differ from their reset value, by physical address. -/
  regs : NMap Word := []
  pd : NMap PCore := []
  grps : NMap Group := []
  teams : NMap Team := []
  cores : NMap CoreS := []
  trd : NMap TileRd := []
  twr : NMap TileWr := []
  engs : NMap Engine := []
  /-- HBM and Steppe, and the lines marked poisoned in them (R185). -/
  mem : List Host.Cell := []
  poison : List Nat := []
  /-- Lines of the arrays whose next check finds an error (R185): an input, which no command changes (log 85). -/
  errs : NMap Ecc := []
  /-- Lines whose EV_MEM_UE has posted since UE of their die was cleared (R185). -/
  ueSent : List Nat := []
  msc : NMap MscLine := []
  caches : NMap Cache := []
  dir : NMap DirE := []
  txns : NMap Txn := []
  hq : NMap (List HReq) := []
  net : List Msg := []
  /-- Non-caching requests of an agent's units in flight: agent, line, who; and those that wait, for the agent has a
  transaction or an eviction-buffer entry on their line (R203). -/
  ncOut : List (Nat × Nat × Who) := []
  held : List HReq := []
  ops : NMap PendOp := []
  sb : NMap SbE := []
  queues : NMap Queue := []
  launches : NMap Launch := []
  tlbs : NMap Tlb := []
  tlbi : NMap TlbiS := []
  fqs : NMap FqS := []
  seq : SeqS := {}
  jobs : List Job := []
  links : NMap LinkS := []
  aux : AuxS := {}
  fab : FabS := {}
  cgs : NMap CGrp := []
  ws : WsS := {}
  mbs : NMap Mbx := []
  cp : CpS := {}
  pwr : PwrS := {}
  rsts : List RstS := []
  pci : NMap PciS := []
  sec : SecS := {}
  pmu : PmuS := {}
  wq : List WrJob := []
deriving DecidableEq, Repr

/-- The module when module cold reset has been applied with power present: every register at its reset value, every
die still held, and step 1 of the boot sequence next (R366, R368). -/
def State.reset : State := {}

end Sys2Proof.Machine
end

