-- ==== Sys2Proof/Machine/Ops.lean ====
section
/-! DEFINITION. Named operations over registers and memory: the register file of the MMIO region, the physical map,
the memory arrays with their poison marks, and the memory-side cache (01, 08). -/

namespace Sys2Proof.Machine

abbrev Out := Host.Outcome State Fault Refusal

/- Registers (R4, R170). -/

/-- Register i, element j. -/
def State.reg (s : State) (k : RegKind) (i j : Nat) : Word := s.regs.get (regReset k i j) (regAddr k i j)

/-- A register takes a value; a value equal to the reset value is not listed. -/
def State.setReg (s : State) (k : RegKind) (i j : Nat) (w : Word) : State :=
  let a := regAddr k i j
  { s with regs := if w = regReset k i j then s.regs.del a else s.regs.set a w }

/-- A field of a register. -/
def State.fld (s : State) (k : RegKind) (i j lo n : Nat) : Nat := bits (s.reg k i j) lo n

def State.setFld (s : State) (k : RegKind) (i j lo n v : Nat) : State := s.setReg k i j (setBits (s.reg k i j) lo n v)

/-- A counter field goes up and saturates at its largest value. -/
def State.incFld (s : State) (k : RegKind) (i j lo n : Nat) (by' : Nat := 1) : State :=
  s.setFld k i j lo n (satAdd (2 ^ n - 1) (s.fld k i j lo n) by')

/-- A free-running counter goes up modulo its width. -/
def State.addFld (s : State) (k : RegKind) (i j lo n : Nat) (by' : Nat := 1) : State :=
  s.setFld k i j lo n (s.fld k i j lo n + by')

/- Event counts (R391, R394). -/

/-- A counter unit counts: enabled, not frozen, its core not halted (R391). -/
def State.pmuOn (s : State) (u : Nat) : Bool :=
  s.fld .pmuCtrl u 0 0 1 == 1 && s.fld .dctrl 0 0 1 1 == 0 &&
  !(if u < 512 then (s.cores.get {} u).halted else if u < 576 then (s.pd.get {} (u - 512)).halted else false)

/-- Level of a processor core (R44). -/
def State.lvl (s : State) (n : Nat) : Nat := bits (s.pd.get {} n).state 0 2

/-- An event occurs n times in a unit: each programmable counter that selects it goes up (R394, R396). -/
def State.count (s : State) (u ev : Nat) (n : Nat := 1) : State :=
  if s.pmuOn u then
    (upTo 8).foldl (fun s1 j =>
      if s.fld .pmuEvsel u j 0 12 = ev ∧ (u < 512 ∨ 576 ≤ u ∨ bit (s.reg .pmuEvsel u j) (12 + s.lvl (u - 512))) then
        s1.setReg .pmuPmc u j (s1.reg .pmuPmc u j + BitVec.ofNat 64 n) else s1) s
  else s

/-- A fixed counter goes up: 0 CYCLES, 1 INSTR, 2 RET, 3 WASTE, 4 FRONT, 5 BACK (R391). -/
def State.countFixed (s : State) (u j n : Nat) : State :=
  if s.pmuOn u then s.setReg .pmuFixed u j (s.reg .pmuFixed u j + BitVec.ofNat 64 n) else s

/-- An instruction takes n issue slots, which count as RET (2) or WASTE (3) (R393). -/
def State.useSlots (s : State) (u j n : Nat) : State :=
  if s.pmuOn u then
    let s1 := s.countFixed u j n
    { s1 with pmu := { s1.pmu with used := s1.pmu.used.upd 0 u (· + n) } }
  else s

/- Interrupts of processor cores (R51). -/

/-- sys.irq_pend: timer, event ring 0 (R347), inter-core, dispatch-queue completion (R340). -/
def State.irqPend (s : State) (n : Nat) : Nat :=
  let c := s.pd.get {} n
  (decide (c.alarm.toNat ≤ s.now)).toNat +
  2 * (bit (s.cp.rings.get {} 0).cores n && s.reg .evrWidx 0 0 != s.reg .evrRidx 0 0).toNat +
  4 * c.ipi.toNat + 8 * s.fld .dqint n 0 0 1

/-- Interrupts of a core that are pending and enabled. -/
def State.irqOn (s : State) (n : Nat) : List Nat :=
  (upTo 4).filter (fun i => (s.irqPend n >>> i) % 2 = 1 && bit (s.pd.get {} n).irqEn i)

/-- An IDLE wait ends when an interrupt of its core is pending and enabled (R47). -/
def State.wakeIdle (s : State) : State :=
  { s with pd := s.pd.map (fun e => if e.2.idle.isSome && !(s.irqOn e.1).isEmpty then (e.1, { e.2 with idle := none }) else e) }

/- Monitors (R400). -/

/-- The bin of a value. -/
def monBinOf (v : Nat) : Nat := if v = 0 then 0 else min 15 (v.log2 + 1)

/-- An enabled monitor records a value: its extremes and one bin, which saturate. -/
def State.monRecord (s : State) (i v : Nat) : State :=
  if s.fld .monCtrl i 0 0 1 = 0 then s
  else
    let x := min v (2 ^ 32 - 1)
    let b := monBinOf x
    let s1 := s.setFld .monRange i 0 0 32 (min x (s.fld .monRange i 0 0 32))
    let s2 := s1.setFld .monRange i 0 32 32 (max x (s.fld .monRange i 0 32 32))
    s2.incFld .monBin i (b / 2) (32 * (b % 2)) 32

/-- Events of Watershed input i (R311). -/
def State.wsReport (s : State) (i : Nat) (n : Nat := 1) : State :=
  { s with ws := { s.ws with c := s.ws.c.upd 0 i (fun v => satAdd 65535 v n) } }

/- MSI-X (R374). -/

/-- Word of the MSI-X table of a port; a vector is masked until the host unmasks it (PRESUMED, the PCIe standard's reset,
log 63). -/
def State.msixWord (s : State) (n w : Nat) : Word := (s.pci.get {} n).tab.get (if w % 2 = 1 then 0x100000000 else 0) w

/-- A vector of an endpoint whose link is up is sent; a masked one becomes pending (PRESUMED, log 63). -/
def State.sendMsix (s : State) (n v : Nat) : State :=
  if s.fld .pciPortStatus n 0 0 2 ≠ 2 then s
  else if bit (s.msixWord n (2 * v + 1)) 32 then { s with pci := s.pci.upd {} n (fun x => { x with pba := x.pba ||| 2 ^ v }) }
  else { s with cp := { s.cp with msix := s.cp.msix ++ [(n, v)] } }

/-- A write TLP leaves through the window of port p (R169, R189); poisoned data sets EP. -/
def State.pcieWrite (s : State) (p line : Nat) (m : LMask) (d : Line) (ep : Bool) : State :=
  ({ s with pci := s.pci.upd {} p (fun y => { y with sent := y.sent ++ [(line, m, d, ep)] }) } : State).count 580 0x305

/-- A port's link is up and serves its window. -/
def State.pcieUp (s : State) (p : Nat) : Bool := s.fld .pciPortStatus p 0 1 1 == 1 && s.fld .pciPortCtrl p 0 0 1 == 1

/-- Port of a line of the PCIe windows. -/
def pciePort (line : Nat) : Nat := (line * 128 - 0xE00000000000) / 0x80000000000

/- Counters of the model. -/

def State.stamp (s : State) : Nat × State := (s.ctr.free, { s with ctr := { s.ctr with free := s.ctr.free + 1 } })
def State.newTag (s : State) : Nat × State := (s.ctr.tag, { s with ctr := { s.ctr with tag := s.ctr.tag + 1 } })
def State.newSid (s : State) : Nat × State := (s.ctr.sid, { s with ctr := { s.ctr with sid := s.ctr.sid + 1 } })
def State.newAge (s : State) : Nat × State := (s.ctr.age, { s with ctr := { s.ctr with age := s.ctr.age + 1 } })

/- The physical map (R167 to R179). -/

def gib : Nat := 2 ^ 30

def isHbm (a : Nat) : Bool := a < 384 * gib
def isSteppe (a : Nat) : Bool := 2 ^ 40 ≤ a && a < 2 ^ 41
/-- Local memory. -/
def isLocal (a : Nat) : Bool := isHbm a || isSteppe a
def isPcie (a : Nat) : Bool := 0xE00000000000 ≤ a && a < 0xF00000000000
/-- The MMIO region is 4 GiB (R167, R170). -/
def isMmio (a : Nat) : Bool := 0xF00000000000 ≤ a && a < 0xF00100000000
def isRemote (a : Nat) : Bool := 2 ^ 55 ≤ a && a < 2 ^ 56
/-- The windows of the auxiliary site (R170). -/
def isAuxWin (a : Nat) : Bool := 0xF00080000000 ≤ a && a < 0xF00100000000

/-- n bytes from a lie wholly in one range of local memory. -/
def localRange (a n : Nat) : Bool := 0 < n && ((isHbm a && isHbm (a + n - 1)) || (isSteppe a && isSteppe (a + n - 1)))

/-- Exclusive or of k groups of n bits, from bit lo upward. -/
def xorGroups (a lo n k : Nat) : Nat := (upTo k).foldl (fun acc j => acc ^^^ ((a >>> (lo + n * j)) % 2 ^ n)) 0

/-- Stack and stack-local offset of an HBM address at split HP (R177, R178). -/
def hbmLoc (hp a : Nat) : Nat × Nat :=
  let spread := 8 * (48 - hp) * gib
  if a < spread then (xorGroups a 8 3 11, ((a >>> 11) <<< 8) + a % 256)
  else ((a - spread) / (hp * gib), (48 - hp) * gib + (a - spread) % (hp * gib))

/-- Interface and interface-local offset of a Steppe address at split SP (R179). -/
def steppeLoc (sp a : Nat) : Nat × Nat :=
  let b := a - 2 ^ 40
  let spread := 16 * (64 - sp) * gib
  if b < spread then (xorGroups b 8 4 8, ((b >>> 12) <<< 8) + b % 256)
  else ((b - spread) / (sp * gib), (64 - sp) * gib + (b - spread) % (sp * gib))

/-- Home die of a local address, and the home-local line number h of its line (R10, R181). -/
def State.homeLoc (s : State) (a : Nat) : Nat × Nat :=
  if isHbm a then
    let (st, o) := hbmLoc s.pwr.hp a
    (st / 2, (st % 2) * 2 ^ 29 + (o >>> 7))
  else
    let (i, o) := steppeLoc s.pwr.sp a
    (i / 4, 2 ^ 31 + (i % 4) * 2 ^ 29 + (o >>> 7))

/-- Home die of a line. -/
def State.homeOf (s : State) (line : Nat) : Nat := (s.homeLoc (line * 128)).1

/-- The memory-side die that carries a compute die's traffic to HD (R172). -/
def routeMd (a : Nat) : Nat := (a >>> 8) % 4 ^^^ (a >>> 16) % 4 ^^^ (a >>> 41) % 4

/-- Memory is enabled: every stack and interface trained (R175). -/
def State.memOk (s : State) : Bool := (upTo 4).all (fun m => s.fld .memStatus m 0 0 6 == 0x3F)

/- The arrays: a sorted list of the bytes that are not zero, and the lines marked poisoned. -/

/-- A byte of the arrays; a byte that nothing has written reads as zero (DESIGN CHOICE, log 3). -/
def Memory.read (m : List Host.Cell) (a : Nat) : Byte := NMap.get m 0 a

/-- A byte of the arrays is written; zero is not listed. -/
def Memory.write (m : List Host.Cell) (a : Nat) (b : Byte) : List Host.Cell := if b = 0 then NMap.del m a else NMap.set m a b

/-- The canonical form: addresses strictly rising, no zero byte listed. -/
def Memory.wf : List Host.Cell → Bool
  | [] => true
  | [c] => c.2 != 0
  | c :: d :: r => c.2 != 0 && c.1 < d.1 && Memory.wf (d :: r)

/-- The line of the arrays. -/
def Memory.line (m : List Host.Cell) (l : Nat) : Line := lineOfBytes ((upTo 128).map (fun i => Memory.read m (l * 128 + i)))

/-- The bytes of a line, those that are not zero, at their addresses. -/
def lineCells (l : Nat) (d : Line) : List Host.Cell :=
  ((upTo 128).map (fun i => (l * 128 + i, lineByte d i))).filter (fun c => c.2 != 0)

/-- A whole line of the arrays is written. -/
def Memory.setLine (m : List Host.Cell) (l : Nat) (d : Line) : List Host.Cell :=
  m.filter (fun c => c.1 < l * 128) ++ lineCells l d ++ m.filter (fun c => l * 128 + 128 ≤ c.1)

def setPoison (ps : List Nat) (l : Nat) (p : Bool) : List Nat :=
  let r := ps.filter (fun x => x ≠ l)
  if p then r.filter (fun x => x < l) ++ l :: r.filter (fun x => l < x) else r

/-- A line goes to the arrays with its poison mark (R185). -/
def State.arrayPut (s0 : State) (l : Nat) (d : Line) (p : Bool) : State :=
  let s := s0.count (576 + s0.homeOf l) (if isHbm (l * 128) then 0x204 else 0x206)
  { s with mem := Memory.setLine s.mem l d, poison := setPoison s.poison l p, errs := s.errs.del l }

/-- The line as the arrays hold it. -/
def State.arrayGet (s : State) (l : Nat) : Line × Bool := (Memory.line s.mem l, s.poison.elem l)

/- The memory-side cache (R181 to R184). -/

/-- Die and set of a line. -/
def State.mscSet (s : State) (l : Nat) : Nat × Nat :=
  let (m, h) := s.homeLoc (l * 128)
  (m, (h % 2 ^ 15) ^^^ ((h >>> 15) % 2 ^ 15) ^^^ ((h >>> 30) % 4))

/-- The cached lines of the set of a line. -/
def State.mscMates (s : State) (l : Nat) : List (Nat × MscLine) :=
  let k := s.mscSet l
  s.msc.filter (fun e => s.mscSet e.1 = k)

def oldest : List (Nat × MscLine) → Option (Nat × MscLine)
  | [] => none
  | e :: r => match oldest r with
    | none => some e
    | some f => if f.2.age < e.2.age then some f else some e

/-- A line leaves the cache; dirty data goes to the arrays. -/
def State.mscEvict (s : State) (l : Nat) (write : Bool) : State :=
  match s.msc.find? l with
  | none => s
  | some e => { (if e.dirty && write then s.arrayPut l e.data e.poison else s) with msc := s.msc.del l }

def State.keepWays (s : State) (l : Nat) : Nat := s.fld .mscCtrl (s.homeOf l) 0 0 4

/-- The least recently used marked lines beyond a count lose their mark, one of them at each turn (R181, R183). -/
def State.mscUnmark (s : State) (l : Nat) (limit : Nat) : Nat → State
  | 0 => s
  | n + 1 =>
    let marked := (s.mscMates l).filter (fun e => e.2.keep)
    if marked.length ≤ limit then s
    else match oldest marked with
      | none => s
      | some (k, e) => State.mscUnmark { s with msc := s.msc.set k { e with keep := false } } l limit n

/-- An access to a set first removes the marks that a lowered KEEPWAYS leaves in excess (R193). -/
def State.mscTouch (s : State) (l : Nat) : State := s.mscUnmark l (s.keepWays l) 16

/-- A line is filled into an unmarked way. -/
def State.mscFill (s : State) (l : Nat) (d : Line) (p dirty : Bool) : State :=
  let mates := s.mscMates l
  let s1 := if mates.length < 16 then s else
    match oldest (mates.filter (fun e => !e.2.keep)) with
    | some (k, _) => s.mscEvict k true
    | none => s
  let (age, s2) := s1.newAge
  { s2 with msc := s2.msc.set l ⟨d, p, dirty, false, age⟩ }

/-- A cached line becomes marked, within KEEPWAYS marked lines of its set (R183). -/
def State.mscMark (s : State) (l : Nat) : State :=
  match s.msc.find? l with
  | none => s
  | some e =>
    let kw := s.keepWays l
    if e.keep || kw = 0 then s
    else
      let s1 := s.mscUnmark l (kw - 1) 16
      match s1.msc.find? l with
      | some e1 => { s1 with msc := s1.msc.set l { e1 with keep := true } }
      | none => s1

def State.mscAge (s : State) (l : Nat) : State :=
  let (age, s1) := s.newAge
  match s1.msc.find? l with
  | none => s
  | some e => { s1 with msc := s1.msc.set l { e with age := age } }

/-- The memory side without a change of state: the cached line, or the arrays. -/
def State.memPeek (s : State) (l : Nat) : Line × Bool :=
  match s.msc.find? l with
  | some e => (e.data, e.poison)
  | none => s.arrayGet l

/-- A request hits or misses the cache of die m (R193, R394). -/
def State.mscCount (s : State) (m : Nat) (hit : Bool) : State :=
  let k : RegKind := if hit then .mscHit else .mscMiss
  (s.setReg k m 0 (s.reg k m 0 + 1)).count (576 + m) (if hit then 0x201 else 0x202)

/-- Hints at the home: 1 NORMAL, 2 STREAM, 3 KEEP, 4 LAST; 0 acts as NORMAL. -/
def State.mscRead (s0 : State) (l hint : Nat) : State × Line × Bool :=
  let s := s0.mscTouch l
  let m := s.homeOf l
  match s.msc.find? l with
  | some e =>
    let s1 := s.mscCount m true
    let s2 := if hint = 2 then s1
      else if hint = 3 then (s1.mscAge l).mscMark l
      else if hint = 4 then { s1 with msc := s1.msc.del l }
      else s1.mscAge l
    (s2, e.data, e.poison)
  | none =>
    let (d, p) := s.arrayGet l
    let s1 := (s.mscCount m false).count (576 + m) (if isHbm (l * 128) then 0x203 else 0x205)
    let s2 := if hint = 2 ∨ hint = 4 then s1
      else if hint = 3 then (s1.mscFill l d p false).mscMark l
      else s1.mscFill l d p false
    (s2, d, p)

def maskFull (m : LMask) : Bool := m == BitVec.allOnes 128

/-- A line takes its new contents at the home under a hint (R183): NORMAL and KEEP allocate; STREAM and LAST write the bytes
of the mask to the arrays and update a cached copy in place, which stays dirty where it holds older bytes that memory does
not. -/
def State.mscWrite (s0 : State) (l hint : Nat) (d : Line) (p : Bool) (mask : LMask := BitVec.allOnes 128) : State :=
  let s := s0.mscTouch l
  let m := s.homeOf l
  match s.msc.find? l with
  | some e =>
    let s1 := s.mscCount m true
    if hint = 2 ∨ hint = 4 then
      let part : Bool := e.dirty && !maskFull mask
      let (ad, ap) := s1.arrayGet l
      let s2 := if part then s1.arrayPut l (mergeLine ad d mask) (ap || (p && !e.poison)) else s1.arrayPut l d p
      { s2 with msc := s2.msc.set l { e with data := d, poison := p, dirty := part } }
    else
      let s2 := ({ s1 with msc := s1.msc.set l { e with data := d, poison := p, dirty := true } }).mscAge l
      if hint = 3 then s2.mscMark l else s2
  | none =>
    let s1 := s.mscCount m false
    if hint = 2 ∨ hint = 4 then s1.arrayPut l d p
    else
      let s2 := s1.mscFill l d p true
      if hint = 3 then s2.mscMark l else s2

end Sys2Proof.Machine
end

