-- ==== Sys2Proof/Machine/Events.lean ====
section
/-! DEFINITION. Events: the payload layout (R345) and the posting of an event to every ring that takes it (R346), with
the queue of a CP restart (R350) and the side-band alert (R379). Its record goes to memory later (Coherence). -/

namespace Sys2Proof.Machine

/- Event codes (R348). -/
def evCpReady : Nat := 0x0001
def evCpRestart : Nat := 0x0002
def evMbDone : Nat := 0x0003
def evDbgHalt : Nat := 0x00F0
def evMemCopyDone : Nat := 0x0110
def evMemUe : Nat := 0x0111
def evMemTrain : Nat := 0x0112
def evCohTimeout : Nat := 0x0120
def evCohAgentLost : Nat := 0x0121
def evCcUe : Nat := 0x0122
def evFqPending : Nat := 0x0130
def evFqOverflow : Nat := 0x0131
def evLinkRetrain : Nat := 0x0140
def evLinkFallback : Nat := 0x0141
def evLinkDown : Nat := 0x0142
def evFwViolation : Nat := 0x0150
def evAuxState : Nat := 0x0151
def evFabPort : Nat := 0x0310
def evFabDead : Nat := 0x0311
def evFabEpoch : Nat := 0x0312
def evFabTime : Nat := 0x0313
def evWsAlert : Nat := 0x0410
def evWsSecureNow : Nat := 0x0411
def evWsClear : Nat := 0x0412
def evWsHistory : Nat := 0x0413
def evWsSnapshotDone : Nat := 0x0414
def evPwrState : Nat := 0x0510
def evPwrThrottle : Nat := 0x0511
def evPwrSupply : Nat := 0x0512
def evPwrThermal : Nat := 0x0513
def evTelAlert : Nat := 0x0610
def evSecFw : Nat := 0x0710
def evSecAttest : Nat := 0x0711
def evSeqRelayoutDone : Nat := 0x0810
def evSeqMigrateDone : Nat := 0x0811
def evSeqTablePoison : Nat := 0x0812

/-- Fields one after another, each aligned to its own size, in n bytes; bytes left over are zero (R345). -/
def layoutFrom : Nat → List (Nat × Nat) → List Byte
  | _, [] => []
  | at', (sz, v) :: r =>
    let pad := (sz - at' % sz) % sz
    List.replicate pad 0 ++ leBytes sz v ++ layoutFrom (at' + pad + sz) r

def padTo (n : Nat) (b : List Byte) : List Byte := (b ++ List.replicate (n - b.length) 0).take n

def evPayload (f : List (Nat × Nat)) : List Byte := padTo 48 (layoutFrom 0 f)

/-- The 64 B of a record (R345). -/
def evBytes (e : Ev) (seq : Nat) (loss : Bool) : List Byte :=
  leBytes 2 e.code ++ leBytes 1 e.source ++ leBytes 1 (loss.toNat + 2 * e.unlocked.toNat) ++ leBytes 4 seq ++
  leBytes 8 e.time ++ padTo 48 e.payload

/-- The ALERT byte of the side-band (R379). -/
def State.i3cAlert (s : State) : Nat := (!s.cp.ring3.isEmpty).toNat ||| s.cp.i3cAlert

/-- ALERT may have become nonzero: an in-band interrupt where they are enabled. -/
def State.alertFrom (s : State) (before : Nat) : State :=
  if before = 0 ∧ s.i3cAlert ≠ 0 ∧ s.cp.i3cIbi then
    { s with cp := { s.cp with i3cIbis := s.cp.i3cIbis ++ [s.i3cAlert] } } else s

/-- Records of a ring that are on their way. -/
def State.recordsOut (s : State) (k : RegKind) (i : Nat) : Nat := (s.wq.filter (fun j => j.kind = k ∧ j.idx = i)).length

/-- A record joins the queue of those that go to memory. -/
def State.queueRecord (s : State) (j : WrJob) : State := { s with wq := s.wq ++ [j] }

/-- A memory ring takes the event, or counts it as lost (R346). -/
def State.postRing (s : State) (r : Nat) (e : Ev) : State :=
  if s.fld .evrStatus r 0 0 1 = 1 then
    let ring := s.cp.rings.get {} r
    if (ring.mask >>> (e.code / 256)) % 2 = 0 then s
    else
      let seq := ((s.reg .evrWidx r 0).toNat + s.recordsOut .evrWidx r) % 2 ^ 32
      let used := (seq + 2 ^ 32 - (s.reg .evrRidx r 0).toNat) % 2 ^ 32
      let setLoss (s1 : State) (b : Bool) : State :=
        { s1 with cp := { s1.cp with rings := s1.cp.rings.set r { ring with loss := b } } }
      if used < 2 ^ ring.log2 && s.memOk then
        (setLoss s false).queueRecord ⟨.evrWidx, r, ring.base + 64 * (seq % 2 ^ ring.log2), evBytes e seq ring.loss⟩
      else setLoss (s.incFld .evrStatus r 0 16 16) true
  else s

/-- Ring 3 takes every event; when it is full its oldest record goes, and the next carries LOSS (R346). -/
def State.postRing3 (s : State) (e : Ev) : State :=
  let e1 := { e with seq := s.cp.ring3Seq % 2 ^ 32, loss := e.loss || s.cp.ring3Loss }
  let kept := if s.cp.ring3.length ≥ 256 then
      match s.cp.ring3.drop 1 with
      | [] => []
      | x :: r => { x with loss := true } :: r
    else s.cp.ring3
  { s with cp := { s.cp with ring3 := kept ++ [e1], ring3Seq := s.cp.ring3Seq + 1, ring3Loss := false } }

def State.postNow (s : State) (e : Ev) : State :=
  let before := s.i3cAlert
  ((((s.postRing 0 e).postRing 1 e).postRing 2 e).postRing3 e).alertFrom before

/-- An event is posted; during a restart of the CP it is queued, 256 at most (R346, R350). Its records still have to go to
memory. -/
def State.postQ (s : State) (code source : Nat) (f : List (Nat × Nat)) : State :=
  let e : Ev := { code := code, source := source, unlocked := s.fld .fabTimeStatus 0 0 0 2 == 0, time := s.now, payload := evPayload f }
  if s.fld .cpStatus 0 0 1 1 = 1 then
    (if s.cp.queued.length < 256 then { s with cp := { s.cp with queued := s.cp.queued ++ [e] } }
     else { s with cp := { s.cp with queuedLost := s.cp.queuedLost ++ [code] } })
  else s.postNow e

end Sys2Proof.Machine
end

