-- ==== Sys2Proof/Machine/Flags.lean ====
section
/-! DEFINITION. Floating point: values as exact binary fractions, one rounding operation for every format, and the
condition flags that each operation raises (R20, R30). -/

namespace Sys2Proof.Machine

/-- A binary format: exponent bits and fraction bits, with the IEEE bias. -/
structure FFmt where
  eb : Nat
  mb : Nat
deriving DecidableEq, Repr

def f32 : FFmt := ⟨8, 23⟩
def f64 : FFmt := ⟨11, 52⟩
def fmtOf (d : Bool) : FFmt := if d then f64 else f32

/-- A value: NaN (signalling or not), infinity, or the exact number m * 2^e with a sign. -/
inductive FV where
  | nan (signalling : Bool)
  | inf (neg : Bool)
  | fin (neg : Bool) (m : Nat) (e : Int)
deriving DecidableEq, Repr

/-- Flags of fpc, as a mask of its bits 8 to 4 (R20). -/
def flINV : Nat := 16
def flZDIV : Nat := 32
def flOVF : Nat := 64
def flUND : Nat := 128
def flINX : Nat := 256

def FFmt.emin (f : FFmt) : Int := 2 - (2 ^ (f.eb - 1) : Nat)
def FFmt.width (f : FFmt) : Nat := f.eb + f.mb + 1
/-- The canonical NaN (R30). -/
def FFmt.qnan (f : FFmt) : Nat := (2 ^ (f.eb + 1) - 1) <<< (f.mb - 1)
def FFmt.infBits (f : FFmt) (neg : Bool) : Nat := neg.toNat <<< (f.eb + f.mb) ||| ((2 ^ f.eb - 1) <<< f.mb)
def FFmt.signBit (f : FFmt) (neg : Bool) : Nat := neg.toNat <<< (f.eb + f.mb)

/-- The value of a bit pattern. -/
def FFmt.val (f : FFmt) (x : Nat) : FV :=
  let neg := (x >>> (f.eb + f.mb)) % 2 == 1
  let e := (x >>> f.mb) % 2 ^ f.eb
  let m := x % 2 ^ f.mb
  if e = 2 ^ f.eb - 1 then (if m = 0 then .inf neg else .nan (m < 2 ^ (f.mb - 1)))
  else if e = 0 then .fin neg m (f.emin - f.mb)
  else .fin neg (m + 2 ^ f.mb) (f.emin - f.mb + (e - 1 : Nat))

/-- Whether a quotient with a remainder over 2^sh rounds up: 0 NE, 1 PI, 2 MI, 3 ZR (R20). -/
def roundsUp (rm : Nat) (neg : Bool) (q rem half2 : Nat) : Bool :=
  match rm with
  | 0 => 2 * rem > half2 || (2 * rem == half2 && q % 2 == 1)
  | 1 => !neg && rem != 0
  | 2 => neg && rem != 0
  | _ => false

/-- m * 2^e as a multiple of 2^q under a rounding mode, and whether it is inexact. -/
def roundTo (rm : Nat) (neg : Bool) (m : Nat) (e q : Int) : Nat × Bool :=
  if q ≤ e then (m <<< (e - q).toNat, false)
  else
    let sh := (q - e).toNat
    let k := m >>> sh
    let r := m % 2 ^ sh
    (k + (roundsUp rm neg k r (2 ^ sh)).toNat, r != 0)

/-- Exponent of the leading bit of m * 2^e. -/
def topExp (m : Nat) (e : Int) : Int := e + (m.log2 : Nat)

/-- Round an exact number to a format: bits and flags. Tininess is detected after rounding (R30). -/
def FFmt.round (f : FFmt) (rm : Nat) (neg : Bool) (m : Nat) (e : Int) : Nat × Nat :=
  if m = 0 then (f.signBit neg, 0)
  else
    let lsb := f.emin - f.mb
    let q := max (topExp m e - f.mb) lsb
    let (k, ix) := roundTo rm neg m e q
    let tiny : Bool :=
      let q1 := topExp m e - f.mb
      let (k1, _) := roundTo rm neg m e q1
      topExp k1 q1 < f.emin
    let body := ((q - lsb).toNat <<< f.mb) + k
    if body ≥ (2 ^ f.eb - 1) <<< f.mb then
      let toInf := rm = 0 ∨ (rm = 1 ∧ !neg) ∨ (rm = 2 ∧ neg)
      ((if toInf then f.infBits neg else f.infBits neg - 1), flOVF ||| flINX)
    else (f.signBit neg ||| body, if ix then (flINX ||| (if tiny then flUND else 0)) else 0)

def FV.isNan : FV → Bool | .nan _ => true | _ => false
def FV.isSnan : FV → Bool | .nan s => s | _ => false
def FV.isZero : FV → Bool | .fin _ m _ => m == 0 | _ => false
def FV.neg : FV → FV | .nan s => .nan s | .inf n => .inf (!n) | .fin n m e => .fin (!n) m e

/-- An exact signed integer times 2^e, as a sum. -/
def sumExact (n1 : Bool) (m1 : Nat) (e1 : Int) (n2 : Bool) (m2 : Nat) (e2 : Int) : Int × Int :=
  let e := min e1 e2
  let a : Int := (m1 <<< (e1 - e).toNat : Nat)
  let b : Int := (m2 <<< (e2 - e).toNat : Nat)
  ((if n1 then -a else a) + (if n2 then -b else b), e)

/-- Sum of two values rounded to a format. -/
def FFmt.addV (f : FFmt) (rm : Nat) (x y : FV) : Nat × Nat :=
  match x, y with
  | .nan a, .nan b => (f.qnan, if a || b then flINV else 0)
  | .nan a, _ => (f.qnan, if a then flINV else 0)
  | _, .nan b => (f.qnan, if b then flINV else 0)
  | .inf a, .inf b => if a = b then (f.infBits a, 0) else (f.qnan, flINV)
  | .inf a, _ => (f.infBits a, 0)
  | _, .inf b => (f.infBits b, 0)
  | .fin n1 m1 e1, .fin n2 m2 e2 =>
    let (v, e) := sumExact n1 m1 e1 n2 m2 e2
    if v = 0 then (f.signBit (if m1 = 0 ∧ m2 = 0 ∧ n1 = n2 then n1 else rm == 2), 0)
    else f.round rm (v < 0) v.natAbs e

/-- Exact product; the flag is an invalid operation of infinity times zero. -/
def mulV (x y : FV) : FV × Bool :=
  match x, y with
  | .nan a, .nan b => (.nan (a || b), false)
  | .nan a, _ => (.nan a, false)
  | _, .nan b => (.nan b, false)
  | .inf a, .inf b => (.inf (a != b), false)
  | .inf a, .fin b m _ => if m = 0 then (.nan false, true) else (.inf (a != b), false)
  | .fin b m _, .inf a => if m = 0 then (.nan false, true) else (.inf (a != b), false)
  | .fin a m e, .fin b n g => (.fin (a != b) (m * n) (e + g), false)

/-- A value rounded to a format. -/
def FFmt.ofV (f : FFmt) (rm : Nat) (x : FV) : Nat × Nat :=
  match x with
  | .nan s => (f.qnan, if s then flINV else 0)
  | .inf n => (f.infBits n, 0)
  | .fin n m e => f.round rm n m e

def FFmt.add (f : FFmt) (rm x y : Nat) : Nat × Nat := f.addV rm (f.val x) (f.val y)
def FFmt.sub (f : FFmt) (rm x y : Nat) : Nat × Nat := f.addV rm (f.val x) (f.val y).neg
def FFmt.mul (f : FFmt) (rm x y : Nat) : Nat × Nat :=
  let (v, iv) := mulV (f.val x) (f.val y)
  let (b, fl) := f.ofV rm v
  (b, if iv then flINV else fl)

/-- Division: a quotient with more bits than the format keeps, and a sticky bit. -/
def FFmt.div (f : FFmt) (rm x y : Nat) : Nat × Nat :=
  match f.val x, f.val y with
  | .nan a, .nan b => (f.qnan, if a || b then flINV else 0)
  | .nan a, _ => (f.qnan, if a then flINV else 0)
  | _, .nan b => (f.qnan, if b then flINV else 0)
  | .inf _, .inf _ => (f.qnan, flINV)
  | .inf a, .fin b _ _ => (f.infBits (a != b), 0)
  | .fin a _ _, .inf b => (f.signBit (a != b), 0)
  | .fin a m e, .fin b n g =>
    if n = 0 then (if m = 0 then (f.qnan, flINV) else (f.infBits (a != b), flZDIV))
    else if m = 0 then (f.signBit (a != b), 0)
    else
      let k := f.mb + 4 + n.log2
      let q := (m <<< k) / n
      let r := (m <<< k) % n
      f.round rm (a != b) (2 * q + (r != 0).toNat) (e - g - (k : Nat) - 1)

/-- Integer square root by the digit method, one bit a step from bit k downward. -/
def isqrt : Nat → Nat → Nat → Nat
  | 0, acc, x => if (acc + 1) * (acc + 1) ≤ x then acc + 1 else acc
  | k + 1, acc, x => isqrt k (if (acc + 2 ^ (k + 1)) * (acc + 2 ^ (k + 1)) ≤ x then acc + 2 ^ (k + 1) else acc) x

def FFmt.sqrt (f : FFmt) (rm x : Nat) : Nat × Nat :=
  match f.val x with
  | .nan a => (f.qnan, if a then flINV else 0)
  | .inf n => if n then (f.qnan, flINV) else (f.infBits false, 0)
  | .fin n m e =>
    if m = 0 then (f.signBit n, 0)
    else if n then (f.qnan, flINV)
    else
      let k := 2 * (f.mb + 3)
      let odd := e.toNat % 2 + (-e).toNat % 2
      let m1 := m <<< (k + odd)
      let e1 := e - (k : Nat) - (odd : Nat)
      let r := isqrt (m1.log2 / 2 + 1) 0 m1
      f.round rm false (2 * r + (r * r != m1).toNat) (e1 / 2 - 1)

/-- Fused multiply-add ±(x * y) ± z: a product of infinity and zero is invalid whatever the addend is (R30). -/
def FFmt.fma (f : FFmt) (rm : Nat) (np nz : Bool) (x y z : Nat) : Nat × Nat :=
  let (p, iv) := mulV (f.val x) (f.val y)
  let p1 := if np then p.neg else p
  let z1 := if nz then (f.val z).neg else f.val z
  if iv then (f.qnan, flINV) else f.addV rm p1 z1

/-- Order of two values that are not NaN: less, equal, greater as 0, 1, 2; zeros are equal. -/
def FV.cmp (x y : FV) : Nat :=
  match x, y with
  | .inf a, .inf b => if a = b then 1 else if a then 0 else 2
  | .inf a, _ => if a then 0 else 2
  | _, .inf b => if b then 2 else 0
  | .fin n1 m1 e1, .fin n2 m2 e2 =>
    let (v, _) := sumExact n1 m1 e1 (!n2) m2 e2
    if v < 0 then 0 else if v = 0 then 1 else 2
  | _, _ => 1

/-- IEEE minimumNumber and maximumNumber, with -0 below +0 (R30). -/
def FFmt.minmax (f : FFmt) (isMax : Bool) (x y : Nat) : Nat × Nat :=
  let a := f.val x
  let b := f.val y
  let fl := if a.isSnan || b.isSnan then flINV else 0
  if a.isNan && b.isNan then (f.qnan, fl)
  else if a.isNan then (y, fl)
  else if b.isNan then (x, fl)
  else
    let c := a.cmp b
    let xNeg := (x >>> (f.eb + f.mb)) % 2 == 1
    let xLess := if c = 1 then xNeg else c == 0
    (if xLess != isMax then x else y, fl)

/-- FCMP: 0 EQ, 1 LT, 2 LE, 3 UN, 4 NE (R30). -/
def FFmt.compare (f : FFmt) (cond x y : Nat) : Bool × Nat :=
  let a := f.val x
  let b := f.val y
  let un := a.isNan || b.isNan
  let sn := a.isSnan || b.isSnan
  let inv := if cond = 1 ∨ cond = 2 then un else sn
  let c := a.cmp b
  let r := match cond with
    | 0 => !un && c == 1
    | 1 => !un && c == 0
    | 2 => !un && c ≤ 1
    | 3 => un
    | _ => un || c != 1
  (r, if inv then flINV else 0)

/-- FTOI and FTOU to 64 bits (R30). -/
def FFmt.toInt (f : FFmt) (uns : Bool) (rm x : Nat) : Nat × Nat :=
  let hi : Int := if uns then (2 ^ 64 - 1 : Nat) else (2 ^ 63 - 1 : Nat)
  let lo : Int := if uns then 0 else -(2 ^ 63 : Nat)
  let w (i : Int) : Nat := (i % (2 ^ 64 : Nat)).toNat
  match f.val x with
  | .nan _ => (0, flINV)
  | .inf n => (w (if n then lo else hi), flINV)
  | .fin n m e =>
    let (k, ix) := roundTo rm n m e 0
    let v : Int := if n then -(k : Int) else k
    if v > hi then (w hi, flINV) else if v < lo then (w lo, flINV) else (w v, if ix then flINX else 0)

/-- ITOF and UTOF (R30). -/
def FFmt.ofInt (f : FFmt) (uns : Bool) (rm x : Nat) : Nat × Nat :=
  let v : Int := if uns then x else sext 64 x
  f.round rm (v < 0) v.natAbs 0

/-- FKIND's class code (R30). -/
def FFmt.kind (f : FFmt) (x : Nat) : Nat :=
  match f.val x with
  | .nan s => if s then 0 else 1
  | .inf n => if n then 2 else 9
  | .fin n m _ =>
    if m = 0 then (if n then 5 else 6)
    else if m < 2 ^ f.mb then (if n then 4 else 7)
    else (if n then 3 else 8)

/-- Conversion between formats, FWIDEN and FNARROW (R30). -/
def FFmt.conv (src dst : FFmt) (rm x : Nat) : Nat × Nat := dst.ofV rm (src.val x)

end Sys2Proof.Machine
end

