-- ==== Sys2Proof/Machine/Coherence.lean ====
section
/-! DEFINITION. Coherence as shared operations: a cache's answer to a snoop, replacement and tags (R198 to R204), and
a home's transaction: which snoops it sends (R206), how it completes (R207), its queue (R205) and recalls (R209). The
commands of chapter 09, the atomics, and every internal reader and writer of memory are built from these. The check of the
arrays (R185), and the records that the hardware writes to memory (R251, R346). -/

namespace Sys2Proof.Machine

/- One cache. -/

def State.cacheOf (s : State) (a : Nat) : Cache := s.caches.get {} a
def State.cline (s : State) (a l : Nat) : CLine := (s.cacheOf a).lines.get {} l

/-- A line of a cache changes; a line in I is not listed. -/
def State.setCline (s : State) (a l : Nat) (c : CLine) : State :=
  let k := s.cacheOf a
  { s with caches := s.caches.set a { k with lines := if c.st = .I then k.lines.del l else k.lines.set l c } }

/-- In the eviction buffer (R200). -/
def CSt.inBuffer : CSt → Bool | .MIA | .OIA | .EIA | .SIA | .IIA => true | _ => false
def CSt.transient : CSt → Bool | .ISD | .IMD | .SMA | .OMA => true | _ => false
/-- States that a load hits (R204), the buffer included. -/
def CSt.readable : CSt → Bool | .M | .O | .E | .S | .SMA | .OMA | .MIA | .OIA | .EIA | .SIA => true | _ => false

/-- Entries of an eviction buffer in use. -/
def State.bufUsed (s : State) (a : Nat) : Nat := ((s.cacheOf a).lines.filter (fun e => e.2.st.inBuffer)).length

/-- The reservations that threads below an agent hold on a line end (R37, R204), but for the unit named. -/
def Thr.clearResv (t : Thr) (l : Nat) : Thr := if t.resv = some l then { t with resv := none } else t

def State.clearResv (s : State) (a l : Nat) (but : Option Agent) : State :=
  if a = 64 then
    { s with pd := s.pd.map (fun e => if but = some (.core e.1) then e else (e.1, { e.2 with thr := e.2.thr.clearResv l })) }
  else
    { s with grps := s.grps.map (fun e =>
        if e.1 / 512 ≠ a ∨ but = some (.grp (e.1 / 64) (e.1 % 64)) then e
        else (e.1, { e.2 with lanes := e.2.lanes.map (fun x => { x with thr := x.thr.clearResv l }) })) }

def State.perr (s : State) (a : Nat) : State := if a < 64 then s.setFld .ccStatus a 0 1 1 1 else s

/-- Answer to a snoop: whether the copy is now I, and dirty data. -/
abbrev SnpAns := Bool × Option (Line × Bool)

/-- The SnpS, SnpX and SnpI columns of R204; none where the table says never. -/
def State.snoop (s : State) (k : SnpK) (a l : Nat) : State × Option SnpAns :=
  let c := s.cline a l
  let d := some (c.data, c.poison)
  let go (st : CSt) (ans : SnpAns) : State × Option SnpAns :=
    let s1 := s.setCline a l { c with st := st }
    ((if k = .s ∧ st ≠ .IIA then s1 else s1.clearResv a l none), some ans)
  match c.st, k with
  | .M, .s | .O, .s => go .O (false, d)
  | .M, .x | .O, .x => go .I (true, d)
  | .E, .s | .S, .s => go .S (false, none)
  | .M, .i | .O, .i | .E, .x | .E, .i | .S, .x | .S, .i | .I, _ => go .I (true, none)
  | .SMA, .s => go .SMA (false, none)
  | .SMA, .x | .SMA, .i | .OMA, .i => go .IMD (true, none)
  | .OMA, .s => go .OMA (false, d)
  | .OMA, .x => go .IMD (true, d)
  | .MIA, .s | .MIA, .x | .OIA, .s | .OIA, .x => go .IIA (true, d)
  | .MIA, .i | .OIA, .i | .EIA, _ | .SIA, _ => go .IIA (true, none)
  | .ISD, _ | .IMD, _ | .IIA, _ => (s.perr a, none)

/- Links (R11, R258, R260). Dies are numbered 0-7 CD, 8 PD, 9-12 MD, 13 HD (R336). -/

def State.link (s : State) (e : Nat) : LinkS := s.links.get {} e
def State.setLink (s : State) (e : Nat) (l : LinkS) : State := { s with links := s.links.set e l }

def unitDie : Agent → Nat | .core _ => 8 | .grp c _ => c / 64

/-- The die that a requester is on; HD for what is none of the package's units. -/
def State.whoDie (s : State) (w : Who) : Nat :=
  match w with
  | .op tag => match s.ops.find? tag with | some p => unitDie p.u | none => 13
  | .store sid => match s.sb.find? sid with | some e => unitDie e.u | none => 13
  | .tileR id _ => match s.trd.find? id with | some r => r.c / 64 | none => 13
  | .tileW id _ => match s.twr.find? id with | some r => r.c / 64 | none => 13
  | .desc c _ => c / 64
  | .ext _ => 13

/-- The die of a coherent agent; the auxiliary die's traffic comes through HD. -/
def agentDie (a : Nat) : Nat := if a < 64 then a / 8 else if a = 64 then 8 else 13

def State.reqDie (s : State) (r : HReq) : Nat := if r.a < 66 then agentDie r.a else s.whoDie r.w

/-- The two ends of the link between a die and a memory-side die: the die's, and the other (R11, R258). -/
def memLink (die m : Nat) : Nat := if die < 8 then 32 * die + m else if die = 8 then 256 + m else 416 + m
def homeLink (m die : Nat) : Nat := 288 + 32 * m + (if die < 8 then die else if die = 8 then 8 else 9)

/-- Where a message waits for transmission: the link end, its virtual channel, and its 64 B slots (R260). Answers of register
accesses are not among the messages of R202. -/
def State.msgEnd (s : State) (m : Msg) : Option (Nat × Nat × Nat) :=
  let up (die l vc n : Nat) : Option (Nat × Nat × Nat) := some (memLink die (s.homeOf l), vc, n)
  let down (die l vc n : Nat) : Option (Nat × Nat × Nat) := some (homeLink (s.homeOf l) die, vc, n)
  match m with
  | .req r => match r.kind with
    | .wbd | .wrnc => up (s.reqDie r) r.line 3 3
    | _ => up (s.reqDie r) r.line 0 1
  | .snp _ a l => down (agentDie a) l 1 1
  | .rsp a l _ | .cmpack a l => up (agentDie a) l 2 1
  | .rspd a l _ _ _ => up (agentDie a) l 3 3
  | .gnt a l _ _ _ | .gntm a l _ _ => down (agentDie a) l 3 3
  | .gntupg a l | .gntwb a l => down (agentDie a) l 2 1
  | .dat w l _ _ => match w with
    | .store _ | .tileW .. => down (s.whoDie w) l 2 1
    | _ => down (s.whoDie w) l 3 3
  | .load .. | .stor .. => none

def State.waitOn (s : State) (ls : NMap LinkS) (m : Msg) : NMap LinkS :=
  match s.msgEnd m with
  | none => ls
  | some (e, vc, n) => ls.upd {} e (fun l => { l with wait := l.wait.upd 0 vc (· + n) })

/-- Messages leave: they are on their way, and wait for their turn on the link. -/
def State.sendAll (s : State) (ms : List Msg) : State := { s with net := s.net ++ ms, links := ms.foldl s.waitOn s.links }

def State.send (s : State) (m : Msg) : State := s.sendAll [m]

/-- A link that trains carries nothing, and what must cross it waits (R262, R266). -/
def State.linkWaits (s : State) (die l : Nat) : Bool := s.fld .lnkStatus (memLink die (s.homeOf l)) 0 0 2 == 1

/-- A message of a channel of a link arrives after the messages that were sent on it before (R261): nothing that is on its way
before the one that p names shares its channel. -/
def State.inTurn (s : State) (p : Msg → Bool) : Bool :=
  let vc (m : Msg) : Option (Nat × Nat) := (s.msgEnd m).map (fun x => (x.1, x.2.1))
  match s.net.find? p with
  | none => true
  | some m => (vc m).isNone || ((s.net.find? (fun x => vc x == vc m)).map p).getD true

/-- A message does not arrive: its link trains, or an earlier message of its channel has not arrived (R261, R266). -/
def State.linkHolds (s : State) (die l : Nat) (p : Msg → Bool) : Bool := s.linkWaits die l || !s.inTurn p

/-- A message that arrives leaves the messages on their way. -/
def State.took (s : State) (p : Msg → Bool) : State := { s with net := eraseFirst p s.net }

/-- Replacement of a line (R200, R204). -/
def State.replaceLine (s : State) (a l : Nat) : State :=
  let c := s.cline a l
  let wb (st : CSt) := (((s.setCline a l { c with st := st }).clearResv a l none).send
    (.req { kind := .wbd, a := a, line := l, data := c.data, poison := c.poison }))
  let ev (st : CSt) := (((s.setCline a l { c with st := st }).clearResv a l none).send (.req { kind := .evc, a := a, line := l }))
  match c.st with
  | .M => wb .MIA
  | .O => wb .OIA
  | .E => ev .EIA
  | .S => ev .SIA
  | _ => s

/- Requests that an agent makes for its units, and that are no requests of its cache (R203). -/

/-- An agent has a transaction or an eviction-buffer entry on a line. -/
def State.agentBusy (s : State) (a l : Nat) : Bool :=
  (s.cline a l).st.transient || (s.cline a l).st.inBuffer || s.ncOut.any (fun e => e.1 == a && e.2.1 == l)

def State.sendNc (s : State) (r : HReq) : State := ({ s with ncOut := s.ncOut ++ [(r.a, r.line, r.w)] } : State).send (.req r)

/-- The request leaves, or waits until the agent has nothing else in flight on its line. -/
def State.askHome (s : State) (r : HReq) : State :=
  if s.agentBusy r.a r.line || s.held.any (fun h => h.a == r.a && h.line == r.line) then { s with held := s.held ++ [r] } else s.sendNc r

/-- Requests that waited leave, in their order. -/
def State.pumpHeld (s : State) : State := s.held.foldl (fun s1 r => s1.askHome r) { s with held := [] }

/-- The answer of such a request has come. -/
def State.ncDone (s : State) (w : Who) (l : Nat) : State :=
  ({ s with ncOut := eraseFirst (fun e => e.2.1 == l && e.2.2 == w) s.ncOut } : State).pumpHeld

/- Tags of a cluster cache (R198, R199, R201). -/

def ccSet (block : Nat) : Nat := block % 512 ^^^ (block >>> 9) % 512 ^^^ (block >>> 18) % 512

/-- Way mask of a class (R201). -/
def State.wayMask (s : State) (a cls : Nat) : Nat :=
  if cls < 4 then s.fld .ccMask0 a 0 (16 * cls) 16 else s.fld .ccMask1 a 0 (16 * (cls - 4)) 16

/-- Sectors of a block that stand in the array. -/
def State.sectors (s : State) (a block : Nat) : List (Nat × CLine) :=
  (s.cacheOf a).lines.filter (fun e => e.1 / 4 = block && !e.2.st.inBuffer)

def setTag (s : State) (a block way : Nat) : State :=
  let (age, s1) := s.newAge
  let k := s1.cacheOf a
  { s1 with caches := s1.caches.set a { k with tags := k.tags.set block ⟨way, age⟩ } }

/-- The victim tag: the least recently used of those listed. -/
def oldestTag : List (Nat × CTag) → Option (Nat × CTag)
  | [] => none
  | e :: r => match oldestTag r with
    | none => some e
    | some f => if f.2.age < e.2.age then some f else some e

/-- A tag for a line that misses: present already, a free permitted way, or the least recently used tag of the
permitted ways whose sectors may all be replaced. None: the miss waits. -/
def State.allocTag (s : State) (a l cls : Nat) : Option State :=
  let block := l / 4
  let mask := s.wayMask a cls
  let tags := (s.cacheOf a).tags
  match tags.find? block with
  | some t => some (setTag s a block t.way)
  | none =>
    let mates := tags.filter (fun e => ccSet e.1 = ccSet block)
    let used := mates.filter (fun e => !(s.sectors a e.1).isEmpty)
    let free := (upTo 16).filter (fun w => (mask >>> w) % 2 = 1 ∧ used.all (fun e => e.2.way ≠ w))
    let place (s1 : State) (w : Nat) : State :=
      let k := s1.cacheOf a
      let old := k.tags.filter (fun e => ¬(ccSet e.1 = ccSet block ∧ e.2.way = w))
      setTag { s1 with caches := s1.caches.set a { k with tags := old } } a block w
    match free with
    | w :: _ => some (place s w)
    | [] =>
      let ok := used.filter (fun e => (mask >>> e.2.way) % 2 = 1 ∧
        (s.sectors a e.1).all (fun c => !s.agentBusy a c.1) ∧ (s.sectors a e.1).length + s.bufUsed a ≤ 32)
      match oldestTag ok with
      | none => none
      | some (b, t) => some (place ((s.sectors a b).foldl (fun s1 c => s1.replaceLine a c.1) s) t.way)

def State.touchTag (s : State) (a l : Nat) : State :=
  match (s.cacheOf a).tags.find? (l / 4) with
  | some t => setTag s a (l / 4) t.way
  | none => s

/- Atomic operations (R35). -/

/-- The new value of an atomic; the result is truncated to the width by the caller. -/
def amoValue (o : AmoOp) (wide : Bool) (old b cmp : Nat) : Nat :=
  let n := if wide then 64 else 32
  match o with
  | .add => old + b
  | .and => old &&& b
  | .or => old ||| b
  | .xor => old ^^^ b
  | .swap => b
  | .cas => if old = cmp then b else old
  | .min => if sext n old ≤ sext n b then old else b
  | .max => if sext n b ≤ sext n old then old else b
  | .minu => min old b
  | .maxu => max old b
  | .fadd => ((fmtOf wide).add 0 old b).1

/-- Bytes of a line that an atomic's lanes write. -/
def amoMask (wide : Bool) (l : Nat) (accs : List LAcc) : LMask :=
  (accs.filter (fun a => a.pa / 128 = l)).foldl (fun m a => m ||| maskAt (a.pa % 128) (if wide then 8 else 4)) 0

/-- Lanes perform their operations one after another, and each gets its old value (R36). -/
def amoLine (o : AmoOp) (wide : Bool) (l : Nat) : List LAcc → Line → Line × List LAcc
  | [], d => (d, [])
  | a :: r, d =>
    let n := if wide then 8 else 4
    let mod := 2 ^ (8 * n)
    if a.pa / 128 = l then
      let i := a.pa % 128
      let old := lineBytes d i n
      let v := amoValue o wide old (a.op1 % mod) (a.op2 % mod)
      let (d1, r1) := amoLine o wide l r (mergeLine d (lineAt i n v) (maskAt i n))
      (d1, { a with old := old } :: r1)
    else
      let (d1, r1) := amoLine o wide l r d
      (d1, a :: r1)

/- The home. -/

def State.isLost (s : State) (m a : Nat) : Bool :=
  if a < 64 then bit (s.reg .cohLost0 m 0) a else bit (s.reg .cohLost1 m 0) (a - 64)

def DirE.holders (e : DirE) : List Nat :=
  match e.st with
  | .HS => e.sharers
  | .HX => [e.owner]
  | .HO => e.owner :: e.sharers

def State.holders (s : State) (l : Nat) : List Nat := match s.dir.find? l with | none => [] | some e => e.holders

def insertN (x : Nat) : List Nat → List Nat
  | [] => [x]
  | y :: r => if x < y then x :: y :: r else if x = y then y :: r else y :: insertN x r

/-- Snoops of a request (R206). -/
def snoopsFor (r : HReq) (e : Option DirE) : List (Nat × SnpK) :=
  match e with
  | none => []
  | some e =>
    let all (k : SnpK) := e.holders.map (fun a => (a, k))
    let owner (k : SnpK) := if e.st = .HS then [] else [(e.owner, k)]
    let notMe (x : List (Nat × SnpK)) := x.filter (fun y => y.1 ≠ r.a)
    match r.kind with
    | .rds => notMe (owner .s)
    | .rdx | .upg => notMe (all .x)
    | .wbd | .evc => []
    | .rdnc | .cmo .clean => owner .s
    | .cmo .inval => all .i
    | .cmo .flush | .recall => all .x
    | .wrnc => if maskFull r.mask then all .i
               else (if e.st = .HS then all .i else (e.owner, .x) :: (if e.st = .HO then e.sharers.map (fun a => (a, .i)) else []))
    | .atmh => if e.st = .HS then all .i else (e.owner, .x) :: (if e.st = .HO then e.sharers.map (fun a => (a, .i)) else [])

/-- Requests of a coherent cache, whose requester is not counted in H. -/
def RqKind.caching : RqKind → Bool | .rds | .rdx | .upg | .wbd | .evc => true | _ => false

/-- A transaction at its start: lost agents have answered already (R214). -/
def State.openTxn (s : State) (r : HReq) (resume : Option Nat) : Txn × List (Nat × SnpK) :=
  let e := s.dir.find? r.line
  let m := s.homeOf r.line
  let targets := snoopsFor r e
  let lost := targets.filter (fun t => s.isLost m t.1)
  let live := targets.filter (fun t => !s.isLost m t.1)
  let owner := match e with | some x => if x.st = .HS then none else some x.owner | none => none
  let h0 := (s.holders r.line).filter (fun a => ¬(r.kind.caching ∧ a = r.a))
  let h := h0.filter (fun a => !lost.any (fun t => t.1 = a))
  let d := if lost.any (fun t => some t.1 = owner) then some (Config.lostLine r.line s.ctr.age, true) else none
  ({ req := r, phase := .snp, await := live.map (·.1), h := h, d := d, wasOwner := owner, resume := resume, since := s.now }, live)

/-- A snoop answer is recorded (R207). -/
def Txn.answer (t : Txn) (a : Nat) (ans : SnpAns) : Txn :=
  { t with await := t.await.filter (· ≠ a), h := if ans.1 then t.h.filter (· ≠ a) else t.h,
           d := match ans.2 with | some x => some x | none => t.d,
           od := if !ans.1 ∧ ans.2.isSome then some a else t.od }

/-- Whether an Upg comes from a recorded holder. -/
def State.upgRecorded (s : State) (r : HReq) : Bool := (s.holders r.line).elem r.a

/-- After the last answer, memory data is needed. -/
def State.needsMem (s : State) (t : Txn) : Bool :=
  t.d.isNone && match t.req.kind with
    | .rds | .rdx | .rdnc | .atmh => true
    | .upg => !s.upgRecorded t.req
    | .wrnc => !maskFull t.req.mask
    | _ => false

def State.setDir (s : State) (l : Nat) (st : HSt) (owner : Nat) (sharers : List Nat) : State :=
  let (age, s1) := s.newAge
  { s1 with dir := s1.dir.set l ⟨st, owner, sharers, age⟩ }

def State.delDir (s : State) (l : Nat) : State := { s with dir := s.dir.del l }

def State.setSharers (s : State) (l : Nat) (h : List Nat) : State := if h = [] then s.delDir l else s.setDir l .HS 0 h

/-- The lanes of an instruction in flight get their old values of a line. -/
def State.amoOld (s : State) (w : Who) (l : Nat) (accs : List LAcc) : State :=
  match w with
  | .op tag => match s.ops.find? tag with
    | some p =>
      let one (a : LAcc) : LAcc :=
        if a.pa / 128 = l then (match accs.find? (fun b => b.lane = a.lane) with | some b => { a with old := b.old } | none => a) else a
      { s with ops := s.ops.set tag { p with accs := p.accs.map one } }
    | none => s
  | _ => s

/-- An atomic's operation, lanes in order, where its instruction is in flight. -/
def State.amoOf (s : State) (w : Who) : Option (Nat × PendOp × AmoOp × Bool) :=
  match w with
  | .op tag => match s.ops.find? tag with
    | some p => match p.kind with | .amo o wd => some (tag, p, o, wd) | _ => none
    | none => none
  | _ => none

/-- Completion of a transaction with the memory's data (R207): the state, the replies, and whether ACK follows. -/
def State.finish (s0 : State) (t : Txn) (m : Line × Bool) : State × List Msg × Bool :=
  let r := t.req
  let s := match r.kind with
    | .rds | .rdx | .rdnc => s0.monRecord (s0.homeOf r.line) (s0.now - t.since)
    | _ => s0
  let l := r.line
  let dv := t.d.getD m
  let keepD (s : State) : State := match t.d with | some x => s.mscWrite l 1 x.1 x.2 | none => s
  let afterRd (s : State) : State := match t.od with
    | some o => s.setDir l .HO o (t.h.filter (· ≠ o))
    | none => (keepD s).setSharers l t.h
  match r.kind with
  | .rds => match t.od with
    | some o => (s.setDir l .HO o (insertN r.a (t.h.filter (· ≠ o))), [.gnt r.a l false dv.1 dv.2], true)
    | none =>
      let s1 := keepD s
      if t.h = [] then (s1.setDir l .HX r.a [], [.gnt r.a l true dv.1 dv.2], true)
      else (s1.setDir l .HS 0 (insertN r.a t.h), [.gnt r.a l false dv.1 dv.2], true)
  | .rdx => (s.setDir l .HX r.a [], [.gntm r.a l dv.1 dv.2], true)
  | .upg => if s.upgRecorded r then (s.setDir l .HX r.a [], [.gntupg r.a l], true)
            else (s.setDir l .HX r.a [], [.gntm r.a l dv.1 dv.2], true)
  | .rdnc => (afterRd s, [.dat r.w l dv.1 dv.2], false)
  | .wrnc =>
    let line := mergeLine dv.1 r.data r.mask
    let p := r.poison || (!maskFull r.mask && dv.2)
    ((s.mscWrite l r.hint line p (if t.d.isSome then BitVec.allOnes 128 else r.mask)).delDir l, [.dat r.w l 0 false], false)
  | .atmh =>
    let (o, wd) := r.amo.getD (.add, false)
    let mask : LMask := if t.d.isSome then BitVec.allOnes 128 else amoMask wd l r.accs
    if dv.2 then ((s.mscWrite l r.hint dv.1 true mask).delDir l, [.dat r.w l dv.1 true], false)
    else
      let (d1, accs) := amoLine o wd l r.accs dv.1
      (((s.amoOld r.w l accs).mscWrite l r.hint d1 false mask).delDir l, [.dat r.w l dv.1 false], false)
  | .wbd =>
    match s.dir.find? l with
    | some e =>
      if e.st ≠ .HS ∧ e.owner = r.a then
        ((s.mscWrite l 1 r.data r.poison).setSharers l (if e.st = .HX then [] else e.sharers), [.gntwb r.a l], false)
      else (s, [.gntwb r.a l], false)
    | none => (s, [.gntwb r.a l], false)
  | .evc =>
    match s.dir.find? l with
    | some e =>
      let sh := e.sharers.filter (· ≠ r.a)
      if e.st = .HX then ((if e.owner = r.a then s.delDir l else s), [.gntwb r.a l], false)
      else if e.st = .HO ∧ e.owner ≠ r.a then (s.setDir l .HO e.owner sh, [.gntwb r.a l], false)
      else (s.setSharers l sh, [.gntwb r.a l], false)
    | none => (s, [.gntwb r.a l], false)
  | .cmo .clean =>
    let s1 := match t.d with
      | some x => s.mscWrite l 2 x.1 x.2
      | none => match s.msc.find? l with
        | some e => if e.dirty then { s.arrayPut l e.data e.poison with msc := s.msc.set l { e with dirty := false } } else s
        | none => s
    let s2 := match t.od with
      | some o => s1.setDir l .HO o (t.h.filter (· ≠ o))
      | none => s1.setSharers l t.h
    (s2, [.dat r.w l 0 false], false)
  | .cmo .flush =>
    let s1 := match t.d with
      | some x => s.arrayPut l x.1 x.2
      | none => s.mscEvict l true
    (({ s1 with msc := s1.msc.del l }).delDir l, [.dat r.w l 0 false], false)
  | .cmo .inval => (({ s with msc := s.msc.del l }).delDir l, [.dat r.w l 0 false], false)
  | .recall => ((keepD s).delDir l, [], false)

/-- A transaction with everything it needs completes: its replies leave, and it closes or waits for CmpAck. -/
def State.complete (s : State) (t : Txn) (m : Line × Bool) : State :=
  let l := t.req.line
  let (s1, out, ack) := s.finish t m
  let s2 := s1.sendAll out
  if ack then { s2 with txns := s2.txns.set l { t with phase := .ack, since := s2.now } } else { s2 with txns := s2.txns.del l }

/-- The other line of a burst's aligned 256 B (R230). -/
def otherHalf (l : Nat) : Nat := if l % 2 = 0 then l + 1 else l - 1

/-- A transaction that is ready: it completes, and the two lines of a burst complete together (R230). -/
def State.ready2 (s : State) (t : Txn) (m : Line × Bool) : State :=
  if !t.req.burst then s.complete t m
  else match s.txns.find? (otherHalf t.req.line) with
    | some u => if u.phase = .pair then (s.complete t m).complete u u.mdata
                else { s with txns := s.txns.set t.req.line { t with phase := .pair, mdata := m } }
    | none => { s with txns := s.txns.set t.req.line { t with phase := .pair, mdata := m } }

/-- The transaction with all its answers: it waits for memory, or completes. -/
def State.answered (s : State) (t : Txn) : State :=
  if s.needsMem t then { s with txns := s.txns.set t.req.line { t with phase := .mem } } else s.ready2 t (0, false)

/-- A transaction starts. -/
def State.startTxn (s : State) (r : HReq) (resume : Option Nat) : State :=
  let (t, snps) := s.openTxn r resume
  let s0 := s.count (576 + s.homeOf r.line) 0x207 snps.length
  let s1 := s0.sendAll (snps.map (fun (x : Nat × SnpK) => Msg.snp x.2 x.1 r.line))
  if snps = [] then s1.answered t else { s1 with txns := s1.txns.set r.line t }

/-- A request needs a directory entry that its line does not have. -/
def State.needsEntry (s : State) (r : HReq) : Bool :=
  !s.dir.has r.line && (match r.kind with | .rds | .rdx | .upg => true | _ => false)

/-- Two lines share a set of a home's snoop filter (R209). -/
def State.sfSame (s : State) (k l : Nat) : Bool :=
  s.homeOf k == s.homeOf l && Config.sfSet k % 131072 == Config.sfSet l % 131072

/-- The entries of a line's set at its home (R209). -/
def State.sfMates (s : State) (l : Nat) : List (Nat × DirE) := s.dir.filter (fun e => s.sfSame e.1 l)

/-- Entries that open transactions will add to a line's set. -/
def State.sfComing (s : State) (l : Nat) : Nat := (s.txns.filter (fun t => s.needsEntry t.2.req && s.sfSame t.1 l)).length

def oldestDir : List (Nat × DirE) → Option (Nat × DirE)
  | [] => none
  | e :: r => match oldestDir r with
    | none => some e
    | some f => if f.2.age < e.2.age then some f else some e

def State.dropHead (s : State) (l : Nat) : State :=
  match s.hq.get [] l with
  | [] => s
  | _ :: rest => { s with hq := if rest = [] then s.hq.del l else s.hq.set l rest }

/-- The request at the head of a line's queue starts, or recalls an entry to make room. A burst starts when both its lines
are free (R230). A request that an agent sent before it was lost is discarded and counted with those that come later
(R208, R214; DEDUCED, log 80). -/
def State.tryLine (s : State) (l : Nat) : State :=
  if s.txns.has l then s
  else match s.hq.get [] l with
    | [] => s
    | r :: rest =>
      if r.a < 66 && s.isLost (s.homeOf l) r.a then (s.dropHead l).incFld .cohStatus (s.homeOf l) 0 16 16
      else if r.burst then
        (match s.hq.get [] (otherHalf l) with
         | q :: _ => if q.burst && !s.txns.has (otherHalf l) then (((s.dropHead l).dropHead (otherHalf l)).startTxn r none).startTxn q none else s
         | [] => s)
      else if s.needsEntry r && (s.sfMates l).length + s.sfComing l ≥ 16 then
        if s.txns.any (fun t => t.2.resume == some l) then s
        else match oldestDir ((s.sfMates l).filter (fun e => !s.txns.has e.1)) with
          | none => s
          | some (v, _) =>
            (s.incFld .sfStatus (s.homeOf v) 0 32 32).startTxn { kind := .recall, line := v } (some l)
      else ({ s with hq := if rest = [] then s.hq.del l else s.hq.set l rest }).startTxn r none

/-- Queued requests whose line is free start, in order. -/
def State.pumpHome (s : State) : Nat → State
  | 0 => s
  | n + 1 => State.pumpHome ((s.hq.map (·.1)).foldl (fun s1 l => s1.tryLine l) s) n

def State.pump (s : State) : State := s.pumpHome ((s.hq.map (fun e => e.2.length)).sum + 1)

/-- A request arrives at its home (R205). -/
def State.accept (s : State) (r : HReq) : State :=
  ({ s with hq := s.hq.set r.line (s.hq.get [] r.line ++ [r]) }).pump

/-- Both lines of a burst arrive at their home as one request (R230). -/
def State.acceptBurst (s : State) (r q : HReq) : State :=
  let put (s1 : State) (x : HReq) : State := { s1 with hq := s1.hq.set x.line (s1.hq.get [] x.line ++ [x]) }
  (put (put s r) q).pump

/- Requests of a cache (R199, R201, R204). -/

/-- Room for a line in PD's directory of 16 ways and 131,072 sets: the line of a full set that leaves is the one named, or
any that has no transaction (R196). None: none may leave. -/
def State.pdRoom (s : State) (l : Nat) (victim : Option Nat) : Option State :=
  let mates := if (s.cacheOf 64).lines.length < 16 then [] else
    (s.cacheOf 64).lines.filter (fun e => e.1 ≠ l && !e.2.st.inBuffer && Config.sfSet e.1 % 131072 == Config.sfSet l % 131072)
  if mates.length < 16 then some s
  else
    let free := (mates.map (·.1)).filter (fun k => !s.agentBusy 64 k)
    match free with
    | [] => none
    | k :: _ =>
      let (n, s1) := s.stamp
      let pick := at' free k ((Config.freeWord n).toNat % free.length)
      let v := match victim with | some x => if free.elem x then x else pick | none => pick
      some (s1.replaceLine 64 v)

/-- A load that misses: RdS, or a non-caching read where its class fills nothing. None: the miss waits. -/
def State.missLoad (s : State) (a l cls hint : Nat) (cause : Cause) (victim : Option Nat := none) : Option State :=
  let ask (s1 : State) : State :=
    (s1.setCline a l { st := .ISD, cause := cause }).send (.req { kind := .rds, a := a, line := l, hint := hint })
  if s.agentBusy a l then none
  else if a = 64 then (s.pdRoom l victim).map ask
  else if a ≥ 64 then some (ask s)
  else if s.wayMask a cls = 0 then
    match cause with
    | .ld tag => some (s.sendNc { kind := .rdnc, a := a, w := .op tag, line := l, hint := hint })
    | _ => some s
  else (s.allocTag a l cls).map ask

/-- A store, LL.D or SC.D that needs ownership: RdX from I, Upg from S or O, or a masked non-caching write where its
class fills nothing. None: it waits. -/
def State.missStore (s : State) (a l cls hint : Nat) (cause : Cause) (victim : Option Nat := none) : Option State :=
  let c := s.cline a l
  let ask (s1 : State) : State :=
    (s1.setCline a l { st := .IMD, cause := cause }).send (.req { kind := .rdx, a := a, line := l, hint := hint })
  let up (st : CSt) : Option State :=
    some (((if a < 64 then s.touchTag a l else s).setCline a l { c with st := st, cause := cause }).send
      (.req { kind := .upg, a := a, line := l, hint := hint }))
  if s.agentBusy a l then none
  else match c.st with
  | .S => up .SMA
  | .O => up .OMA
  | .I =>
    if a = 64 then (s.pdRoom l victim).map ask
    else if a ≥ 64 then some (ask s)
    else if s.wayMask a cls = 0 then
      (match cause with
       | .ld tag => some (s.sendNc { kind := .rdnc, a := a, w := .op tag, line := l, hint := hint })
       | .st sid =>
         (match s.sb.find? sid with
          | some e => some (({ s with sb := s.sb.set sid { e with sent := true } } : State).sendNc
              { kind := .wrnc, a := a, w := .store sid, line := l, hint := hint, mask := e.mask, data := e.data })
          | none => some s)
       | .none' => some s)
    else (s.allocTag a l cls).map ask
  | _ => none

/- Errors of the arrays (R185). -/

/-- A codeword of a line is checked as it is read: at a read of a request, or by the scrubber. -/
def State.memEcc (s : State) (l : Nat) (ecc : Ecc) (scrub : Bool) : State :=
  let m := s.homeOf l
  match ecc with
  | .good => s
  | .corrected => (s.incFld .memStatus m 0 16 16).wsReport (if isHbm (l * 128) then 0 else 1)
  | .uncorrectable =>
    let s1 : State := { s with poison := setPoison s.poison l true }
    let s2 := (s1.setFld .memStatus m 0 8 1 1).setReg .memUeAddr m 0 (BitVec.ofNat 64 (l * 128))
    if s2.ueSent.elem l then s2
    else ({ s2 with ueSent := s2.ueSent ++ [l] }).postQ evMemUe (9 + m) [(8, l * 128), (1, scrub.toNat), (1, m)]

/-- The check of a line of the arrays as it is read: what a command says that it finds, or else the error that the line
holds; a corrected line is written back, a poisoned one is marked, and the error is gone (R185). -/
def State.memCheck (s : State) (l : Nat) (ecc : Ecc := .good) (scrub : Bool := false) : State :=
  match if ecc = .good then s.errs.get .good l else ecc with
  | .good => s
  | e => ({ s with errs := s.errs.del l } : State).memEcc l e scrub

/-- A read of memory for a request: the line's check, where the memory-side cache does not hold it. -/
def State.readCheck (s : State) (l : Nat) : State := if s.msc.has l then s else s.memCheck l

/- Internal readers and writers, at one instant: non-caching agents and walkers. -/

/-- Result of an internal access: the line is in use and the access waits, a bus error, or data. -/
inductive MR where
  | wait
  | bus
  | ok (s : State) (data : Line) (poison : Bool)
deriving DecidableEq, Repr

def State.lineBusy (s : State) (l : Nat) : Bool := s.txns.has l || s.hq.has l

/-- Snoops answered in one go. -/
def State.snoopAll (s : State) (t : Txn) : List (Nat × SnpK) → State × Txn
  | [] => (s, t)
  | (a, k) :: r =>
    let (s1, ans) := s.snoop k a t.req.line
    State.snoopAll s1 (t.answer a (ans.getD (true, none))) r

/-- A non-caching request performed at its home at once (R206, R207). -/
def State.ncRequest (s : State) (r : HReq) : MR :=
  if !isLocal (r.line * 128) || !s.memOk then .bus
  else if s.lineBusy r.line then .wait
  else
    let (t0, snps) := s.openTxn r none
    let (s1, t) := s.snoopAll t0 snps
    let (s2, m) := if s1.needsMem t then
        (let s1 := s1.readCheck r.line
         if r.kind = .rdnc then (let (a, b, c) := s1.mscRead r.line r.hint; (a, b, c)) else (s1, s1.memPeek r.line))
      else (s1, (0, false))
    let (s3, _, _) := s2.finish t m
    .ok s3 (t.d.getD m).1 (t.d.getD m).2

def State.ncRead (s : State) (l hint : Nat) : MR := s.ncRequest { kind := .rdnc, line := l, hint := hint }
def State.ncWrite (s : State) (l : Nat) (mask : LMask) (d : Line) (p : Bool) (hint : Nat) : MR :=
  s.ncRequest { kind := .wrnc, line := l, mask := mask, data := d, poison := p, hint := hint }

/-- Room in the snoop filter for a line, by a recall at one instant. None: every entry of the set is in use. -/
def State.sfRoom (s : State) (l : Nat) : Option State :=
  if s.dir.length < 16 || s.dir.has l || (s.sfMates l).length + s.sfComing l < 16 then some s
  else match oldestDir ((s.sfMates l).filter (fun e => !s.lineBusy e.1)) with
    | none => none
    | some (v, _) => match (s.incFld .sfStatus (s.homeOf v) 0 32 32).ncRequest { kind := .recall, line := v } with
      | .ok s1 _ _ => some s1
      | _ => none

/-- A fetch, a page-table walk or a descriptor fetch of an agent: served by its cache, which the line fills under the class
(R197, R201, R243), or by the home where the class fills nothing. RdS, its grant and CmpAck take place at one instant
(DESIGN CHOICE, log 81). -/
def State.agentRead (s : State) (a l cls : Nat) : MR :=
  let c := s.cline a l
  if !isLocal (l * 128) || !s.memOk then .bus
  else if c.st.readable then .ok (if a < 64 then s.touchTag a l else s) c.data c.poison
  else if s.agentBusy a l || s.lineBusy l || s.linkWaits (agentDie a) l then .wait
  else if a < 64 && s.wayMask a cls == 0 then s.ncRead l 1
  else match (if a = 64 then s.pdRoom l none else s.allocTag a l cls) with
    | none => .wait
    | some s1 => match s1.sfRoom l with
      | none => .wait
      | some s2 =>
        let (t0, snps) := s2.openTxn { kind := .rds, a := a, line := l } none
        let (s3, t) := s2.snoopAll t0 snps
        let (s4, m) : State × (Line × Bool) := if s3.needsMem t then (let (x, y, z) := (s3.readCheck l).mscRead l 1; (x, y, z)) else (s3, (0, false))
        let (s5, out, _) := s4.finish t m
        match out with
        | .gnt _ _ excl d p :: _ => .ok (s5.setCline a l { st := if excl then .E else .S, data := d, poison := p }) d p
        | _ => .ok s5 (t.d.getD m).1 (t.d.getD m).2

/-- Bytes of a range within one line, written at the home. -/
def State.ncPut (s : State) (addr : Nat) (b : List Byte) (hint : Nat) : MR :=
  let i := addr % 128
  s.ncWrite (addr / 128) (maskAt i b.length) (lineAt i b.length (ofLeBytes b)) false hint

/- Records that the hardware writes. -/

/-- A record has been written: its index register moves; a host's event vector is sent when its ring had no unread record,
and a fault queue that was empty posts EV_FQ_PENDING (R252, R346, R347, R374). -/
def State.recordDone (s : State) (j : WrJob) : State :=
  let s1 := s.addFld j.kind j.idx 0 0 (if j.kind = RegKind.evrWidx then 32 else 64)
  if j.kind = .evrWidx ∧ j.idx = 0 then s1.wakeIdle
  else if j.kind = .evrWidx ∧ j.idx ≠ 0 ∧ s.reg .evrWidx j.idx 0 = s.reg .evrRidx j.idx 0 then
    s1.sendMsix (j.idx - 1) 0
  else if j.kind = .fqWidx ∧ s.reg .fqWidx j.idx 0 = s.reg .fqRidx j.idx 0 then
    s1.postQ evFqPending j.idx [(1, j.idx), (8, (s1.reg .fqWidx j.idx 0).toNat)]
  else s1

/-- A record goes to memory when its line is free, and then its index register moves (R251, R346, R397, R399). -/
def State.pumpRecords (s : State) : Nat → State
  | 0 => s
  | n + 1 =>
    match s.wq with
    | [] => s
    | j :: r =>
      match s.ncPut j.addr j.data 1 with
      | .wait => s
      | .bus => State.pumpRecords { s with wq := r } n
      | .ok s1 _ _ => State.pumpRecords (({ s1 with wq := r } : State).recordDone j) n

/-- Every record that can be written is written; one of a fault queue can bring three of events. -/
def State.pumpRec (s : State) : State := s.pumpRecords (4 * s.wq.length)

/-- A record joins the queue. -/
def State.putRecord (s : State) (j : WrJob) : State := (s.queueRecord j).pumpRec

/-- An event is posted (R346). -/
def State.post (s : State) (code source : Nat) (f : List (Nat × Nat)) : State := (s.postQ code source f).pumpRec

end Sys2Proof.Machine
end

