-- ==== Sys2Proof/Machine/Xlate.lean ====
section
/-! DEFINITION. Address translation: table entries, the walk, the TLBs and permission (11), and the kind of memory
that a translated access reaches (R167 to R169). -/

namespace Sys2Proof.Machine

inductive Need where
  | load | store | fetch
deriving DecidableEq, Repr

/-- Who translates: a processor core, or a compute-die core for an address space (R242). -/
inductive XWho where
  | core (n : Nat)
  | cd (c asid : Nat)
deriving DecidableEq, Repr

/-- A translation: a physical address with its type, the page's hint, whether the page may be written and the leaf's level
and TIER; a fault
with its details and walk level; or what a walk read met. -/
inductive XRes where
  | ok (s : State) (pa : Nat) (dev : Bool) (hint : Nat) (w : Bool) (leaf : Nat × Nat)
  | fault (s : State) (np perm attr : Bool) (level tier : Nat)
  | bus (s : State) (level : Nat)
  | poison (s : State) (level : Nat)
  | wait
deriving DecidableEq, Repr

/-- Region of a local address: its class (0 spread, 1 placed) and which (R177, R179, R180). -/
def State.region (s : State) (a : Nat) : Nat × Nat :=
  if isHbm a then
    let spread := 8 * (48 - s.pwr.hp) * gib
    if a < spread then (0, 0) else (1, (a - spread) / (s.pwr.hp * gib))
  else
    let b := a - 2 ^ 40
    let spread := 16 * (64 - s.pwr.sp) * gib
    if b < spread then (0, 100) else (1, 100 + (b - spread) / (s.pwr.sp * gib))

/-- Shift of a level's index, and its width (R241). -/
def lvlShift (level : Nat) : Nat := 47 - 11 * level
def lvlIndex (va level : Nat) : Nat := (va >>> lvlShift level) % (if level = 0 then 512 else 2048)

/-- Bits of an entry (R244). -/
def eBit (e i : Nat) : Bool := (e >>> i) % 2 == 1
def eRun (e : Nat) : Nat := (e >>> 11) % 8

/-- Base and size of what a leaf covers: its page, or the whole run (R246). -/
def leafRange (e level va : Nat) : Nat × Nat :=
  let page := 2 ^ lvlShift level
  let n := if eRun e = 0 then 1 else 2 ^ eRun e
  let k := lvlIndex va level % n
  let frame := ((e >>> 14) % 2 ^ 42) * 2 ^ 14
  ((frame + 2 ^ 56 - k * page) % 2 ^ 56, n * page)

/-- A range of physical addresses reaches into local memory; a run's range may go round the top. -/
def touchesLocal (a n : Nat) : Bool :=
  isLocal a || isLocal ((a + n - 1) % 2 ^ 56) || (a < 2 ^ 40 && 2 ^ 40 < a + n) || 2 ^ 56 < a + n

/-- Validity of an entry (R245): IC is 0 outside local memory, and what reaches into it lies wholly in a region of its class (R180). -/
def State.entryValid (s : State) (e level va : Nat) : Bool :=
  let frame := ((e >>> 14) % 2 ^ 42) * 2 ^ 14
  let (base, size) := leafRange e level va
  eBit e 0 && e >>> 58 == 0 &&
  (if eBit e 1 then
     level != 0 && !(eBit e 3 && !eBit e 2) && eRun e ≤ 4 && frame % 2 ^ lvlShift level == 0 &&
     (if touchesLocal base size then
        localRange base size && s.region base == s.region (base + size - 1) && (s.region base).1 == (eBit e 8).toNat
      else !eBit e 8)
   else
     level != 3 && (e >>> 2) % 2 ^ 12 == 0 && e >>> 56 == 0 && isLocal frame)

/-- The eight bytes at an address of a line that was read. -/
def word8 (d : Line) (a : Nat) : Nat := lineBytes d (a % 128) 8

inductive WRes where
  | leaf (s : State) (e level : Nat)
  | np (s : State) (level e : Nat)
  | bus (s : State) (level : Nat)
  | poison (s : State) (level : Nat)
  | wait
deriving DecidableEq, Repr

/-- Keys of the TLBs: the four of a processor core (L1 instruction, L1 data, L2), a compute-die core, a compute die,
and a cluster's walker. -/
def tlbL1 (n : Nat) (fetch : Bool) : Nat := 4 * n + (!fetch).toNat
def tlbL2 (n : Nat) : Nat := 4 * n + 2
def tlbCore (c : Nat) : Nat := 1000 + c
def tlbDie (d : Nat) : Nat := 2000 + d
def tlbWalk (k : Nat) : Nat := 3000 + k

/-- The walker keeps a non-leaf entry (R248). -/
def State.keepWalk (s : State) (wk level va asid next : Nat) : State :=
  let t := s.tlbs.get {} wk
  let e : WalkE := ⟨level, va >>> lvlShift level, asid, next⟩
  { s with tlbs := s.tlbs.set wk { t with ws := e :: t.ws.filter (· ≠ e) } }

/-- The walk of R243, from a level and its table; the first argument bounds the levels. -/
def State.walk (s : State) (agent wk asid va : Nat) : Nat → Nat → Nat → WRes
  | 0, level, _ => .np s level 0
  | n + 1, level, t =>
    let ea := t + 8 * lvlIndex va level
    match s.agentRead agent (ea / 128) 3 with
    | .wait => .wait
    | .bus => .bus s level
    | .ok s1 d p =>
      let e := word8 d ea
      if p then .poison s1 level
      else if !s1.entryValid e level va then .np s1 level e
      else if eBit e 1 then .leaf s1 e level
      else
        let next := ((e >>> 14) % 2 ^ 42) * 2 ^ 14
        State.walk (s1.keepWalk wk level va asid next) agent wk asid va n (level + 1) next

/-- The deepest cached non-leaf entry on the path: the level and table where a walk starts. -/
def State.walkStart (s : State) (wk asid va root : Nat) : Nat × Nat :=
  let ws := (s.tlbs.get {} wk).ws
  let at? (level : Nat) := ws.find? (fun e => e.level = level ∧ e.asid = asid ∧ e.path = va >>> lvlShift level)
  match at? 2 with
  | some e => (3, e.next)
  | none => match at? 1 with
    | some e => (2, e.next)
    | none => match at? 0 with
      | some e => (1, e.next)
      | none => (0, root)

/-- The TLB entry of a leaf. -/
def leafTlb (e level va asid : Nat) : TlbE :=
  let (base, size) := leafRange e level va
  { vpn := va / size, bits := size.log2, asid := asid, g := eBit e 6, frame := base,
    attr := e % 2 ^ 14 + ((e >>> 56) % 4) * 2 ^ 14 }

def TlbE.hits (t : TlbE) (va asid : Nat) : Bool := t.vpn == va >>> t.bits && (t.g || t.asid == asid)

/-- The entries of an 8-way TLB after one of them entered in front: the least recently used one of a set beyond eight
leaves. -/
def keepWays8 (sets : Nat) (e : TlbE) (r : List TlbE) : List TlbE :=
  let same (x : TlbE) : Bool := Config.tlbSet (x.vpn * 64 + x.bits) % sets == Config.tlbSet (e.vpn * 64 + e.bits) % sets
  if r.length < 8 || (r.filter same).length < 8 then e :: r
  else match (r.filter same).getLast? with
    | some v => e :: r.filter (fun x => x ≠ v)
    | none => e :: r

/-- An entry enters a TLB in front (R248): in a fully associative one the least recently used leaves when it is full; in one
of `sets` sets of eight ways it makes room in its set, whose index no rule gives (free, log 82). -/
def State.tlbFill (s : State) (k cap : Nat) (e : TlbE) (sets : Nat := 0) : State :=
  let t := s.tlbs.get {} k
  let r := t.es.filter (fun x => x ≠ e)
  { s with tlbs := s.tlbs.set k { t with es := if sets = 0 then (e :: r).take cap else keepWays8 sets e r } }

/-- The shared TLB of a compute die, and the second-level TLB of a processor core (R248). -/
def State.fillDie (s : State) (d : Nat) (e : TlbE) : State := s.tlbFill (tlbDie d) 8192 e 1024
def State.fillL2 (s : State) (n : Nat) (e : TlbE) : State := s.tlbFill (tlbL2 n) 2048 e 256

def State.tlbFind (s : State) (k va asid : Nat) : Option TlbE := (s.tlbs.get {} k).es.find? (fun e => e.hits va asid)

def State.tlbDrop (s : State) (k va asid : Nat) : State :=
  let t := s.tlbs.get {} k
  { s with tlbs := s.tlbs.set k { t with es := t.es.filter (fun e => !e.hits va asid) } }

/-- Permission of a leaf (R247): PERM and ATTR. -/
def permDenied (who : XWho) (lvl : Nat) (need : Need) (attr : Nat) : Option (Bool × Bool) :=
  let u := eBit attr 5
  let cd := match who with | .cd .. => true | .core _ => false
  let bitOk := match need with | .load => eBit attr 2 | .store => eBit attr 3 | .fetch => eBit attr 4
  let lvlOk := if cd || lvl == 0 then u else if need = .fetch then !u else true
  if !bitOk || !lvlOk then some (true, false)
  else if need = .fetch ∧ eBit attr 7 then some (false, true)
  else none

/-- A leaf's translation of an address. -/
def TlbE.apply (t : TlbE) (s : State) (who : XWho) (lvl : Nat) (need : Need) (va level : Nat) : XRes :=
  match permDenied who lvl need t.attr with
  | some (p, a) => .fault s false p a level (t.attr / 2 ^ 14)
  | none => .ok s (t.frame + va % 2 ^ t.bits) (eBit t.attr 7) ((t.attr / 2 ^ 9) % 4 + 1) (eBit t.attr 3) (level, t.attr / 2 ^ 14)

/-- Level of a leaf, from the bits that its entry covers. -/
def TlbE.level (t : TlbE) : Nat := if t.bits < 25 then 3 else if t.bits < 36 then 2 else 1

/-- Root of an address space on a compute die: the entry of the address-space table (R242). -/
def State.astRoot (s : State) (c asid : Nat) : WRes :=
  let d := c / 64
  if s.fld .xltAst d 0 0 1 = 0 then .np s 0 0
  else
    let ea := s.fld .xltAst d 0 19 37 * 2 ^ 19 + 8 * asid
    if !isLocal ea then .np s 0 0
    else match s.agentRead (c / 8) (ea / 128) 3 with
      | .wait => .wait
      | .bus => .bus s 0
      | .ok s1 w p =>
        let e := word8 w ea
        let root := ((e >>> 12) % 2 ^ 44) * 2 ^ 12
        if p then .poison s1 0
        else if e % 2 = 0 ∨ (e >>> 1) % 2 ^ 11 ≠ 0 ∨ e >>> 56 ≠ 0 ∨ !isLocal root then .np s1 0 0
        else .leaf s1 root 0

/-- A walk on a compute die, and its result in both TLBs. -/
def State.cdWalk (s : State) (c asid va : Nat) (need : Need) : XRes :=
  match s.astRoot c asid with
  | .wait => .wait
  | .bus s1 l => .bus s1 l
  | .poison s1 l => .poison s1 l
  | .np s1 l _ => .fault s1 true false false l 0
  | .leaf s1 root _ =>
    let wk := tlbWalk (c / 8)
    let (lv, t) := s1.walkStart wk asid va root
    match s1.walk (c / 8) wk asid va (4 - lv) lv t with
    | .wait => .wait
    | .bus s2 l => .bus s2 l
    | .poison s2 l => .poison s2 l
    | .np s2 l e => .fault s2 true false false l (if eBit e 0 && eBit e 1 then (e >>> 56) % 4 else 0)
    | .leaf s2 e l =>
      let te := leafTlb e l va asid
      te.apply ((s2.tlbFill (tlbCore c) 256 te).fillDie (c / 64) te) (.cd c asid) 0 need va l

/-- Translation of an address for a requester (R241 to R249). On a compute die a denial or a missing entry found in a
TLB is walked once more before it counts (R249). -/
def State.translate (s : State) (who : XWho) (need : Need) (va : Nat) : XRes :=
  match who with
  | .core n =>
    let lvl := s.lvl n
    let c := s.pd.get {} n
    if va ≥ 2 ^ 56 then .fault s true false false 0 0
    else if lvl = 2 ∨ !bit c.ptroot 0 then
      let dev := isMmio va || isPcie va
      if need = .fetch ∧ dev then .fault s false false true 0 0 else .ok s va dev 1 true (0, 0)
    else
      let asid := bits c.asid 0 16
      let l1 := tlbL1 n (need = .fetch)
      match s.tlbFind l1 va asid with
      | some e => e.apply (s.tlbFill l1 64 e) who lvl need va e.level
      | none => match s.tlbFind (tlbL2 n) va asid with
        | some e => e.apply ((s.tlbFill l1 64 e).fillL2 n e) who lvl need va e.level
        | none =>
          let s0 := s.count (512 + n) 0x105
          let root := bits c.ptroot 12 44 * 2 ^ 12
          if !isLocal root then .fault s0 true false false 0 0
          else
            let (lv, t) := s0.walkStart (tlbL2 n) asid va root
            match s0.walk 64 (tlbL2 n) asid va (4 - lv) lv t with
            | .wait => .wait
            | .bus s2 l => .bus s2 l
            | .poison s2 l => .poison s2 l
            | .np s2 l e => .fault s2 true false false l (if eBit e 0 && eBit e 1 then (e >>> 56) % 4 else 0)
            | .leaf s2 e l =>
              let te := leafTlb e l va asid
              te.apply ((s2.tlbFill l1 64 te).fillL2 n te) who lvl need va l
  | .cd c asid =>
    if va ≥ 2 ^ 56 || s.fld .xltAst (c / 64) 0 0 1 == 0 then .fault s true false false 0 0
    else match s.tlbFind (tlbCore c) va asid with
      | some e =>
        (match e.apply (s.tlbFill (tlbCore c) 256 e) who 0 need va e.level with
         | .fault s1 _ _ _ _ _ => ((s1.tlbDrop (tlbCore c) va asid).tlbDrop (tlbDie (c / 64)) va asid).cdWalk c asid va need
         | r => r)
      | none =>
        let s0 := s.count c 0x004
        match s0.tlbFind (tlbDie (c / 64)) va asid with
        | some e =>
          (match e.apply ((s0.tlbFill (tlbCore c) 256 e).fillDie (c / 64) e) who 0 need va e.level with
           | .fault s1 _ _ _ _ _ => ((s1.tlbDrop (tlbCore c) va asid).tlbDrop (tlbDie (c / 64)) va asid).cdWalk c asid va need
           | r => r)
        | none => s0.cdWalk c asid va need

/-- The memory that a translated access reaches (R167 to R169, R175). -/
def State.memKind (s : State) (pa : Nat) (dev : Bool) : CmpMem :=
  if isLocal pa then (if !s.memOk then .unmapped else if dev then .nc else .cached)
  else if isMmio pa then (if dev then .mmio else .unmapped)
  else if isPcie pa then .pcie
  else if isRemote pa then .remote
  else .unmapped

end Sys2Proof.Machine
end

