-- ==== Sys2Proof/Machine/Operands.lean ====
section
/-! DEFINITION. Operands of instructions: the registers of a thread (R17 to R20), the current path set of a group
(R58 to R60), the limits of a group's registers (R54), and addresses (R31). -/

namespace Sys2Proof.Machine

/- Registers of one thread. -/

/-- g[r]; g0 reads zero. A register not written since the start of a compute-die thread is a free value. -/
def Thr.getG (t : Thr) (r : Nat) : Word :=
  if r = 0 then 0
  else match t.g.find? r with
    | some v => v
    | none => match t.fill with | none => 0 | some k => Config.startReg k (t.lane * 128 + r)

/-- Writes to g0 are discarded (R17). -/
def Thr.setG (t : Thr) (r : Nat) (v : Word) : Thr := if r = 0 then t else { t with g := t.g.set r v }

def Thr.getF (t : Thr) (r : Nat) : Word :=
  match t.f.find? r with
  | some v => v
  | none => match t.fill with | none => 0 | some k => Config.startReg k (t.lane * 128 + 64 + r)

def Thr.setF (t : Thr) (r : Nat) (v : Word) : Thr := { t with f := t.f.set r v }

/-- A .S result clears bits 63 to 32 (R18). -/
def Thr.setFd (t : Thr) (d : Bool) (r v : Nat) : Thr := t.setF r (BitVec.ofNat 64 (if d then v else v % 2 ^ 32))
def Thr.getFd (t : Thr) (d : Bool) (r : Nat) : Nat := if d then (t.getF r).toNat else (t.getF r).toNat % 2 ^ 32

/-- p[i]; p0 reads 1 (R17). -/
def Thr.getP (t : Thr) (i : Nat) : Bool := i = 0 || t.p.getLsbD i
def Thr.setP (t : Thr) (i : Nat) (b : Bool) : Thr :=
  if i = 0 then t
  else { t with p := if b then t.p ||| BitVec.ofNat 8 (1 <<< i) else t.p &&& ~~~(BitVec.ofNat 8 (1 <<< i)) }

/-- Rounding mode, and sticky flags (R20). -/
def Thr.rm (t : Thr) : Nat := t.fpc.toNat % 4
def Thr.raise (t : Thr) (fl : Nat) : Thr := { t with fpc := t.fpc ||| BitVec.ofNat 32 fl }

/-- The exit address (R61). -/
def exitAddr : Word := 0xFFFFFFFFFFFFFFFC

/- Groups. -/

def gkey (c slot : Nat) : Nat := c * 64 + slot
def State.grp (s : State) (c slot : Nat) : Option Group := s.grps.find? (gkey c slot)
def State.setGrp (s : State) (c slot : Nat) (g : Group) : State := { s with grps := s.grps.set (gkey c slot) g }
def Group.lane (g : Group) (i : Nat) : Lane := at' g.lanes {} i
def Group.setLane (g : Group) (i : Nat) (x : Lane) : Group := { g with lanes := setAt g.lanes i x }
def Group.setThr (g : Group) (i : Nat) (t : Thr) : Group := g.setLane i { g.lane i with thr := t }

/-- Lanes that have not exited, and those of them that are not blocked (R59). -/
def Group.liveLanes (g : Group) : List Nat := (upTo g.width).filter (fun i => !(g.lane i).exited)
def Group.runLanes (g : Group) : List Nat := g.liveLanes.filter (fun i => (g.lane i).wait = .run)

def Group.pcOf (g : Group) (i : Nat) : Nat := (g.lane i).thr.pc.toNat

def minPc (g : Group) : List Nat → Nat
  | [] => 0
  | [i] => g.pcOf i
  | i :: r => min (g.pcOf i) (minPc g r)

/-- Lanes of the path set that executes: the lowest pc, or the set that a yield selected (R58, R60). Where that set diverges
its part with the lowest pc goes on (DESIGN CHOICE, log 83: R60 does not say which). -/
def Group.cur (g : Group) : List Nat :=
  let r := g.runLanes
  let y := r.filter (fun i => g.ycur.elem i)
  let base := if y.isEmpty then r else y
  let m := minPc g base
  base.filter (fun i => g.pcOf i = m)

/-- The pcs of the path sets that are not blocked, ascending. -/
def Group.pcs (g : Group) : List Nat := g.runLanes.foldl (fun acc i => insertN (g.pcOf i) acc) []

/-- A yield in force ends when its path set is blocked or merges (R60). -/
def Group.settle (g : Group) : Group :=
  let c := g.cur
  if g.ycur.isEmpty then g
  else if (g.runLanes.filter (fun i => g.ycur.elem i)).isEmpty then { g with ycur := [] }
  else match c with
    | [] => { g with ycur := [] }
    | i :: _ => if g.runLanes.any (fun j => !g.ycur.elem j && g.pcOf j == g.pcOf i) then { g with ycur := [] } else g

/-- The path set whose pc is p yields to the next one in pc order, wrapping (R60). -/
def Group.yieldFrom (g : Group) (p : Nat) : Group :=
  let ps := g.pcs
  if ps.length ≤ 1 then g
  else
    let nxt := match ps.filter (fun x => x > p) with | x :: _ => x | [] => (ps.head?).getD 0
    { g with ycur := g.runLanes.filter (fun i => g.pcOf i = nxt), last := [], back := 0 }

/-- The general and floating registers that an instruction names lie below the group's limits (R54). -/
def Group.regsOk (g : Group) (op : Op) : Bool := op.gRegs.all (· < g.gn) && op.fRegs.all (· < g.fn)

/-- Dispatch queue and address space of a group's launch (R242). -/
def State.launchOf (s : State) (lid : Nat) : Launch := s.launches.get {} lid
def State.asidOf (s : State) (lid : Nat) : Nat := (s.launchOf lid).asid

/- Units. -/

/-- Counter unit of an agent (R391). -/
def agUnit : Agent → Nat | .core n => 512 + n | .grp c _ => c

/-- The coherent agent whose cache an issuer uses (R194). -/
def agCache : Agent → Nat | .core _ => 64 | .grp c _ => c / 8

/-- Byte address of an access (R31). -/
def effAddr (t : Thr) (r : Nat) (off : Int) : Nat := (t.getG r + wordOfInt off).toNat

end Sys2Proof.Machine
end

