-- ==== Sys2Proof/Machine/Launch.lean ====
section
/-! DEFINITION. Faults and the end of a launch: trap entry on a processor core (R45), the fault queue of a compute die
(R250 to R255), the group fault (R49), the end of a launch (R77), of a channel (R142) and of a team (R61, R143), and
store errors (R235). -/

namespace Sys2Proof.Machine

/- Processor cores. -/

def State.core (s : State) (n : Nat) : PCore := s.pd.get {} n
def State.setCore (s : State) (n : Nat) (c : PCore) : State := { s with pd := s.pd.set n c }

/-- Entry to K or M (R45). The cause holds CODE, INT and the details of R48. A trap ends the reservation (R37). -/
def PCore.enter (c : PCore) (toM : Bool) (cause value : Word) : PCore :=
  let st := c.state
  let ie := bits st 2 1
  let lvl := bits st 0 2
  let thr := { c.thr with resv := none }
  if toM then
    { c with far := [], tpcM := c.thr.pc, whyM := cause, tinfoM := value, thr := { thr with pc := c.entryM },
             state := setBits (setBits (setBits (setBits st 10 1 ie) 2 1 0) 8 2 lvl) 0 2 2 }
  else
    { c with far := [], tpcK := c.thr.pc, whyK := cause, tinfoK := value, thr := { thr with pc := c.entryK },
             state := setBits (setBits (setBits (setBits st 6 1 ie) 2 1 0) 4 2 lvl) 0 2 1 }

/-- Level that takes an exception: M at M, and where sys.route does not send it to K (R45). -/
def PCore.takenAtM (c : PCore) (code : Nat) : Bool := bits c.state 0 2 == 2 || !bit c.route code

/-- An exception of an instruction on a processor core: code, details at bits 17 to 20 of the cause, and value. -/
def State.trap (s : State) (n code detail : Nat) (value : Word) : State :=
  let c := s.core n
  s.setCore n (c.enter (c.takenAtM code) (BitVec.ofNat 64 (code + detail * 2 ^ 17)) value)

/- Records and stalls of a fault queue. -/

/-- A record (R251). DETAIL: 1 NP, 2 PERM, 4 ATTR, 8 ACC, 16 write, 32 fetch, 64 channel, 128 TERMINAL. -/
def fqRecord (addr pc code detail unit asid slotLane level tier queue packet arg : Nat) : List Byte :=
  leBytes 8 addr ++ leBytes 8 pc ++ leBytes 2 code ++ leBytes 2 detail ++ leBytes 2 unit ++ leBytes 2 asid ++
  leBytes 2 slotLane ++ leBytes 1 level ++ leBytes 1 tier ++ leBytes 2 queue ++ leBytes 2 0 ++ leBytes 8 packet ++
  leBytes 8 arg ++ leBytes 16 0

def State.fq (s : State) (d : Nat) : FqS := s.fqs.get {} d
def State.setFq (s : State) (d : Nat) (f : FqS) : State := { s with fqs := s.fqs.set d f }

/-- Index of the next record, those on their way included. -/
def State.fqNext (s : State) (d : Nat) : Nat := (s.reg .fqWidx d 0).toNat + s.recordsOut .fqWidx d

def State.fqUnread (s : State) (d : Nat) : Nat := s.fqNext d - (s.reg .fqRidx d 0).toNat

/-- The queue takes a record (R254). -/
def State.fqRoom (s : State) (d : Nat) : Bool := s.fqUnread d < 1024 && s.fld .fqBase d 0 0 1 == 1 && s.memOk

/-- FULL follows its condition, and its rise posts EV_FQ_OVERFLOW (R254, R256). -/
def State.fqFull (s : State) (d : Nat) : State :=
  let full : Bool := s.fqUnread d ≥ 1024 ||
    ((s.fld .fqBase d 0 0 1 == 0 || !s.memOk) && (s.fq d).stalled.any (fun x => x.token.isNone))
  let was := s.fld .fqStatus d 0 0 1
  let s1 := s.setFld .fqStatus d 0 0 1 full.toNat
  if full && was == 0 then s1.post evFqOverflow d [(1, d), (4, s1.fld .fqStatus d 0 32 32)] else s1

/-- A record goes into a ring that has room (R251, R252). -/
def State.fqPut (s : State) (d : Nat) (rcd : List Byte) : State :=
  (s.putRecord ⟨.fqWidx, d, s.fld .fqBase d 0 16 40 * 2 ^ 16 + 64 * (s.fqNext d % 1024), rcd⟩).fqFull d

/-- A TERMINAL record: the ring, else the holding buffer of 16, else dropped (R254). -/
def State.fqTerminal (s : State) (d : Nat) (rcd : List Byte) : State :=
  let f := s.fq d
  if s.fqRoom d && f.hold.isEmpty then s.fqPut d rcd
  else if f.hold.length < 16 then s.setFq d { f with hold := f.hold ++ [rcd] }
  else s.incFld .fqStatus d 0 8 8

/-- Held TERMINAL records enter when there is room. -/
def State.fqDrain (s : State) (d : Nat) : Nat → State
  | 0 => s.fqFull d
  | n + 1 =>
    match (s.fq d).hold with
    | [] => s.fqFull d
    | r :: rest => if s.fqRoom d then State.fqDrain ((s.setFq d { s.fq d with hold := rest }).fqPut d r) d n else s.fqFull d

/-- A requester stalls: with its record's index as token, or counted in OVFCNT when no record can be made
(R250, R254, R255). -/
def State.fqStall (s : State) (d : Nat) (r : Requester) (va : Nat) (upcall : Bool) (rcd : List Byte) (what : Nat := 0)
    (len : Nat := 4) : State :=
  let dl := s.now + s.fld .fqDeadline d 0 0 20 * 1000
  let add (s1 : State) (tok : Option Nat) : State :=
    s1.setFq d { s1.fq d with stalled := (s1.fq d).stalled ++ [⟨r, tok, dl, s.now, va, upcall, what, len, rcd⟩] }
  if s.fqRoom d then (add s (some (s.fqNext d % 2 ^ 32))).fqPut d rcd
  else (add (s.incFld .fqStatus d 0 32 32) none).fqFull d

/-- Requesters of a launch no longer stall, and FULL follows. -/
def State.fqForget (s : State) (p : Requester → Bool) : State :=
  s.fqs.foldl (fun s1 e =>
    if e.2.stalled.any (fun x => p x.r) then
      (s1.setFq e.1 { s1.fq e.1 with stalled := (s1.fq e.1).stalled.filter (fun x => !p x.r) }).fqFull e.1
    else s1) s

/- Channels and teams. -/

def State.coreS (s : State) (c : Nat) : CoreS := s.cores.get {} c
def State.setCoreS (s : State) (c : Nat) (k : CoreS) : State := { s with cores := s.cores.set c k }
def State.chan (s : State) (c ch : Nat) : Chan := (s.coreS c).chans.get {} ch
def State.setChan (s : State) (c ch : Nat) (x : Chan) : State :=
  s.setCoreS c { s.coreS c with chans := (s.coreS c).chans.set ch x }
def State.slot (s : State) (c i : Nat) : TSlot := (s.coreS c).slots.get {} i
def State.setSlot (s : State) (c i : Nat) (x : TSlot) : State :=
  s.setCoreS c { s.coreS c with slots := (s.coreS c).slots.set i x }
def State.eng (s : State) (e : Nat) : Engine := s.engs.get {} e
def State.setEng (s : State) (e : Nat) (x : Engine) : State := { s with engs := s.engs.set e x }

/- Lookups of the sequence directory that channels have sent (R151). -/

/-- Lookups that a record read before now, and that have not been delivered. -/
def State.openLooks (s : State) (ctx : Nat) : List Nat := (s.seq.looks.filter (fun l => l.ctx = ctx ∧ l.st = 1)).map (·.n)
def State.looksDone (s : State) (ns : List Nat) : Bool := ns.all (fun n => !s.seq.looks.any (fun l => l.n = n && l.st ≤ 1))

/-- Events of migrations whose lookups are complete, or dropped (R159). -/
def State.migEvents (s : State) : State :=
  let ready (e : SeqEv) : Bool := e.mig && s.looksDone e.waits
  (s.seq.evs.filter ready).foldl
    (fun s1 e => s1.post evSeqMigrateDone (9 + e.ctx / 65536) [(4, e.ctx), (8, e.seqid), (2, 0), (4, 0), (4, 0)])
    { s with seq := { s.seq with evs := s.seq.evs.filter (fun e => !ready e) } }

/-- Lookups that nobody awaits any more leave. -/
def State.dropLooks (s : State) (p : Lookup → Bool) : State :=
  ({ s with seq := { s.seq with looks := s.seq.looks.filter (fun l => !p l) } } : State).migEvents

/-- STATE of a channel: 0 IDLE, 1 RUN, 2 DRAIN, 3 HALTED. -/
def State.chState (s : State) (c ch : Nat) : Nat := s.fld .tsChStatus c ch 0 2

/-- A team's resources are released when its groups have exited and its channels have ended (R61, R143). -/
def State.tryRelease (s : State) (tid : Nat) : State :=
  match s.teams.find? tid with
  | none => s
  | some t =>
    if !t.live.isEmpty || (upTo 8).any (fun ch => (s.chan t.c ch).team == some tid) then s
    else
      let l := s.launchOf t.lid
      { s with teams := s.teams.del tid, launches := s.launches.set t.lid { l with live := l.live - 1 } }

/-- No tile access and no engine operation of a channel is in flight. -/
def State.chQuiet (s : State) (c ch : Nat) : Bool :=
  s.trd.all (fun e => e.2.c ≠ c || e.2.ch ≠ ch) && s.twr.all (fun e => e.2.c ≠ c || e.2.ch ≠ ch) &&
  (upTo 4).all (fun i => (s.eng (4 * c + i)).busy.all (fun o => o.ch ≠ ch))

/-- An engine's binding ends (R95). -/
def State.unbindEng (s : State) (e : Nat) : State := (s.setEng e { s.eng e with owner := none }).setReg .mxBind e 0 0

/-- Every binding of a channel ends. -/
def State.unbindAll (s : State) (c ch : Nat) : State :=
  (upTo 4).foldl (fun s1 i => if (s1.eng (4 * c + i)).owner = some ch then s1.unbindEng (4 * c + i) else s1) s

/-- A channel's program ends: its engines are unbound, its state and status are set, and it leaves its team (R127,
R136, R142, R143). -/
def State.endChan (s : State) (c ch st status : Nat) : State :=
  let x := s.chan c ch
  let s1 := (s.unbindAll c ch).setChan c ch
    { x with team := none, acc := [], exe := [], ending := false, halt := none, cancel := none, stall := [], fetching := false, fetched := none }
  let s2 := (((s1.setFld .tsChStatus c ch 0 2 st).setFld .tsChStatus c ch 16 16 status).setReg .tsChPc c ch
    (BitVec.ofNat 64 x.lastDesc)).dropLooks (fun l => l.c == c && l.ch == ch)
  match x.team with
  | some tid => s2.tryRelease tid
  | none => s2

/-- A cancelled or halted channel ends once its tile accesses in flight and its engine operations are complete. -/
def State.chSettle (s : State) (c ch : Nat) : State :=
  let x := s.chan c ch
  if !s.chQuiet c ch then s
  else match x.cancel, x.halt with
  | some status, _ => s.endChan c ch 0 status
  | none, some status => s.endChan c ch 3 status
  | none, none => s

/-- The cancel of a channel (R142, R143): what has not issued never issues, reads in flight are abandoned and their
slots become EMPTY, engine operations not started are dropped; issued writes and started operations finish first. -/
def State.cancelChan (s : State) (c ch status : Nat) : State :=
  let mine (r : TileRd) : Bool := r.c == c && r.ch == ch
  let x := s.chan c ch
  let s1 := (s.trd.filter (fun e => mine e.2)).foldl (fun s1 e => s1.setSlot c e.2.slot { s1.slot c e.2.slot with st := 0 }) s
  let s2 := { s1 with
    trd := s1.trd.filter (fun e => !mine e.2),
    twr := (s1.twr.filter (fun (e : Nat × TileWr) => !(e.2.c == c && e.2.ch == ch && e.2.look))).map
      (fun (e : Nat × TileWr) => if e.2.c = c ∧ e.2.ch = ch then (e.1, { e.2 with free := false }) else e) }
  let s3 := ((s2.dropLooks (fun l => l.c == c && l.ch == ch)).setChan c ch { x with acc := [], exe := [], ending := false, halt := none, cancel := some status, stall := [] }).setFld
    .tsChStatus c ch 0 2 2
  (s3.fqForget (fun r => r == Requester.chan c ch)).chSettle c ch

/-- Whether a channel still has work to do. -/
def State.chanBusy (s : State) (c ch : Nat) : Bool := s.chState c ch == 1 || s.chState c ch == 2

/- Launches. -/

def State.setLaunch (s : State) (lid : Nat) (l : Launch) : State := { s with launches := s.launches.set lid l }

/-- A group leaves its core: its pending instruction and its place in the fault queue go; its buffered stores and the
requests of an atomic stay and are performed (R77, R237). -/
def State.dropGroup (s : State) (c slot : Nat) : State :=
  match s.grp c slot with
  | none => s
  | some g =>
    let s1 : State := match g.op with | some t => { s with ops := s.ops.del t } | none => s
    ({ s1 with grps := s1.grps.del (gkey c slot) }).fqForget (fun r => r == Requester.grp c slot)

/-- A group of a launch that has ended leaves at its next instruction boundary (R77): at once, or when its instruction in
flight is complete. -/
def State.stopGroup (s : State) (c slot : Nat) : State :=
  match s.grp c slot with
  | none => s
  | some g => if g.op.isNone && g.barrier.isNone then s.dropGroup c slot else s.setGrp c slot { g with stop := true }

/-- A group that was to stop has done so. -/
def State.stopDone (s : State) (c slot tid : Nat) : State :=
  let s1 := s.dropGroup c slot
  match s1.teams.find? tid with
  | none => s1
  | some t => ({ s1 with teams := s1.teams.set tid { t with live := t.live.filter (· ≠ slot) } } : State).tryRelease tid

/-- Every group of a launch stops, its channels end, its teams leave (R77); a channel that has halted finishes its
started work first (R136, R422). -/
def State.stopLaunch (s : State) (lid : Nat) : State :=
  let s1 := (s.grps.filter (fun e => e.2.lid = lid)).foldl (fun s1 e => s1.stopGroup (e.1 / 64) (e.1 % 64)) s
  let ts := s1.teams.filter (fun e => e.2.lid = lid)
  let s2 := ts.foldl (fun s2 e =>
    { s2 with teams := s2.teams.set e.1 { e.2 with live := e.2.live.filter (fun sl => (s1.grp e.2.c sl).isSome) } }) s1
  let s3 := ts.foldl (fun s3 e =>
    (upTo 8).foldl (fun s4 ch =>
      let x := s4.chan e.2.c ch
      if x.team = some e.1 ∧ x.halt = none ∧ s4.chanBusy e.2.c ch then s4.cancelChan e.2.c ch 0x0202 else s4) s3) s2
  ts.foldl (fun s4 e => s4.tryRelease e.1) s3

/- Dispatch queues. -/

def State.queue? (s : State) (q : Nat) : Option Queue := s.queues.find? q
def State.setQueue (s : State) (q : Nat) (x : Queue) : State := { s with queues := s.queues.set q x }

def State.packetLine (s : State) (q : Nat) (x : Queue) : Nat := x.ring / 128 + (s.reg .dqRidx q 0).toNat % 2 ^ x.log2

/-- A packet is consumed: its header is zeroed, then the read index advances and is stored (R68, R71). None: a line is
in use. -/
def State.consume (s : State) (q : Nat) (x : Queue) (lid : Nat) : Option State :=
  match s.ncPut (s.packetLine q x * 128) [0, 0] 1 with
  | .wait => none
  | .bus => none
  | .ok s1 _ _ =>
    let n := s.reg .dqRidx q 0 + 1
    match s1.ncPut x.ridxAddr (leBytes 8 n.toNat) 1 with
    | .wait => none
    | .bus => none
    | .ok s2 _ _ =>
      some (((s2.setReg .dqRidx q 0 n).setQueue q { x with cur := none }).setLaunch lid { s2.launchOf lid with consumed := true })

/-- The packet of a launch that ended while its teams were being started is consumed: its other teams never start (R77,
R79). Where a line is in use it stays, and its completion or the next look at its queue tries again. -/
def State.endPacket (s : State) (lid : Nat) : State :=
  let l := s.launchOf lid
  match s.queue? l.q with
  | none => s
  | some x => if l.ended && !l.consumed && x.cur == some lid then (s.consume l.q x lid).getD s else s

/-- A launch ends: 0 faulted, 1 cancelled (R76, R77, R79). -/
def State.endLaunch (s : State) (lid : Nat) (cancel : Bool) : State :=
  let l := s.launchOf lid
  let l1 := if cancel then { l with ended := true, cancelled := true } else { l with ended := true, faulted := true }
  ((s.setLaunch lid l1).stopLaunch lid).endPacket lid

/-- Packet index and queue of a launch, for records. -/
def groupRecord (s : State) (c slot : Nat) (g : Group) (lane addr pc code detail level tier arg : Nat) : List Byte :=
  let l := s.launchOf g.lid
  fqRecord addr pc code detail c (s.asidOf g.lid) (slot + lane * 64) level tier l.q l.pkt arg

/-- A group fault (R49): a TERMINAL record, and the end of the launch (R77). -/
def State.groupFault (s : State) (c slot lane code addr pc detail level tier : Nat) : State :=
  match s.grp c slot with
  | none => s
  | some g =>
    let rcd := groupRecord s c slot g lane addr pc code (detail ||| 128) level tier 0
    (s.fqTerminal (c / 64) rcd).endLaunch g.lid false

/-- A translation fault or UPCALL of a group: it stalls in the fault queue (R250). -/
def State.groupStall (s : State) (c slot lane code addr pc detail level tier arg : Nat) (upcall : Bool) (act : Nat := 0)
    (len : Nat := 4) : State :=
  match s.grp c slot with
  | none => s
  | some g =>
    let rcd := groupRecord s c slot g lane addr pc code detail level tier arg
    (s.setGrp c slot { g with stalled := true }).fqStall (c / 64) (.grp c slot) addr upcall rcd act len

/- Stores that fail (R234, R235). -/

/-- A store of a unit ends with a bus error: a processor core records it and will take BUS_ERROR at its next
boundary, or sets OVF while V = 1; a group will take a group fault; an issuer that is gone is counted, or its launch is
faulted. -/
def State.storeError (s : State) (e : SbE) : State :=
  if e.word then
    (match e.launch, e.u with
     | some lid, .grp c _ =>
       let l := s.launchOf lid
       s.fqTerminal (c / 64) (fqRecord e.va 0 8 (16 + 128) c (s.asidOf lid) 0 0 0 l.q l.pkt 0)
     | _, _ => s)
  else match e.u with
  | .core n =>
    if e.orphan then s.incFld .ordStatus 0 0 24 16
    else if s.fld .serrStatus n 0 0 1 = 1 then s.setFld .serrStatus n 0 1 1 1
    else
      let s1 := s.setReg .serrStatus n 0 (BitVec.ofNat 64 (1 + (s.fld .serrStatus n 0 1 1) * 2 + e.lvl * 4))
      let s2 := (s1.setReg .serrAddr n 0 (BitVec.ofNat 64 e.pa)).setReg .serrPc n 0 e.pc
      s2.setCore n { s2.core n with serr := [⟨e.va, e.pa, e.pc, e.lvl, 0, e.leaf⟩] }
  | .grp c slot =>
    if e.orphan then s.incFld .ordStatus 0 0 24 16
    else match s.grp c slot, e.launch with
      | some g, some lid =>
        if g.lid = lid && !g.stop then s.setGrp c slot { g with serr := g.serr ++ [⟨e.va, e.pa, e.pc, 0, e.lane, e.leaf⟩] }
        else s.setLaunch lid { s.launchOf lid with faulted := true }
      | none, some lid => s.setLaunch lid { s.launchOf lid with faulted := true }
      | _, none => s

end Sys2Proof.Machine
end

