-- ==== Sys2Proof/WellFormed.lean ====
section
/-! DEFINITION. The ranges of the operands: the unit numbers of R9 and the widths of the fields. -/

namespace Sys2Proof

/-- A processor core 0-63, or a slot 0-63 of a core 0-511 (R9, R56). -/
def Agent.wf : Agent → Bool
  | .core n => n < 64
  | .grp c slot => c < 512 && slot < 64

/-- Every field of a packet header fits its bits (R284), and the payload is at most 512 B. -/
def Pkt.wf (k : Pkt) : Bool :=
  k.dst < 2 ^ 14 && k.src < 2 ^ 14 && k.tc < 8 && k.epoch < 2 && k.op < 256 && k.hops < 8 && k.via < 512 &&
  k.offset < 2 ^ 41 && k.group < 4096 && k.ccount < 2 ^ 14 && k.tag < 2 ^ 16 && k.tstamp < 2 ^ 16 &&
  k.status < 256 && k.hint < 8 && k.scope < 8 && k.data.length ≤ 512

def FlitHdr.wf (h : FlitHdr) (col : Bool) : Bool :=
  h.seq < (if col then 65536 else 4096) && h.ack < (if col then 65536 else 4096) && h.epoch < 256 && h.vc < 8 && h.cred < 32

def Requester.wf : Requester → Bool
  | .grp c slot => c < 512 && slot < 64
  | .chan c ch => c < 512 && ch < 8
  | .word d q _ => d < 8 && q < 1024

def Who.wf : Who → Bool
  | .tileR _ ln => ln < 68
  | .tileW _ ln => ln < 68
  | .desc c ch => c < 512 && ch < 8
  | _ => true

/-- A register access is of 1, 2, 4 or 8 bytes, aligned (R421). -/
def accessWf (addr size : Nat) : Bool := (size == 1 || size == 2 || size == 4 || size == 8) && addr % size == 0

end Sys2Proof
end

