-- ==== Sys2Proof/Machine/Issue.lean ====
section
/-! DEFINITION. Issuing an instruction on a unit: readiness, fetch, decoding, guards, exceptions, the path sets of a
group and retirement (R21 to R27, R45 to R50, R57 to R61, R391, R399). -/

namespace Sys2Proof.Machine

/-- A unit at an instruction: the path set's lanes, those whose guard is true, the pc and the length. -/
structure UCtx where
  u : Agent
  pc : Word
  len : Nat
  all : List Nat
  act : List Nat
  iw : IWord
deriving DecidableEq, Repr

def State.thr (s : State) (u : Agent) (i : Nat) : Thr :=
  match u with
  | .core n => (s.core n).thr
  | .grp c slot => match s.grp c slot with | some g => (g.lane i).thr | none => {}

def State.setThr (s : State) (u : Agent) (i : Nat) (t : Thr) : State :=
  match u with
  | .core n => s.setCore n { s.core n with thr := t }
  | .grp c slot => match s.grp c slot with | some g => s.setGrp c slot (g.setThr i t) | none => s

/- Group housekeeping. -/

/-- GBAR: every live lane has arrived, and all go on (R64). -/
def Group.tryGbar (g : Group) : Group :=
  let live := g.liveLanes
  if live.isEmpty || !live.all (fun i => (g.lane i).wait = .gbar) then g
  else live.foldl (fun g1 i =>
    let x := g1.lane i
    g1.setLane i { x with wait := .run, thr := { x.thr with pc := x.thr.pc + 8 } }) g

/-- A matrix instruction's path sets have met: they are ready (R103). -/
def Group.tryMat (g : Group) : Group :=
  let live := g.liveLanes
  match live with
  | [] => g
  | i :: _ =>
    if live.any (fun j => (g.lane j).wait = .mat) &&
       live.all (fun j => ((g.lane j).wait = .mat || (g.lane j).wait = .run) && g.pcOf j == g.pcOf i) then
      live.foldl (fun g1 j => g1.setLane j { g1.lane j with wait := .run }) g
    else g

/-- R104: every path set blocked, one at a matrix instruction, and not all lanes at the same one. -/
def Group.divergent (g : Group) : Bool :=
  let live := g.liveLanes
  !live.isEmpty && live.all (fun i => (g.lane i).wait ≠ .run && (g.lane i).wait ≠ .dbg) &&
  live.any (fun i => (g.lane i).wait = .mat) &&
  !(match live with
    | [] => true
    | i :: _ => live.all (fun j => (g.lane j).wait = .mat && g.pcOf j == g.pcOf i))

/-- A group has arrived at TBAR (R65). -/
def Group.atTbar (g : Group) : Bool := !g.liveLanes.isEmpty && g.liveLanes.all (fun i => (g.lane i).wait = .tbar)

/-- TBAR: every group of the team that has not exited has arrived (R65). -/
def State.tryTbar (s : State) (tid : Nat) : State :=
  match s.teams.find? tid with
  | none => s
  | some t =>
    if t.live.isEmpty || !t.live.all (fun sl => match s.grp t.c sl with | some g => g.atTbar | none => true) then s
    else t.live.foldl (fun s1 sl => match s1.grp t.c sl with
      | none => s1
      | some g => s1.setGrp t.c sl { g with lanes := g.lanes.map (fun x =>
          if x.wait = .tbar then { x with wait := .run, thr := { x.thr with pc := x.thr.pc + 8 } } else x) }) s

/-- A group all of whose lanes have exited leaves its team; the last one ends the channels that the team still holds
(R61, R143). -/
def State.groupExit (s : State) (c slot : Nat) (g : Group) : State :=
  let s1 := s.dropGroup c slot
  match s1.teams.find? g.team with
  | none => s1
  | some t =>
    let t1 := { t with live := t.live.filter (· ≠ slot) }
    let s2 := { s1 with teams := s1.teams.set g.team t1 }
    if t1.live.isEmpty then
      let open' := (upTo 8).filter (fun ch => (s2.chan c ch).team = some g.team && s2.chanBusy c ch)
      let s3 := if open'.isEmpty then s2 else s2.setLaunch t.lid { s2.launchOf t.lid with cancelled := true }
      ((open'.foldl (fun s4 ch => s4.cancelChan c ch 0x0202) s3)).tryRelease g.team
    else s2.tryTbar g.team

/-- After an instruction: exits, barriers, matrix convergence, DIVERGENT_MATRIX and the yield in force; a group whose launch
has ended leaves (R77). -/
def State.settle (s : State) (c slot : Nat) : State :=
  match s.grp c slot with
  | none => s
  | some g0 =>
    let g := (g0.tryGbar.tryMat).settle
    if g.stop && g.op.isNone && g.barrier.isNone then s.stopDone c slot g.team
    else if g.liveLanes.isEmpty && g.op.isNone && g.barrier.isNone && g.serr.isEmpty then (s.setGrp c slot g).groupExit c slot g
    else if g.divergent then
      let lo := (g.liveLanes.head?).getD 0
      let hi := (g.liveLanes.getLast?).getD 0
      (s.setGrp c slot g).groupFault c slot lo 0x000D (g.pcOf hi) (g.pcOf lo) 0 0 0
    else
      let s1 := s.setGrp c slot g
      if g.atTbar then s1.tryTbar g.team else s1

/-- Lanes of a core's groups that wait at a hand-off instruction try again. -/
def State.wakeHand (s : State) (c : Nat) : State :=
  { s with grps := s.grps.map (fun e =>
      if e.1 / 64 = c then (e.1, { e.2 with lanes := e.2.lanes.map (fun x => if x.wait = .hand then { x with wait := .run } else x) })
      else e) }

/- Exceptions. -/

/-- Sample record of a tagged instruction (R399); what only timing decides is a free value. -/
def State.sample (s : State) (unit : Nat) (t : TagI) (asid : Nat) (retired : Bool) (src : Nat) : State :=
  let ring := s.fld .sbase 0 0 0 5
  let base := s.fld .sbase 0 0 6 50 * 64
  let n := (s.reg .swidx 0 0).toNat + s.recordsOut .swidx 0
  let (k, s1) := s.stamp
  let free (i : Nat) : Nat := (Config.freeWord (k + i * 2 ^ 32)).toNat % 2 ^ 16
  let flags := retired.toNat + 2 * (!retired).toNat + 4 * t.mem.toNat + 8 * t.tlb.toNat + 16 * src
  let rcd := leBytes 8 t.pc.toNat ++ leBytes 8 t.va ++ leBytes 8 s.now ++ leBytes 2 unit ++ leBytes 2 flags ++
    leBytes 2 asid ++ leBytes 1 t.lanes ++ leBytes 1 0 ++ leBytes 2 (free 0) ++ leBytes 2 (free 1) ++
    leBytes 2 (free 2) ++ leBytes 2 (free 3) ++ leBytes 4 t.iw.word.toNat ++
    leBytes 4 (match t.iw.pre with | some p => p.toNat | none => 0) ++ leBytes 16 0
  if n - (s.reg .sridx 0 0).toNat < 2 ^ ring && s.memOk then s1.putRecord ⟨.swidx, 0, base + 64 * (n % 2 ^ ring), rcd⟩
  else s1.incFld .sstatus 0 0 0 32

def State.tagOf (s : State) (u : Agent) : Option TagI :=
  match u with | .core n => (s.core n).tagged | .grp c _ => (s.coreS c).tagged

def State.setTag (s : State) (u : Agent) (t : Option TagI) : State :=
  match u with
  | .core n => if (s.core n).tagged = t then s else s.setCore n { s.core n with tagged := t }
  | .grp c _ => if (s.coreS c).tagged = t then s else s.setCoreS c { s.coreS c with tagged := t }

def agSlot : Agent → Nat | .core _ => 0 | .grp _ sl => sl

def State.unitAsid (s : State) (u : Agent) : Nat :=
  match u with
  | .core n => bits (s.core n).asid 0 16
  | .grp c sl => match s.grp c sl with | some g => s.asidOf g.lid | none => 0

/-- The tagged instruction of a unit retires or is discarded. -/
def State.untag (s : State) (u : Agent) (retired : Bool) : State :=
  match s.tagOf u with
  | none => s
  | some t => if t.slot = (agSlot u) then (s.setTag u none).sample (agUnit u) t (s.unitAsid u) retired t.src else s

/-- The LFSR x^24 + x^23 + x^22 + x^17 + 1 (R399), shifting towards its high end. -/
def lfsrNext (l : Nat) : Nat := (2 * l + ((l >>> 23) + (l >>> 22) + (l >>> 21) + (l >>> 16)) % 2) % 2 ^ 24

/-- A core that tags steps its generator at each instruction it issues (R399). -/
def State.tagIssue (s : State) (x : UCtx) : State :=
  let k := (agUnit x.u)
  if s.fld .pmuTag k 0 0 1 = 0 then s
  else
    let l := lfsrNext (s.fld .pmuTag k 0 6 24)
    let s1 := s.setFld .pmuTag k 0 6 24 l
    let m := 2 ^ s.fld .pmuTag k 0 1 5
    if l % m = m - 1 ∧ (s.tagOf x.u).isNone then
      s1.setTag x.u (some { slot := (agSlot x.u), pc := x.pc, iw := x.iw, lanes := max 1 x.act.length })
    else s1

/-- Slots of an instruction: two for a group of width 64 (R393). -/
def State.slotsOf (s : State) (u : Agent) : Nat :=
  match u with
  | .core _ => 1
  | .grp c sl => match s.grp c sl with | some g => if g.width = 64 then 2 else 1 | none => 1

/-- Slots of an instruction that does not retire count as WASTE (R393). -/
def State.waste (s : State) (u : Agent) : State := s.useSlots (agUnit u) 3 (s.slotsOf u)

/-- An exception of an instruction: DETAIL 1 NP, 2 PERM, 4 ATTR, 8 ACC, 16 write, 32 fetch. On a processor core it is
taken (R45); a group takes a group fault (R49). -/
def State.raise (s : State) (x : UCtx) (lane code detail : Nat) (addr : Word) (level tier : Nat) : State :=
  let s1 := (s.waste x.u).untag x.u false
  match x.u with
  | .core n => s1.trap n code (detail % 16) addr
  | .grp c slot => s1.groupFault c slot lane code addr.toNat x.pc.toNat detail level tier

/-- A translation fault: a group stalls, except for ATTR (R49, R250). -/
def State.raiseXlate (s : State) (x : UCtx) (lane : Nat) (need : Need) (np perm attr acc : Bool) (addr level tier : Nat) : State :=
  let code := match need with | .fetch => 4 | .load => 5 | .store => 6
  let detail := np.toNat + 2 * perm.toNat + 4 * attr.toNat + 8 * acc.toNat +
    (match need with | .store => 16 | .fetch => 32 | .load => 0)
  match x.u with
  | .core _ => s.raise x lane code detail (BitVec.ofNat 64 addr) level tier
  | .grp c slot =>
    if attr then s.raise x lane code detail (BitVec.ofNat 64 addr) level tier
    else ((s.waste x.u).untag x.u false).groupStall c slot lane code addr x.pc.toNat detail level tier 0 false

/-- The instruction word that tinfo holds: the base word in bits 31:0; of a long form the prefix in bits 31:0 and the base
word in bits 63:32, as they stand in memory (DESIGN CHOICE, log 83: R49 says only "the instruction word"). -/
def iwordInfo (iw : IWord) : Word :=
  match iw.pre with
  | none => iw.word.zeroExtend 64
  | some p => p.zeroExtend 64 ||| (iw.word.zeroExtend 64 <<< 32)

/-- ILLEGAL (code 1) or PRIV (code 2). The group-fault record of an exception without a faulting address holds the pc as its
address (DESIGN CHOICE, log 83: R251 gives none). -/
def State.raiseWord (s : State) (x : UCtx) (code : Nat) : State :=
  match x.u with
  | .core _ => s.raise x 0 code 0 (iwordInfo x.iw) 0 0
  | .grp .. => s.raise x ((x.all.head?).getD 0) code 0 x.pc 0 0

/- Retirement. -/

/-- Words fetched from memory that no cache can hold served this instruction alone (R169). -/
def State.noFar (s : State) (u : Agent) : State :=
  match u with
  | .core n => if (s.core n).far.isEmpty then s else s.setCore n { s.core n with far := [] }
  | .grp c slot => match s.grp c slot with
    | some g => if g.far.isEmpty then s else s.setGrp c slot { g with far := [] }
    | none => s

/-- An instruction retires: INSTR, RET and the lane operations (R391, R393, R394). -/
def State.retire (s : State) (u : Agent) (lanes : Nat) : State :=
  let k := (agUnit u)
  let s1 := (s.countFixed k 1 1).useSlots k 2 (s.slotsOf u)
  ((match u with | .grp .. => s1.count k 0x001 lanes | .core _ => s1).untag u true).noFar u

/-- Lanes of a path set move on: to a target of their own, or to the next instruction. A transfer to the exit address
ends the lane (R61). `execs` is the path set that executed, for the count of backward branches (R60). -/
def Group.advance (g : Group) (all : List Nat) (len : Nat) (target : Nat → Option Word) (yields : Bool) : Group :=
  let p := match all with | i :: _ => g.pcOf i | [] => 0
  let g0 := if g.last = all then g else { g with back := 0 }
  let taken := all.any (fun i => match target i with | some t => t.toNat ≤ g.pcOf i && t ≠ exitAddr | none => false)
  let g1 := all.foldl (fun g1 i =>
    let x := g1.lane i
    let np := match target i with | some t => t | none => x.thr.pc + BitVec.ofNat 64 len
    if np = exitAddr then g1.setLane i { x with exited := true }
    else g1.setLane i { x with thr := { x.thr with pc := np } }) g0
  let back := g0.back + taken.toNat
  let same := all.filter (fun i => !(g1.lane i).exited)
  let one := match same with | i :: r => r.all (fun j => g1.pcOf j == g1.pcOf i) | [] => true
  let g2 := { g1 with last := if one then same else [], back := if one then back else 0 }
  if yields || (taken && back ≥ 64) then
    let q := match (same.filter (fun i => (target i).isSome)) ++ same with | i :: _ => g2.pcOf i | [] => p
    g2.yieldFrom q
  else g2

/-- The unit moves past the instruction and it retires. -/
def State.advance (s : State) (x : UCtx) (target : Nat → Option Word) (yields : Bool) : State :=
  match x.u with
  | .core n =>
    let c := s.core n
    let np := match target 0 with | some t => t | none => c.thr.pc + BitVec.ofNat 64 x.len
    (s.setCore n { c with thr := { c.thr with pc := np } }).retire x.u 1
  | .grp c slot =>
    match s.grp c slot with
    | none => s
    | some g =>
      let before := g.pcs.length
      let g1 := g.advance x.all x.len target yields
      let s1 := (s.setGrp c slot g1).retire x.u x.act.length
      let s2 := if g1.pcs.length > before then s1.count c 0x00E else s1
      let s3 := if g1.ycur ≠ g.ycur ∧ !g1.ycur.isEmpty then s2.count c 0x00D else s2
      s3.settle c slot

def State.next (s : State) (x : UCtx) : State := s.advance x (fun _ => none) false

/- Issue. -/

/-- Whether a unit can issue, and its path set. -/
def State.ready (s : State) (u : Agent) : Option (Word × List Nat) :=
  if s.pwr.phase ≠ .on then none
  else match u with
  | .core n =>
    let c := s.core n
    if c.held || c.halted || c.idle.isSome || c.barrier.isSome || c.op.isSome || !c.serr.isEmpty then none
    else some (c.thr.pc, [0])
  | .grp c slot =>
    match s.grp c slot with
    | none => none
    | some g =>
      if g.stop || g.stalled || g.barrier.isSome || g.op.isSome || !g.serr.isEmpty || (s.coreS c).halted ||
         g.lanes.any (fun x => x.wait = .dbg && !x.exited) then none
      else match g.cur with
        | [] => none
        | i :: r => some ((g.lane i).thr.pc, i :: r)

/-- Guards of the lanes (R27). -/
def guardTrue (t : Thr) (d : Decoded) : Bool := t.getP d.guard != d.gsense

/-- Lowest level of a sys register; none where the number is not listed. -/
def sysMin (n : Nat) : Option Nat :=
  if n ≤ 0x004 ∨ (0x008 ≤ n ∧ n ≤ 0x00C) ∨ n = 0x010 ∨ n = 0x011 then some 1
  else if n = 0x020 ∨ n = 0x021 then some 0
  else if (0x108 ≤ n ∧ n ≤ 0x10C) ∨ n = 0x110 then some 2
  else none

/-- Registers that MTSYS may not name. -/
def sysReadOnly (n : Nat) : Bool := n == 0x002 || n == 0x020 || n == 0x021

/-- The part of Prieno that the unit may execute (R15), and the registers that MFSYS and MTSYS may name (R43): 0 legal,
1 ILLEGAL, 2 PRIV. What makes the words alone ILLEGAL does so whatever the guard is (R27; for R43 DEDUCED, log 58). -/
def State.legal (s : State) (u : Agent) (op : Op) : Nat :=
  match u, op.part with
  | .core _, .g => 1
  | .core n, .s =>
    (match op with
     | .mfsys _ k => if (sysMin k).isNone then 1 else 0
     | .mtsys _ k => if (sysMin k).isNone || sysReadOnly k then 1 else 0
     | .cmo .inval _ => if s.lvl n = 2 then 0 else 2
     | _ => if s.lvl n = 0 then 2 else 0)
  | .grp .., .s => 1
  | _, _ => 0

/-- LL.D to SC.D: how long the sequence is and whether it conforms (R229). -/
def Thr.noteInstr (t : Thr) (op : Op) : Thr :=
  match op with
  | .ll .. | .sc .. => t
  | _ => match t.resv with
  | none => t
  | some _ => { t with llLen := t.llLen + 1, llOk := t.llOk && op.isR28 }

/-- Every active lane of a state changes its thread. -/
def State.mapThr (s : State) (x : UCtx) (f : Thr → Thr) : State :=
  x.act.foldl (fun s1 i => s1.setThr x.u i (f (s1.thr x.u i))) s

/-- A write to a bound register removes the group's binding (R99). -/
def State.noteF (s : State) (u : Agent) (rs : List Nat) : State :=
  match u with
  | .core _ => s
  | .grp c slot => match s.grp c slot with
    | none => s
    | some g => match g.bind with
      | some b => if rs.any (fun r => b.base ≤ r && r < b.base + b.count) then s.setGrp c slot { g with bind := none } else s
      | none => s

/-- Every lane of the group that has not exited belongs to the path set (R103). -/
def State.converged (s : State) (x : UCtx) : Bool :=
  match x.u with
  | .core _ => true
  | .grp c slot => match s.grp c slot with | some g => g.liveLanes.all (fun i => x.all.elem i) | none => true

/-- A path set waits at a matrix instruction (R103). -/
def State.waitMat (s : State) (x : UCtx) : State :=
  match x.u with
  | .core _ => s
  | .grp c slot => match s.grp c slot with
    | none => s
    | some g => (s.setGrp c slot (x.all.foldl (fun g1 i => g1.setLane i { g1.lane i with wait := .mat }) g)).settle c slot

/-- The registers that an instruction names exist (R54). -/
def State.regsLegal (s : State) (u : Agent) (op : Op) : Bool :=
  match u with
  | .core _ => true
  | .grp c sl => match s.grp c sl with | some g => g.regsOk op | none => true

/-- Clocks and counts that a scalar instruction may read (R41). -/
def State.rdclk (s : State) (u : Agent) : Nat := match u with | .core _ => s.pdClk | .grp .. => s.cdClk

end Sys2Proof.Machine
end

