-- ==== Sys2Proof/Machine/Live.lean ====
section
/-! DEFINITION. Registers as they read: fields that follow other state at every moment, and the answer to the issuer of
a register access. -/

namespace Sys2Proof.Machine

/-- Tile reads in flight of a channel (R129), and of a core. -/
def State.inflight (s : State) (c ch : Nat) : Nat := (s.trd.filter (fun e => e.2.c = c ∧ e.2.ch = ch)).length
def State.coreInflight (s : State) (c : Nat) : Nat := (s.trd.filter (fun e => e.2.c = c)).length

def oldestDesc : List Desc → Option Desc
  | [] => none
  | d :: r => match oldestDesc r with
    | none => some d
    | some e => if e.ord < d.ord then some e else some d

/-- PC of a channel (R145). -/
def State.chPc (s : State) (c ch : Nat) : Word :=
  let x := s.chan c ch
  if s.chanBusy c ch then
    (match oldestDesc (x.acc ++ x.exe) with
     | some d => BitVec.ofNat 64 d.addr
     | none => BitVec.ofNat 64 (if x.ending then x.lastDesc else x.pc))
  else s.reg .tsChPc c ch

/-- A dump is being written (R401). -/
def State.dumpBusy (s : State) : Bool := !s.pmu.out.isEmpty || s.recordsOut .dwidx 0 != 0

/-- A sensor as it was last refreshed (R341). -/
def State.sensor (s : State) (id : Nat) : BitVec 32 :=
  if id = 0x50 then s.cp.sensors.get (BitVec.ofNat 32 (s.fld .wsStatus 0 0 0 16)) id else s.cp.sensors.get (Config.sensor0 id) id

/-- TEMP and HOT of a stack or an interface: whole degrees, within the eight bits of the field (DESIGN CHOICE below 0 °C,
log 79); before the first refresh TEMP is a free value and HOT its reset 0. -/
def State.memTemp (s : State) (w : Word) (id : Nat) : Word :=
  let t := (s.sensor id).toInt.toNat
  setBits (setBits w 8 8 (min 255 (t / 100))) 3 1 (s.cp.sensors.has id && 8500 ≤ t).toNat

/-- A register with the fields that follow the state: INFLIGHT and PC (R145), EBUSE and OCCUPIED (R215), PENDING (R256),
NOW (R310), LIVE (R166), BUSY (R401), and TEMP and HOT of the last refresh of a memory sensor (R193, R341). -/
def State.regNow (s : State) (k : RegKind) (i j : Nat) : Word :=
  let w := s.reg k i j
  match k with
  | .tsChStatus => setBits w 8 8 (s.inflight i j)
  | .tsChPc => s.chPc i j
  | .ccStatus => setBits w 16 6 (s.bufUsed i)
  | .sfStatus => setBits w 0 22 ((s.dir.filter (fun e => s.homeOf e.1 = i)).length)
  | .fqStatus => setBits w 16 16 ((s.fq i).stalled.length)
  | .fabTime => BitVec.ofNat 64 s.now
  | .seqStatus => setBits w 0 17 ((s.seq.recs.filter (fun e => e.1 / 65536 = i && e.2.live)).length)
  | .dstatus => setBits w 1 1 s.dumpBusy.toNat
  | .hbmStatus => s.memTemp w (0x10 + i)
  | .lpStatus => s.memTemp w (0x18 + i)
  | _ => w

/-- A write has been performed: a buffered store of the module gets its answer. -/
def State.wrote (s : State) (iss : Iss) (err : Bool := false) : State :=
  match iss with
  | .store sid => s.send (.stor sid err)
  | _ => s

/-- A read has been performed: a pending load gets its data; the answer names the byte address. -/
def State.wasRead (s : State) (iss : Iss) (addr : Nat) (w : Word) (err : Bool := false) : State :=
  match iss with
  | .op tag => s.send (.load tag addr (w.zeroExtend 1024) false err)
  | _ => s

/- Where an access arrives (R168, R361, R368). -/

/- Paths (R11). -/

/-- The die that owns an address beyond local memory: HD for pages, windows and fabric-remote addresses. -/
def targetDie (a : Nat) : Nat :=
  match blkOf a with
  | some (.CD, d) => d
  | some (.PD, _) => 8
  | some (.MD, m) => 9 + m
  | _ => 13

/-- The link ends that a request leaves through, from a die to the owner of an address (R11). A compute die reaches its own
block, as any other's, through MD0 (R172). -/
def path (src a : Nat) : List Nat :=
  let dst := targetDie a
  if src = dst then (if src < 8 then [32 * src, 288 + src] else [])
  else if src < 8 then
    (if dst = 13 then [32 * src + routeMd a, 288 + 32 * routeMd a + 9]
     else if 9 ≤ dst then [32 * src + (dst - 9)]
     else if dst = 8 then [32 * src, 296]
     else [32 * src, 288 + dst])
  else if src = 8 then (if dst = 13 then [260] else if 9 ≤ dst then [256 + (dst - 9)] else [256, 288 + dst])
  else if dst = 8 then [420] else if 9 ≤ dst then [416 + (dst - 9)] else [416, 288 + dst]

def State.linkUp (s : State) (e : Nat) : Bool := s.fld .lnkStatus e 0 0 2 == 2

/-- Every link of a path is up. -/
def State.pathUp (s : State) (src a : Nat) : Bool := (path src a).all (fun e => s.linkUp e)

/-- A die or a core in reset. -/
def State.inReset (s : State) (d : RDom) : Bool := s.rsts.any (fun r => r.dom == d)


/-- HD runs: from step 2 of the boot sequence (R368). -/
def State.hdOn (s : State) : Bool :=
  match s.pwr.phase with
  | .off | .held | .down _ => false
  | .boot n => 3 ≤ n
  | _ => true

/-- The unit that issued an access, and its level. -/
def State.issuer (s : State) (iss : Iss) : Option (Agent × Nat) :=
  match iss with
  | .ext => none
  | .store sid => (s.sb.find? sid).map (fun e => (e.u, e.lvl))
  | .op tag => (s.ops.find? tag).map (fun p => (p.u, match p.u with | .core n => s.lvl n | .grp .. => 0))

/-- What an access meets on its way. -/
inductive Reach where
  | ok | wait | bus
deriving DecidableEq, Repr

/-- The block of an address answers (R11, R168, R361, R368): its die is out of reset and powered. -/
def State.blockOn (s : State) (a : Nat) : Bool :=
  let run : Bool := s.pwr.phase == .on && !s.inReset .warm && s.fld .pwrStatus 0 0 0 3 != 3
  match blkOf a with
  | some (.CD, d) => run && !s.inReset (.die d)
  | some (.PD, _) => run
  | some (.MD, _) => (match s.pwr.phase with | .boot n => 5 ≤ n | .warm n => 5 ≤ n | .on => true | _ => false)
  | some (.HD, _) => s.hdOn
  | some (.DQ, _) => s.hdOn
  | none => isAuxWin a && s.hdOn

/-- An access, HD's own included, waits while a link of its path trains, and ends with a bus error over one that is down (DEDUCED, log 65). -/
def State.reach (s : State) (iss : Iss) (a : Nat) : Reach :=
  let ends := path (match s.issuer iss with | some (u, _) => unitDie u | none => 13) a
  if !s.blockOn a then .bus
  else if ends.all (fun e => s.linkUp e) then .ok
  else if ends.any (fun e => s.fld .lnkStatus e 0 0 2 == 0) then .bus else .wait

/-- A store that a row of its own stands for arrives at its register, as REGISTER_WRITE does: it waits, ends with a bus
error, or acts. -/
def State.atBlock (s : State) (iss : Iss) (k : RegKind) (i j : Nat) (f : State → State) : Out :=
  match s.reach iss (regAddr k i j) with
  | .wait => .next s
  | .bus => .next (s.wrote iss true)
  | .ok => .next ((f s).wrote iss)

end Sys2Proof.Machine
end

