-- ==== Sys2Proof/Machine/Remote.lean ====
section
/-! DEFINITION. Packets that the module injects or forwards (R284 to R289), the routing tables (R290, R291), and requests
for fabric-remote addresses (R171, R293). -/

namespace Sys2Proof.Machine

/- Ports and position. -/

def State.port (s : State) (p : Nat) : ColPort := s.fab.ports.get {} p
def State.setPort (s : State) (p : Nat) (x : ColPort) : State := { s with fab := { s.fab with ports := s.fab.ports.set p x } }
/-- State of a port (R281): 0 DARK, 1 TRAINING, 2 UP, 3 SUSPECT, 4 DOWN, 5 DISABLED, 6 MISWIRED. -/
def State.portState (s : State) (p : Nat) : Nat := s.fld .fabPortStatus p 0 0 3
def State.portUpQ (s : State) (p : Nat) : Bool := s.portState p == 2

def State.plainNo (s : State) : Nat := s.fld .fabId 0 0 16 9
/-- The module's own physical member, once it has one. -/
def State.memberNo (s : State) : Option Nat := if s.fld .fabId 0 0 30 1 = 1 then some (s.fld .fabId 0 0 25 5) else none
/-- The module's own logical address, once it has one (R283). -/
def State.laddr (s : State) : Option Nat := if s.fld .fabId 0 0 14 1 = 1 then some (s.fld .fabId 0 0 0 14) else none
/-- The active routing bank. -/
def State.epoch (s : State) : Nat := s.fld .fabRtStatus 0 0 0 1

/-- Frames that a packet takes of its lane (R286). -/
def pktFrames (k : Pkt) : Nat := ceilDiv (32 + k.data.length) 244

/-- Lane of a packet that has taken one hop more (R286). -/
def pktLane (k : Pkt) : Nat :=
  match k.tc with
  | 1 => 7 + (k.hops - 1)
  | 3 => 14
  | 4 => 15
  | _ => k.hops - 1

def State.queuedFrames (s : State) (p : Nat) : Nat := ((s.port p).txq.map pktFrames).sum

/-- The lowest-numbered of the ports with the fewest queued frames. -/
def State.fewest (s : State) : List Nat → Option Nat
  | [] => none
  | p :: r => match State.fewest s r with
    | none => some p
    | some q => if s.queuedFrames q < s.queuedFrames p then some q else some p

/-- UP ports that serve as local ports (R279). -/
def State.localUp (s : State) : List Nat :=
  (upTo 23).filter (fun p => s.portUpQ p) ++ (if s.portUpQ 47 && s.fld .fabPortStatus 47 0 5 2 == 1 then [47] else [])

/-- The UP local port to a physical member of the own plain (R279): its own port, or the sparing port. -/
def State.toMember (s : State) (m d : Nat) : Option Nat :=
  let p := (d + 23 - m) % 24
  if p < 23 && s.portUpQ p then some p
  else if s.portUpQ 47 && s.fld .fabPortStatus 47 0 5 2 == 1 && s.fld .fabPortStatus 47 0 22 1 == 1 && s.fld .fabPortStatus 47 0 17 5 == d then some 47
  else none

/- Routing tables (R290). -/

/-- Physical member that a bank's map gives a logical member. -/
def State.mapOf (s : State) (bank lm : Nat) : Option Nat :=
  let e := s.fab.map.get 0 (bank * 32 + lm)
  if lm < 24 ∧ (e >>> 7) % 2 = 1 then some (e % 32) else none

/-- Valid routes of a bank to a plain: member and port. -/
def State.validRoutes (s : State) (bank q : Nat) : List (Nat × Nat) :=
  let w := s.fab.plain.get 0 (bank * 512 + q)
  ((upTo 4).filter (fun r => bit w (16 * r + 15))).map (fun r => let g := bits w (16 * r + 5) 5; (bits w (16 * r) 5, if g = 24 then 47 else 23 + g))

/-- Those whose member is not marked dead. -/
def State.routes (s : State) (bank q : Nat) : List (Nat × Nat) :=
  (s.validRoutes bank q).filter (fun r => !s.fab.deadPhys.elem (s.plainNo, r.1))

/-- The port toward a plain: the module's own global port, else the local port to a route's member (R287). -/
def State.toPlain (s : State) (bank m q : Nat) : Option Nat :=
  let rs := s.routes bank q
  match rs.find? (fun r => r.1 == m && s.portUpQ r.2) with
  | some r => some r.2
  | none => s.fewest (rs.filterMap (fun r => if r.1 = m then none else s.toMember m r.1))

/-- Plains that a VIA may be drawn from (R288). -/
def State.viaPlains (s : State) (bank : Nat) : List Nat :=
  (upTo 512).filter (fun q => q ≠ s.plainNo && !(s.routes bank q).isEmpty)

def State.drawVia (s : State) (bank pick : Nat) : Option Nat :=
  let l := s.viaPlains bank
  l[Config.viaPick pick % max 1 l.length]?

inductive RouteTo where
  | deliver
  | port (p : Nat) (k : Pkt)
  | lost
deriving DecidableEq, Repr

/-- The routing of a packet (R287); the second argument bounds the one choice of a VIA plain. -/
def State.route (s : State) (pick : Nat) (k0 : Pkt) : Nat → RouteTo
  | 0 => .lost
  | n + 1 =>
    let k : Pkt := if k0.nm ∧ s.plainNo = k0.via then { k0 with nm := false } else k0
    match s.memberNo with
      | none => .lost
      | some m =>
        if k.dst / 32 = s.plainNo then
          match s.mapOf k.epoch (k.dst % 32) with
          | none => .lost
          | some d =>
            if d = m then .deliver
            else match s.toMember m d with
              | some p => .port p k
              | none => match s.fewest s.localUp with
                | some p => .port p k
                | none => .lost
        else match s.toPlain k.epoch m (if k.nm then k.via else k.dst / 32) with
          | some p => .port p k
          | none =>
            if !k.nm ∧ k.hops ≤ 2 then
              match s.drawVia k.epoch pick with
              | some v => State.route s pick { k with nm := true, via := v } n
              | none => .lost
            else .lost

/-- A packet joins the queue of a port, one hop further. -/
def State.sendOn (s : State) (p : Nat) (k : Pkt) : State :=
  let x := s.port p
  s.setPort p { x with txq := x.txq ++ [{ k with hops := k.hops + 1 }] }

def State.deliverPkt (s : State) (k : Pkt) : State := { s with fab := { s.fab with inbox := s.fab.inbox ++ [k] } }

/-- Injection: the module's own epoch and stamp, and for another plain the cheaper of the minimal route and a VIA plain;
the minimal route wins a tie (R284, R288, R291). -/
def State.injected (s0 : State) (k0 : Pkt) : State × Pkt :=
  let (pick, s) := s0.stamp
  let k := { k0 with src := (s.laddr).getD 0, epoch := s.epoch, hops := 0, nm := false, tstamp := (s.now >>> 10) % 2 ^ 16 }
  let q := k.dst / 32
  match s.memberNo with
  | none => (s, k)
  | some m =>
    if q = s.plainNo then (s, k)
    else match s.toPlain k.epoch m q, s.drawVia k.epoch pick with
      | some p, some v => match s.toPlain k.epoch m v with
        | some p2 => (s, if 5 * s.queuedFrames p2 + s.fld .fabCtrl 0 0 16 8 < 3 * s.queuedFrames p then { k with nm := true, via := v } else k)
        | none => (s, k)
      | _, _ => (s, k)

/-- A packet that is no request: routed, or discarded. -/
def State.movePkt (s0 : State) (k : Pkt) : State :=
  let (pick, s) := s0.stamp
  match s.route pick k 2 with
  | .deliver => s.deliverPkt k
  | .port p k1 => if k1.hops ≥ 7 then s else s.sendOn p k1
  | .lost => s

def pktBlank : Pkt := ⟨0, 0, 0, 0, 0, 0, false, 0, 0, 0, 0, 0, 0, 0, 0, 0, false, []⟩

/-- Fabric statuses in their low byte (R308), and ST_CANCELLED. -/
def fsBadArg : Nat := 1
def fsCancelled : Nat := 2
def fsRefused : Nat := 8
def fsReset : Nat := 9
def fsParked : Nat := 10
def fsExpired : Nat := 11
def fsUnreach : Nat := 12

def State.tstamp (s : State) : Nat := (s.now >>> 10) % 2 ^ 16

/-- A response of this module to a request (R285, R293). -/
def State.respond (s : State) (k : Pkt) (op status : Nat) (poison : Bool) (data : List Byte) : State :=
  let (s1, a) := s.injected { pktBlank with dst := k.src, tc := 1, op := op, tag := k.tag, status := status, poison := poison, data := data }
  s1.movePkt a

/-- A request that ends here fails to its source; other packets are only discarded. -/
def State.failPkt (s : State) (k : Pkt) (status : Nat) : State :=
  if k.tc ≠ 0 then s else s.respond k 0x12 status false []

/-- A packet is routed and sent, delivered, or discarded for want of a route or of hops (R286, R287). -/
def State.routePkt (s0 : State) (k : Pkt) : State :=
  let (pick, s) := s0.stamp
  let lost (s : State) : State :=
    if k.tc = 0 then (s.incFld .fabStatus 0 0 24 16).failPkt k fsUnreach else s
  match s.route pick k 2 with
  | .deliver => s.deliverPkt k
  | .port p k1 => if k1.hops ≥ 7 then lost s else s.sendOn p k1
  | .lost => lost s

/-- A packet of this module leaves, by the route its injection chose. -/
def State.inject (s : State) (k : Pkt) : State := (s.injected k).1.routePkt (s.injected k).2

/- Fabric-remote requests (R171, R293). -/

def remAddr (pa : Nat) : Nat × Nat := ((pa / 2 ^ 41) % 2 ^ 14, pa % 2 ^ 41)

/-- The fabric knows the module that an address names (R168, R171, R283). -/
def State.remoteKnown (s : State) (pa : Nat) : Bool :=
  let d := (remAddr pa).1
  match s.laddr with
  | none => false
  | some a =>
    d % 32 < 24 && (d == a || (if d / 32 = s.plainNo then (s.mapOf s.epoch (d % 32)).isSome else !(s.validRoutes s.epoch (d / 32)).isEmpty))

/-- A request leaves, or fails at once toward a module marked dead; until the first request for a remote line is answered
the next one waits (R288, R304). -/
def State.sendRem (s : State) (tag : Nat) : State :=
  match s.fab.rem.find? (fun r => r.tag == tag) with
  | none => s
  | some r =>
    if s.fab.rem.any (fun q => q.sent && q.dst == r.dst && q.line == r.line) then s
    else
      let s1 : State := { s with fab := { s.fab with rem := s.fab.rem.map (fun q => if q.tag = tag then { q with sent := true } else q) } }
      let k := (r.pkt).getD pktBlank
      if s.fab.dead.elem r.dst then
        (s1.incFld .fabStatus 0 0 24 16).deliverPkt { pktBlank with dst := (s1.laddr).getD 0, src := r.dst, tc := 1, op := 0x12, tag := tag, status := fsUnreach }
      else s1.inject k

/-- One request packet of an access. -/
def State.newRem (s : State) (w : Who) (op dst line lane off hint scope : Nat) (poison : Bool) (data : List Byte) : State :=
  let tag := s.fab.nextTag
  let k : Pkt := { pktBlank with dst := dst, tc := 0, op := op + 1, offset := off, tag := tag, hint := hint, scope := scope, poison := poison, data := data }
  let r : RemReq := { tag := tag, w := w, op := op, dst := dst, line := line, lane := lane, started := s.now, pkt := some k }
  ({ s with fab := { s.fab with rem := s.fab.rem ++ [r], nextTag := (tag + 1) % 2 ^ 16 } } : State).sendRem tag

/-- The bytes that a mask names, in ascending order. -/
def maskedBytes (m : LMask) (d : Line) : List Byte := ((upTo 128).filter (fun i => m.getLsbD i)).map (fun i => lineByte d i)

/-- The payload of a partial write: its mask, then the bytes that it names (R285). -/
def partPayload (m : LMask) (d : Line) : List Byte := leBytes 16 m.toNat ++ maskedBytes m d

/-- Number of an atomic operation in a packet, in the order of R35. -/
def amoNo : AmoOp → Nat
  | .add => 0 | .and => 1 | .or => 2 | .xor => 3 | .swap => 4 | .cas => 5 | .min => 6 | .max => 7 | .minu => 8 | .maxu => 9 | .fadd => 10

/-- A line access of the module to a fabric-remote address: op 0 a read, 1 a write, 2 an atomic, one packet for each of
its lanes. A partial write whose payload would not stay below 128 B goes as two. -/
def State.remoteAccess (s : State) (w : Who) (op line : Nat) (mask : LMask) (data : Line) (hint scope : Nat) (poison : Bool := false) : State :=
  let (dst, off) := remAddr (line * 128)
  match op with
  | 0 => s.newRem w 0 dst line 0 off hint 0 false []
  | 1 =>
    if maskFull mask then s.newRem w 1 dst line 0 off 0 0 poison ((upTo 128).map (fun i => lineByte data i))
    else
      let lo := mask &&& maskAt 0 64
      let hi := mask &&& maskAt 64 64
      if (maskedBytes mask data).length < 112 then s.newRem w 1 dst line 0 off 0 0 poison (partPayload mask data)
      else (s.newRem w 1 dst line 0 off 0 0 poison (partPayload lo data)).newRem w 1 dst line 0 off 0 0 poison (partPayload hi data)
  | _ =>
    match s.amoOf w with
    | none => s
    | some (_, p, o, wide) =>
      (p.accs.filter (fun a => a.pa / 128 = line)).foldl (fun s1 a =>
        s1.newRem w 2 dst line a.lane (off + a.pa % 128) hint scope false
          (leBytes 1 (amoNo o) ++ leBytes 1 wide.toNat ++ leBytes 6 0 ++ leBytes 8 a.op1 ++ leBytes 8 a.op2)) s

end Sys2Proof.Machine
end

