-- ==== Sys2Proof/Machine/Access.lean ====
section
/-! DEFINITION. Memory accesses of instructions: the lanes' addresses and their checks in order (R32, R50, R247, R250),
line requests (R66), stores in the buffer (R233), barriers (R236), and the completion of an instruction when its data
is there (R220). -/

namespace Sys2Proof.Machine

/- The store buffer. -/

def unitLaunch (s : State) (u : Agent) : Option Nat :=
  match u with | .core _ => none | .grp c sl => match s.grp c sl with | some g => some g.lid | none => none

def unitLvl (s : State) (u : Agent) : Nat := match u with | .core n => s.lvl n | .grp .. => 0

/-- The stores of a unit's place, and those of its thread or group itself: not of a group that had the slot before, and no
completion word. -/
def State.sbOf (s : State) (u : Agent) : List (Nat × SbE) := s.sb.filter (fun e => e.2.u = u)
def State.ownSb (s : State) (u : Agent) : List (Nat × SbE) :=
  (s.sbOf u).filter (fun e => !e.2.word && e.2.launch == unitLaunch s u)

/-- Units of one buffer: a processor core, or the groups of a compute-die core. -/
def sameBuffer (u v : Agent) : Bool :=
  match u, v with
  | .core n, .core m => n == m
  | .grp c _, .grp d _ => c == d
  | _, _ => false

/-- Stores that a buffer holds, those that a release keeps back included (R222). -/
def State.sbUsed (s : State) (u : Agent) : Nat :=
  (s.sb.filter (fun e => sameBuffer u e.2.u)).length +
  match u with
  | .core n => match (s.core n).barrier with | some b => b.stores.length | none => 0
  | .grp c _ => ((s.grps.filter (fun e => e.1 / 64 == c)).map (fun e => match e.2.barrier with | some b => b.stores.length | none => 0)).sum

/-- The unsent store that a processor core's store merges with (R233): the latest one to its line, of the same kind and hint;
device stores are never merged (R226). -/
def State.sbMerge (s : State) (e : SbE) : Option (Nat × SbE) :=
  match e.u with
  | .grp .. => none
  | .core _ => match ((s.sbOf e.u).filter (fun x => x.2.line = e.line)).getLast? with
    | some (sid, x) => if !e.dev && !x.dev && !x.sent && x.mem = e.mem && x.hint = e.hint then some (sid, x) else none
    | none => none

/-- The buffer has room for the stores of an instruction: 64 of a processor core, 128 line requests of a compute-die core
(R233). -/
def State.sbRoom (s : State) (u : Agent) (l : List SbE) : Bool :=
  s.sbUsed u + (l.filter (fun e => (s.sbMerge e).isNone)).length ≤ (match u with | .core _ => 64 | .grp .. => 128)

/-- The memory-side die that answers for a register access as the first die on its path; none where HD does (R11, R234). -/
def mdResponds (u : Agent) (line : Nat) : Option Nat :=
  match path (unitDie u) (line * 128) with
  | e :: _ => if e % 32 < 4 then some (e % 32) else none
  | [] => none

/-- Bound of a store's response, in ns (R234, R240). -/
def State.sbBound (s : State) (e : SbE) : Nat :=
  match e.mem, mdResponds e.u e.line with
  | .mmio, some m => s.fld .cohCtrl m 0 0 10 * 1000
  | _, _ => s.fld .ordCtrl 0 0 0 10 * 1000

/-- The links on an access's way are not down; over one that trains it waits (R11, DEDUCED, log 65). -/
def State.wayDown (s : State) (u : Agent) (line : Nat) : Bool :=
  (path (unitDie u) (line * 128)).any (fun e => s.fld .lnkStatus e 0 0 2 == 0)

/-- A store that is not cached leaves for its target. -/
def State.sbSend (s : State) (sid : Nat) (e : SbE) : State :=
  let s1 := { s with sb := s.sb.set sid { e with sent := true, since := s.now, bound := s.sbBound e } }
  let fail := s1.send (.stor sid true)
  match e.mem with
  | .cached => s1
  | .mmio => if maskFull e.mask then fail else s1
  | .nc => s1.askHome { kind := .wrnc, a := agCache e.u, w := .store sid, line := e.line, mask := e.mask, data := e.data }
  | .pcie =>
    if s.pcieUp (pciePort e.line) && !s.wayDown e.u e.line then s1.pcieWrite (pciePort e.line) e.line e.mask e.data false else fail
  | .remote => if s.wayDown e.u e.line then fail else s1.remoteAccess (.store sid) 1 e.line e.mask e.data e.hint 0
  | .unmapped => fail

/-- A store that is not cached may leave: no older store of its unit to its line stands in the buffer (R219), and no older
device store of its thread to its PCIe port waits (R227). -/
def State.sbMayGo (s : State) (sid : Nat) (e : SbE) : Bool :=
  let portOf (x : SbE) : Bool := x.dev && x.mem == CmpMem.pcie
  !(s.sbOf e.u).any (fun x => x.1 < sid && (x.2.line == e.line ||
    (portOf e && portOf x.2 && !x.2.sent && x.2.lane == e.lane && pciePort x.2.line == pciePort e.line)))

/-- The stores of a unit that may leave do so, in their order. -/
def State.sbPump (s : State) (u : Agent) : State :=
  (s.sbOf u).foldl (fun s1 e => match s1.sb.find? e.1 with
    | some x => if !x.sent && x.mem != CmpMem.cached && s1.sbMayGo e.1 x then s1.sbSend e.1 x else s1
    | none => s1) s

/-- A store enters the buffer: it merges, or becomes an entry of its own (R219, R226, R233). What a merged entry is known by
is its latest store (R235). -/
def State.sbAdd (s : State) (e : SbE) : State :=
  match s.sbMerge e with
  | some (sid, x) =>
    { s with sb := s.sb.set sid { e with mask := x.mask ||| e.mask, data := mergeLine x.data e.data e.mask } }
  | none =>
    let (sid, s1) := s.newSid
    ({ s1 with sb := s1.sb.set sid e } : State).sbPump e.u

/- Addresses of the lanes. -/

/-- Physical address of byte i of an access, which may cross into a second page (R32). -/
def LAcc.addr (a : LAcc) (i : Nat) : Nat :=
  match a.pa2 with
  | none => a.pa + i
  | some q =>
    let n := 0x4000 - a.va % 0x4000
    if i < n then a.pa + i else q + (i - n)

/-- The lines that an access touches, ascending. -/
def LAcc.touches (a : LAcc) : List Nat :=
  let l0 := a.addr 0 / 128
  let l1 := a.addr (a.size - 1) / 128
  if l0 = l1 then [l0] else [l0, l1]

/-- The request that serves a lane's access to a line: its own, or the one that lanes share. -/
def reqOf (lines : List LineReq) (lane line : Nat) : Option LineReq :=
  match lines.find? (fun r => r.line = line && r.lane == some lane) with
  | some r => some r
  | none => lines.find? (fun r => r.line = line && r.lane.isNone)

/-- Bytes that an access reads out of the lines that came back. -/
def gather (lines : List LineReq) (a : LAcc) : Nat :=
  ofLeBytes ((upTo a.size).map (fun i =>
    let p := a.addr i
    match reqOf lines a.lane (p / 128) with
    | some r => lineByte r.data (p % 128)
    | none => 0))

def State.setUnitOp (s : State) (u : Agent) (op : Option Nat) (lanes : List Nat) : State :=
  match u with
  | .core n => s.setCore n { s.core n with op := op }
  | .grp c sl => match s.grp c sl with | some g => s.setGrp c sl { g with op := op, opLanes := lanes } | none => s

def State.opLanes (s : State) (u : Agent) : List Nat :=
  match u with | .core _ => [0] | .grp c sl => match s.grp c sl with | some g => g.opLanes | none => []

/- Completion. -/

/-- Words that came from memory which no cache can hold wait with their unit, which is ready again (R169). -/
def State.setFar (s : State) (u : Agent) (l : List (Nat × Nat)) : State :=
  match u with
  | .core n => s.setCore n { s.core n with far := l ++ (s.core n).far }
  | .grp c sl => match s.grp c sl with | some g => (s.setGrp c sl { g with far := l ++ g.far }).settle c sl | none => s

/-- All requests of an instruction have been answered (R220): an error or poison is reported for the lowest lane that
meets it, and otherwise the lanes get their values together. -/
def State.tryFinish (s : State) (tag : Nat) : State :=
  match s.ops.find? tag with
  | none => s
  | some p =>
    if !(p.lines.all (fun r => r.st = 2)) then s
    else
      let lanes := s.opLanes p.u
      let s1 := ({ s with ops := s.ops.del tag }).setUnitOp p.u none lanes
      let pc := (s1.thr p.u ((lanes.head?).getD 0)).pc
      let x : UCtx := ⟨p.u, pc, p.len, lanes, p.accs.map (·.lane), ⟨none, 0⟩⟩
      let badLine (a : LAcc) : Option LineReq := (a.touches.filterMap (fun l => reqOf p.lines a.lane l)).find?
        (fun r => r.err || r.poison)
      let det : Nat := match p.kind with | .amo .. | .sc | .cmo _ => 16 | _ => 0
      if p.kind = .fetch then s1.setFar p.u (p.lines.map (fun r => (r.line, if r.err then 2 else r.poison.toNat)))
      else match p.accs.find? (fun a => (badLine a).isSome) with
      | some a =>
        let err := match badLine a with | some r => r.err | none => false
        s1.raise x a.lane (if err then 8 else 7) det (BitVec.ofNat 64 a.va) a.leaf.1 a.leaf.2
      | none =>
        match p.kind with
        | .cmo _ | .fetch => s1.next x
        | .load size sgn fp =>
          let s2 := p.accs.foldl (fun s2 a =>
            let mm := p.lines.any (fun r => r.mem == CmpMem.mmio && r.lane == some a.lane)
            let v := if mm then a.old else gather p.lines a
            let t := s2.thr p.u a.lane
            let w := if sgn then wordOfInt (sext (8 * size) v) else BitVec.ofNat 64 v
            s2.setThr p.u a.lane (if fp then t.setF p.rd w else t.setG p.rd w)) s1
          (if fp then s2.noteF p.u [p.rd] else s2).next x
        | .ll =>
          let s2 := p.accs.foldl (fun s2 a =>
            let t := s2.thr p.u a.lane
            s2.setThr p.u a.lane (t.setG p.rd (BitVec.ofNat 64 (gather p.lines a)))) s1
          s2.next x
        | .amo o wide =>
          let s2 := p.accs.foldl (fun s2 a =>
            let t := s2.thr p.u a.lane
            s2.setThr p.u a.lane (t.setG p.rd (BitVec.ofNat 64 a.old))) s1
          let failed := o = .cas ∧ p.accs.any (fun a => a.old ≠ a.op2 % 2 ^ (if wide then 64 else 32))
          s2.advance x (fun _ => none) failed
        | .sc =>
          let s2 := p.accs.foldl (fun s2 a =>
            let t := s2.thr p.u a.lane
            s2.setThr p.u a.lane (t.setG p.rd (BitVec.ofNat 64 a.old))) s1
          let failed := p.accs.any (fun a => a.old ≠ 0)
          let s3 := if failed then s2.count (agUnit p.u) 0x106 else s2
          s3.advance x (fun _ => none) failed

/- Barriers. -/

/-- Older stores of a unit that a barrier awaits. -/
def State.olderStores (s : State) (u : Agent) : List Nat := (s.ownSb u).map (·.1)

/-- A store that counts as performed at a scope before it is complete: at GROUP or CORE a processor core's cached store, which
is in its buffer, and a device store to local memory that its home has accepted (R218). -/
def SbE.early (e : SbE) (scope : Nat) : Bool :=
  scope ≤ 1 && ((e.mem == CmpMem.nc && e.accepted) || (e.mem == CmpMem.cached && match e.u with | .core _ => true | .grp .. => false))

/-- Older stores that a release at a scope awaits (R218, R222). -/
def State.relStores (s : State) (u : Agent) (scope : Nat) : List Nat :=
  ((s.ownSb u).filter (fun e => !e.2.early scope)).map (·.1)

/-- Lanes of a finished instruction move on, and it retires. -/
def State.finishLanes (s : State) (u : Agent) (len : Nat) (yields : Bool) (act : Nat) : State :=
  let all := s.opLanes u
  let x : UCtx := ⟨u, (s.thr u ((all.head?).getD 0)).pc, len, all, all.take act, ⟨none, 0⟩⟩
  s.advance x (fun _ => none) yields

/-- The requests of an instruction leave (R66): cached lines wait for their cache, others go to their home, their
register, their port or the fabric; a line that nothing maps has failed already (R168), and a CMO of a line that no
cache can hold is complete (R47, R169). -/
def State.startOp (s : State) (p : PendOp) (lanes : List Nat) : State :=
  let (tag, s0) := s.newTag
  let amo := match p.kind with | .amo o w => some (o, w) | _ => none
  let cmo := match p.kind with | .cmo k => some k | _ => none
  let lines := p.lines.map (fun l =>
    if cmo.isSome && l.mem != CmpMem.cached && l.mem != CmpMem.nc then { l with st := 2 }
    else if l.mem = .unmapped || ((l.mem == CmpMem.pcie || l.mem == CmpMem.remote) && s.wayDown p.u l.line) then { l with st := 2, err := true }
    else l)
  let w := Who.op tag
  let rq (k : RqKind) (l : LineReq) (h : Nat) : HReq :=
    { kind := k, a := agCache p.u, w := w, line := l.line, hint := h, amo := amo, accs := if amo.isSome then p.accs else [] }
  let s1 := ({ s0 with ops := s0.ops.set tag { p with lines := lines, started := s.now } }).setUnitOp p.u (some tag) lanes
  let s3 := (lines.filter (fun l => l.st ≠ 2)).foldl (fun s2 l =>
    match l.mem, cmo with
    | .cached, some k | .nc, some k => s2.askHome (rq (.cmo k) l 1)
    | .cached, none => if amo.isSome then s2.askHome (rq .atmh l l.hint) else s2
    | .nc, none => s2.askHome (rq .rdnc l 1)
    | .pcie, _ =>
      if s2.pcieUp (pciePort l.line) then
        ({ s2 with pci := s2.pci.upd {} (pciePort l.line) (fun y => { y with out := y.out ++ [(w, l.line)] }) } : State).count 580 0x305
      else s2.send (.load tag l.line 0 false true)
    | .remote, _ => s2.remoteAccess w (if amo.isSome then 2 else 0) l.line 0 0 l.hint p.scope
    | .mmio, _ | .unmapped, _ => s2) s1
  s3.tryFinish tag

/-- The counters of a channel that a cancel has ended, or is ending, are frozen (R142). -/
def State.frozen (s : State) (c ch : Nat) : Bool :=
  (s.chan c ch).cancel.isSome || (s.chState c ch == 0 && s.fld .tsChStatus c ch 16 16 == 0x0202)

/-- The post counter of a channel goes up (R137). -/
def State.postCh (s : State) (c ch : Nat) : State := if s.frozen c ch then s else s.addFld .tsChCount c ch 32 32

/-- A channel that is not busy starts the program at an address for a group's team; the answer is 0 started, 1 busy (R127,
R137). -/
def State.startCh (s : State) (g : Group) (c ch pc : Nat) : State × Word :=
  if s.chanBusy c ch then (s, 1)
  else
    let s1 := s.setChan c ch { team := some g.team, lid := g.lid, pc := pc, lastDesc := (s.chan c ch).lastDesc, ord := (s.chan c ch).ord }
    ((s1.setFld .tsChStatus c ch 0 2 1).setReg .tsChCount c ch 0, 0)

/-- What a group does when its barrier is complete: lanes arrive at GBAR (1) or TBAR (2), a channel's post counter goes up, or
a channel starts. -/
def State.barrierGroup (s : State) (b : Barrier) (c sl : Nat) (g : Group) : State :=
  let arrive (w : LWait) : State :=
    ((s.setGrp c sl { g with lanes := (upTo g.width).map (fun i =>
      if g.opLanes.elem i then { g.lane i with wait := w } else g.lane i) }).retire (.grp c sl) b.act).settle c sl
  if b.arrive = 1 then arrive .gbar
  else if b.arrive = 2 then arrive .tbar
  else match b.post, b.start with
    | some ch, _ => s.postCh c ch
    | none, some (ch, pc, rd, act) =>
      let (s1, v) := s.startCh g c ch pc
      act.foldl (fun s2 i => s2.setThr (.grp c sl) i ((s2.thr (.grp c sl) i).setG rd v)) s1
    | none, none => s

/-- A TLBI whose accesses wait behind a unit's barrier counts those that have now left (R47). -/
def State.tlbiMove (s0 s : State) (u : Agent) : State :=
  { s with tlbi := s.tlbi.map (fun e =>
      if e.2.units.elem u then
        (e.1, { e.2 with units := e.2.units.filter (fun v => v ≠ u),
                         ops := e.2.ops ++ (upTo (s.ctr.tag - s0.ctr.tag)).map (fun i => s0.ctr.tag + i),
                         sids := e.2.sids ++ (upTo (s.ctr.sid - s0.ctr.sid)).map (fun i => s0.ctr.sid + i) })
      else e) }

/-- What a barrier's instruction does when its older stores are complete. -/
def State.barrierDone (s : State) (u : Agent) (b : Barrier) : State :=
  let s1 := b.stores.foldl (fun s1 e => s1.sbAdd e) s
  match b.op with
  | some p => s.tlbiMove (s1.startOp p (s1.opLanes u)) u
  | none =>
    let s2 := match u with
      | .grp c sl => (match s1.grp c sl with | some g => s1.barrierGroup b c sl g | none => s1)
      | .core _ => s1
    s.tlbiMove (if b.adv = 0 then s2 else s2.finishLanes u b.adv false b.act) u

def State.setBarrier (s : State) (u : Agent) (b : Option Barrier) (lanes : List Nat) : State :=
  match u with
  | .core n => s.setCore n { s.core n with barrier := b }
  | .grp c sl => match s.grp c sl with | some g => s.setGrp c sl { g with barrier := b, opLanes := lanes } | none => s

/-- A barrier waits, or completes at once (R236). -/
def State.runBarrier (s : State) (u : Agent) (b : Barrier) (lanes : List Nat) : State :=
  let s1 := match u with
    | .core _ => s
    | .grp c sl => match s.grp c sl with | some g => s.setGrp c sl { g with opLanes := lanes } | none => s
  if b.sids.isEmpty then s1.barrierDone u b else s1.setBarrier u (some b) lanes

def State.barrierOf (s : State) (u : Agent) : Option Barrier :=
  match u with | .core n => (s.core n).barrier | .grp c sl => match s.grp c sl with | some g => g.barrier | none => none

/-- A unit's barrier no longer awaits a store, and may be complete (R236). -/
def State.barrierLess (s : State) (u : Agent) (sid : Nat) : State :=
  match s.barrierOf u with
  | none => s
  | some b =>
    let b1 := { b with sids := b.sids.filter (· ≠ sid) }
    if b1.sids.isEmpty then (s.setBarrier u none (s.opLanes u)).barrierDone u b1 else s.setBarrier u (some b1) (s.opLanes u)

/-- A store is complete and leaves the buffer: younger ones may leave, and its unit's barrier may be complete (R233, R236). -/
def State.sbRemove (s : State) (sid : Nat) : State :=
  match s.sb.find? sid with
  | none => s
  | some e => (({ s with sb := s.sb.del sid } : State).sbPump e.u).barrierLess e.u sid

/-- The home of a device store has accepted it (R218). -/
def State.sbAccept (s : State) (sid : Nat) : State :=
  match s.sb.find? sid with
  | none => s
  | some e =>
    let s1 := { s with sb := s.sb.set sid { e with accepted := true } }
    match s1.barrierOf e.u with
    | some b => if b.scope ≤ 1 && b.sids.elem sid then s1.barrierLess e.u sid else s1
    | none => s1

/-- A store ends with a bus error (R235); a barrier counts it as complete (R236). -/
def State.sbFail (s : State) (sid : Nat) : State :=
  match s.sb.find? sid with
  | none => s
  | some e => (s.storeError e).sbRemove sid

/-- What a lane's access is, for its checks. -/
structure AccKind where
  need : Need
  size : Nat
  /-- Ordered access, atomic, LL.D or SC.D: naturally aligned (R32). -/
  ordered : Bool
  /-- Atomic, LL.D or SC.D: no device memory (R32, R169). -/
  excl : Bool
  /-- LL.D or SC.D: no fabric-remote memory (R293). -/
  llsc : Bool := false
deriving DecidableEq, Repr

/-- What a part of an access finds at its page: the kind of memory, the page's hint and whether it may be written. -/
structure PagePart where
  mem : CmpMem := .cached
  hint : Nat := 0
  w : Bool := false
deriving DecidableEq, Repr

/-- A translated access of a lane: of device type or not, and its parts; the second is that of a second page. -/
structure TAcc where
  a : LAcc
  dev : Bool
  p1 : PagePart
  p2 : PagePart
deriving DecidableEq, Repr

/-- A lane's translated access, or the state after its exception. -/
inductive TRes where
  | ok (s : State) (t : TAcc)
  | bad (s : State)
  | wait
deriving DecidableEq, Repr

/-- The part of an access at a physical address; a fabric-remote module that the fabric does not know maps nothing (R171). -/
def State.partAt (s : State) (pa : Nat) (dev : Bool) (hint : Nat) (w : Bool) : PagePart :=
  let m := s.memKind pa dev
  ⟨if m = .remote ∧ !s.remoteKnown pa then .unmapped else m, hint, w⟩

/-- The checks of one lane's access in the order of R50. A record of an exception after a translation carries the level and
TIER of its leaf (R251; the level DEDUCED, log 83). -/
def State.checkAccess (s : State) (x : UCtx) (lane va : Nat) (k : AccKind) : TRes :=
  let who := match x.u with | .core n => XWho.core n | .grp c _ => XWho.cd c (s.unitAsid x.u)
  let det : Nat := match k.need with | .store => 16 | .fetch => 32 | .load => 0
  let cross := va % 0x4000 + k.size > 0x4000
  let second := (va / 0x4000 + 1) * 0x4000
  let misaligned (s1 : State) (leaf : Nat × Nat) : TRes := .bad (s1.raise x lane 3 0 (BitVec.ofNat 64 va) leaf.1 leaf.2)
  let xl (r : XRes) (at' : Nat) (good : State → Nat → Bool → PagePart → Nat × Nat → TRes) : TRes :=
    match r with
    | .wait => .wait
    | .bus s1 lv => .bad (s1.raise x lane 8 det (BitVec.ofNat 64 at') lv 0)
    | .poison s1 lv => .bad (s1.raise x lane 7 det (BitVec.ofNat 64 at') lv 0)
    | .fault s1 np p a lv t => .bad (s1.raiseXlate x lane k.need np p a k.ordered at' lv t)
    | .ok s1 pa dev h w leaf => good s1 pa dev (s1.partAt pa dev h w) leaf
  if k.ordered && va % k.size != 0 then misaligned s (0, 0)
  else xl (s.translate who k.need va) va (fun s1 pa dev p1 leaf =>
    let fin (s2 : State) (pa2 : Option Nat) (dev2 : Bool) (p2 : PagePart) : TRes :=
      let isDev := dev || dev2
      if isDev && !k.excl && va % k.size != 0 then misaligned s2 leaf
      else if k.excl && (isDev || p1.mem == .pcie || (k.llsc && p1.mem == .remote)) then
        .bad (s2.raiseXlate x lane .store false false true true va leaf.1 leaf.2)
      else .ok s2 ⟨{ lane := lane, va := va, pa := pa, pa2 := pa2, size := k.size, leaf := leaf }, isDev, p1, p2⟩
    if cross && dev && !k.excl then misaligned s1 leaf
    else if cross then xl (s1.translate who k.need second) second (fun s2 pa2 dev2 p2 _ => fin s2 (some pa2) dev2 p2)
    else fin s1 none dev p1)

inductive TAll where
  | ok (s : State) (l : List TAcc)
  | bad (s : State)
  | wait
deriving DecidableEq, Repr

/-- All lanes are translated before any request leaves; the lowest lane that faults is reported (R50, R250). -/
def State.checkAll (s : State) (x : UCtx) (k : AccKind) (va : Nat → Nat) : List Nat → TAll
  | [] => .ok s []
  | i :: r =>
    match s.checkAccess x i (va i) k with
    | .wait => .wait
    | .bad s1 => .bad s1
    | .ok s1 t =>
      match State.checkAll s1 x k va r with
      | .ok s2 l => .ok s2 (t :: l)
      | q => q

/-- The hint of a request: the instruction's, or the page's; LAST without write permission acts as STREAM (R182). -/
def pickHint (instr : Nat) (dev : Bool) (p : PagePart) : Nat :=
  let h := if instr = 0 then p.hint else instr
  if dev then 1 else if h = 4 && !p.w then 2 else h

/-- The lines that an access touches, each with the part that it belongs to. -/
def TAcc.parts (t : TAcc) : List (Nat × PagePart) :=
  match t.a.touches with
  | [x, y] => [(x, t.p1), (y, t.p2)]
  | xs => xs.map (fun x => (x, t.p1))

/-- Line requests in ascending order of the lowest lane that touches each line, whose hint they carry (R66, R182). An access of
device type is never merged with another one (R226). -/
def lineReqs (hint : Nat) (l : List TAcc) : List LineReq :=
  (l.flatMap (fun t => t.parts.map (fun e => (t, e)))).foldl (fun acc q =>
    let (t, e) := q
    if t.dev then acc ++ [{ line := e.1, mem := e.2.mem, lane := some t.a.lane }]
    else if acc.any (fun r => r.line = e.1 && r.lane.isNone) then acc
    else acc ++ [{ line := e.1, mem := e.2.mem, hint := pickHint hint false e.2 }]) []

/-- The stores of a lane's access as line entries. -/
def laneStores (u : Agent) (pc : Word) (lvl hint : Nat) (launch : Option Nat) (t : TAcc) (v : Nat) : List SbE :=
  let bytes := (upTo t.a.size).map (fun i => (t.a.addr i, BitVec.ofNat 8 (v >>> (8 * i))))
  t.parts.map (fun e =>
    let here := bytes.filter (fun b => b.1 / 128 = e.1)
    { u := u, mem := e.2.mem, line := e.1,
      mask := here.foldl (fun m b => m ||| maskAt (b.1 % 128) 1) 0,
      data := here.foldl (fun d b => d ||| lineAt (b.1 % 128) 1 b.2.toNat) 0,
      va := t.a.va, pa := match here with | b :: _ => b.1 | [] => t.a.pa, pc := pc, lvl := lvl, leaf := t.a.leaf,
      hint := pickHint hint t.dev e.2, dev := t.dev, launch := launch, lane := t.a.lane })

/-- Stores of one instruction to one line share a request (R66), the highest lane's bytes last (R36); it is known by its
lowest lane. -/
def shareLines (l : List SbE) : List SbE :=
  l.foldl (fun acc e =>
    if !e.dev && acc.any (fun x => x.line == e.line && !x.dev) then
      acc.map (fun x => if x.line = e.line ∧ !x.dev then { x with mask := x.mask ||| e.mask, data := mergeLine x.data e.data e.mask } else x)
    else acc ++ [e]) []

/-- The line stores of an instruction. -/
def instrStores (s : State) (x : UCtx) (hint : Nat) (val : Nat → Nat) (l : List TAcc) : List SbE :=
  shareLines (l.flatMap (fun t => laneStores x.u x.pc (unitLvl s x.u) hint (unitLaunch s x.u) t (val t.a.lane)))

/-- Stores to one unit's lines overlay what a load got from memory (R219). -/
def State.forward (s : State) (u : Agent) (line : Nat) (d : Line) : Line :=
  ((s.ownSb u).filter (fun e => e.2.line = line ∧ e.2.mem = .cached)).foldl (fun acc e => mergeLine acc e.2.data e.2.mask) d

/-- Older stores of the unit to the lines of an access that must be complete first: those whose bytes a load does not see in
the buffer, since it or they do not go through the cache (R219). -/
def State.sameLine (s : State) (u : Agent) (lines : List LineReq) (all : Bool) : List Nat :=
  ((s.ownSb u).filter (fun e => lines.any (fun r => r.line == e.2.line && (all || r.mem != CmpMem.cached || e.2.mem != CmpMem.cached)))).map (·.1)

/-- The data address of a tagged instruction (R399). -/
def State.tagMem (s : State) (u : Agent) (va : Nat) : State :=
  match s.tagOf u with
  | some t => if t.slot = agSlot u ∧ !t.mem then s.setTag u (some { t with va := va, mem := true }) else s
  | none => s

/-- An instruction that returns data: its lanes are checked, and its requests leave at once, or after older stores. -/
def State.beginOp (s : State) (x : UCtx) (k : AccKind) (kind : PKind) (va : Nat → Nat) (ops : Nat → Nat × Nat)
    (rd hint scope cls : Nat) (release : Option Nat) : Option State :=
  match s.checkAll x k va x.act with
  | .wait => none
  | .bad s1 => some s1
  | .ok s1 l =>
    let lines := lineReqs hint l
    let accs := l.map (fun t => { t.a with op1 := (ops t.a.lane).1, op2 := (ops t.a.lane).2 })
    let p : PendOp := { u := x.u, kind := kind, rd := rd, accs := accs, lines := lines, len := x.len,
                        scope := scope, cls := cls, launch := unitLaunch s1 x.u }
    let plainLoad := match kind with | .load .. => true | _ => false
    let same := s1.sameLine x.u lines (!plainLoad)
    let sids := match release with
      | some sc => s1.relStores x.u sc ++ same.filter (fun i => !(s1.relStores x.u sc).elem i)
      | none => same
    let s2 := (s1.count (agUnit x.u) 0x002 (match x.u with | .grp .. => lines.length | .core _ => 0)).tagMem x.u
      (match l with | t :: _ => t.a.va | [] => 0)
    some (s2.runBarrier x.u { sids := sids, op := some p, scope := if same.isEmpty then release.getD 4 else 4 } x.all)

/-- Reservations of other lanes on the lines that a lane stores to end (R37). -/
def State.laneWrites (s : State) (u : Agent) (l : List (Nat × Nat)) : State :=
  match u with
  | .core _ => s
  | .grp c sl => match s.grp c sl with
    | none => s
    | some g => s.setGrp c sl { g with lanes := (upTo g.lanes.length).map (fun i =>
        let x := g.lane i
        match x.thr.resv with
        | some r => if l.any (fun e => e.1 ≠ i ∧ e.2 = r) then { x with thr := { x.thr with resv := none } } else x
        | none => x) }

/-- An instruction that stores: its lanes are checked, its stores enter the buffer (highest lane last, R36), and it
retires; a release waits for older stores first (R222). Where the buffer has no room it waits. -/
def State.beginStore (s : State) (x : UCtx) (k : AccKind) (va : Nat → Nat) (val : Nat → Nat) (hint : Nat)
    (release : Option Nat) : Option State :=
  match s.checkAll x k va x.act with
  | .wait => none
  | .bad s1 => some s1
  | .ok s1 l =>
    let stores := instrStores s1 x hint val l
    if !s1.sbRoom x.u stores then none
    else
      let s2 := (s1.count (agUnit x.u) 0x002 (match x.u with | .grp .. => stores.length | .core _ => 0)).tagMem x.u
        (match l with | t :: _ => t.a.va | [] => 0)
      let s3 := s2.laneWrites x.u (l.flatMap (fun t => t.a.touches.map (fun y => (t.a.lane, y))))
      match release with
      | some sc => some (s3.runBarrier x.u { sids := s3.relStores x.u sc, stores := stores, adv := x.len, act := x.act.length, scope := sc } x.all)
      | none => some ((stores.foldl (fun s4 e => s4.sbAdd e) s3).next x)

/-- The first request of an instruction for a line that has no answer gets it. -/
def answerReq (line : Nat) (f : LineReq → LineReq) : List LineReq → List LineReq
  | [] => []
  | r :: rest => if r.line = line ∧ r.st ≠ 2 then f r :: rest else r :: answerReq line f rest

/-- The answer for one line of an instruction. -/
def State.answerLine (s : State) (tag line : Nat) (d : Line) (poison err : Bool) : State :=
  match s.ops.find? tag with
  | none => s
  | some p =>
    let lines := answerReq line (fun r =>
      { r with st := 2, data := if r.mem = .cached then s.forward p.u line d else d, poison := poison, err := err }) p.lines
    ({ s with ops := s.ops.set tag { p with lines := lines } }).tryFinish tag

/-- The answer of one register access of an instruction: a lane's access is performed once (R226). -/
def State.answerMmio (s : State) (tag addr v : Nat) (err : Bool) : State :=
  match s.ops.find? tag with
  | none => s
  | some p =>
    match p.accs.find? (fun a => a.pa = addr && !a.done) with
    | none => s
    | some a =>
      let accs := p.accs.map (fun b => if b.lane = a.lane then { b with done := true, old := v } else b)
      let lines := p.lines.map (fun r => if r.lane = some a.lane then { r with st := 2, err := r.err || err } else r)
      ({ s with ops := s.ops.set tag { p with accs := accs, lines := lines } }).tryFinish tag

end Sys2Proof.Machine
end

