-- ==== Sys2Proof/Machine/NumFmt.lean ====
section
/-! DEFINITION. Element formats of the engines and the output stage: decoding, accumulation, conversion with
round-to-nearest-even or stochastic rounding, and MX blocks (05, R81, R82, R87, R88). -/

namespace Sys2Proof.Machine

/- Codes (R81, R110). -/

/-- Fraction bits, least exponent, largest finite code, code of an overflow or infinity, NaN code. -/
structure EltFmt where
  bits : Nat
  mb : Nat
  emin : Int
  maxBody : Nat
  inf : Nat
  nan : Nat
deriving DecidableEq, Repr

def eltFmt (f : Nat) : Option EltFmt :=
  match f with
  | 0x0 => some ⟨16, 7, -126, 0x7F7F, 0x7F80, 0x7FC0⟩
  | 0x1 => some ⟨16, 10, -14, 0x7BFF, 0x7C00, 0x7E00⟩
  | 0x2 | 0x6 => some ⟨8, 3, -6, 0x7E, 0x7F, 0x7F⟩
  | 0x3 | 0x7 => some ⟨8, 2, -14, 0x7B, 0x7C, 0x7E⟩
  | 0x8 => some ⟨6, 2, -2, 0x1F, 0x1F, 0⟩
  | 0x9 => some ⟨6, 3, 0, 0x1F, 0x1F, 0⟩
  | 0xA => some ⟨4, 1, 0, 0x7, 0x7, 0⟩
  | _ => none

/-- Bits that one element takes in a line: an MXFP6 element fills a byte (R80, R112). -/
def eltBits (f : Nat) : Nat :=
  match f with
  | 0x0 | 0x1 => 16
  | 0xA => 4
  | 0xB | 0xC => 32
  | _ => 8

def isMx (f : Nat) : Bool := 6 ≤ f && f ≤ 0xA

/-- Pairing sets of operand formats (R81): 0 is no operand format. -/
def pairSet (f : Nat) : Nat :=
  match f with
  | 0x0 => 1 | 0x1 => 2 | 0x2 | 0x3 => 3 | 0x4 => 4 | 0x6 | 0x7 | 0x8 | 0x9 => 5 | 0xA => 6 | _ => 0

def pairs (f g : Nat) : Bool := pairSet f != 0 && pairSet f == pairSet g

/-- MACs of one cell in a clock (R80). -/
def macs (f : Nat) : Nat := match f with | 0x0 | 0x1 => 1 | 0xA => 4 | _ => 2

/-- The value of a code (R110): E5M2, BF16 and FP16 have infinities, E4M3 a NaN alone, the MX 6 and 4-bit formats neither. -/
def eltVal (f code : Nat) : FV :=
  match f with
  | 0x4 => let i := sext 8 code; .fin (i < 0) i.natAbs 0
  | _ =>
    match eltFmt f with
    | none => .nan false
    | some t =>
      let c := code % 2 ^ t.bits
      let neg := c >>> (t.bits - 1) == 1
      let body := c % 2 ^ (t.bits - 1)
      let e := body >>> t.mb
      let m := body % 2 ^ t.mb
      if body > t.maxBody then (if body = t.inf ∧ t.inf ≠ t.nan then .inf neg else .nan false)
      else if e = 0 then .fin neg m (t.emin - t.mb)
      else .fin neg (m + 2 ^ t.mb) (t.emin - t.mb + (e - 1 : Nat))

/-- An E8M0 scale applied to an element (R111, R113). -/
def scaled (v : FV) (c : Nat) : FV :=
  if c = 0xFF then .nan false
  else match v with
    | .fin n m e => .fin n m (e + (c : Int) - 127)
    | x => x

/-- Bits of element k of a line. -/
def lineElt (f : Nat) (l : Line) (k : Nat) : Nat := (l.toNat >>> (eltBits f * k)) % 2 ^ eltBits f

/- Accumulation (R82, R113, R114). -/

/-- Products added one by one into an FP32 accumulator. -/
def accFloat (acc : Nat) : List FV → Nat
  | [] => acc
  | p :: r => accFloat (f32.addV 0 (f32.val acc) p).1 r

/-- The sum of exact products in the order that a number names; an exact product of infinity and zero is a NaN. -/
def dotFloat (code acc : Nat) (ps : List (FV × FV)) : Nat :=
  accFloat acc (permute ps.length (Config.addOrder code) (ps.map (fun p => (mulV p.1 p.2).1)))

/-- INT8 products into INT32 modulo 2^32. -/
def dotInt (acc : Nat) (ps : List (Nat × Nat)) : Nat :=
  ((ps.foldl (fun (s : Int) p => s + sext 8 p.1 * sext 8 p.2) (acc : Int)) % (2 ^ 32 : Nat)).toNat

/- Conversion (R115 to R119). -/

/-- A magnitude m * 2^e as a multiple of 2^q: to nearest even, or with random bits r (R119). -/
def roundMag (r : Option Nat) (m : Nat) (e q : Int) : Nat :=
  match r with
  | none => (roundTo 0 false m e q).1
  | some r =>
    if q ≤ e then m <<< (e - q).toNat
    else
      let sh := (q - e).toNat
      let k := m >>> sh
      let f16 := ((m % 2 ^ sh) <<< 16) >>> sh
      if f16 + r ≥ 2 ^ 16 then k + 1 else k

/-- The body (exponent and fraction fields) of a rounded magnitude, without an upper limit. -/
def roundBody (t : EltFmt) (r : Option Nat) (m : Nat) (e : Int) : Nat :=
  if m = 0 then 0
  else
    let lsb := t.emin - t.mb
    let q := max (topExp m e - t.mb) lsb
    ((q - lsb).toNat <<< t.mb) + roundMag r m e q

/-- SCALE times a bank word, rounded to FP32 (R87). -/
def scaleY (scale acc : Nat) : Nat := (f32.mul 0 scale acc).1

/-- FP32 1.0. -/
def fpOne : Nat := 0x3F800000

/-- FP32 to BF16, FP16, E4M3 or E5M2 (R115). -/
def convFloat (t : EltFmt) (sat : Bool) (r : Option Nat) (y : Nat) : Nat :=
  let sgn (n : Bool) (b : Nat) : Nat := (n.toNat <<< (t.bits - 1)) ||| b
  match f32.val y with
  | .nan _ => t.nan
  | .inf n => sgn n t.inf
  | .fin n m e =>
    let b := roundBody t r m e
    sgn n (if b > t.maxBody then (if sat then t.maxBody else t.inf) else b)

/-- INT32 clamped to INT8 (R116). -/
def convInt8 (y : Nat) : Nat := ((max (-128) (min 127 (sext 32 y))) % 256).toNat

/-- One element of an output that is not MX. -/
def convElt (ofmt : Nat) (sat : Bool) (r : Option Nat) (y : Nat) : Nat :=
  match ofmt with
  | 0x4 => convInt8 y
  | 0xB | 0xC => y
  | _ => match eltFmt ofmt with | some t => convFloat t sat r y | none => y

/-- Exponent of the largest power of two in an MX element format (R117). -/
def mxEmax (f : Nat) : Int := match f with | 0x6 => 8 | 0x7 => 15 | 0x8 => 4 | _ => 2

/-- A block of values to an E8M0 scale and element codes; r gives the random bits of an element of the block (R117). -/
def convBlock (f : Nat) (r : Nat → Option Nat) (ys : List Nat) : Nat × List Nat :=
  match eltFmt f with
  | none => (0, ys)
  | some t =>
    let vs := ys.map f32.val
    if vs.any (fun v => match v with | .fin .. => false | _ => true) then (0xFF, ys.map (fun _ => 0))
    else
      let tops := vs.filterMap (fun v => match v with | .fin _ m e => if m = 0 then none else some (topExp m e) | _ => none)
      match tops with
      | [] => (0x7F, vs.map (fun v => match v with | .fin n _ _ => n.toNat <<< (t.bits - 1) | _ => 0))
      | h :: rest =>
        let e := rest.foldl max h
        let x := max (e - mxEmax f) (-127)
        ((x + 127).toNat, vs.zipIdx.map (fun p => match p.1 with
          | .fin n m g => (n.toNat <<< (t.bits - 1)) ||| min (roundBody t (r p.2) m (g - x)) t.maxBody
          | _ => 0))

/- The generator (R88). -/

def rngNext (x : Word) : Word :=
  let a := x ^^^ (x <<< 13)
  let b := a ^^^ (a >>> 7)
  b ^^^ (b <<< 17)

/-- Random bits of element k from a row's draw (R119). -/
def rngBits (x : Word) (k : Nat) : Nat :=
  bits (x >>> (16 * (k % 4))) 0 16 ^^^ bits (x.rotateRight (17 + k / 4)) 0 16

end Sys2Proof.Machine
end

