-- ==== Sys2Proof/Machine/Slots.lean ====
section
/-! DEFINITION. The tile store (R122 to R126): slot lines and scale bytes, reading and writing them, and poison. -/

namespace Sys2Proof.Machine

/-- Line i of a slot: 0-63 the tile's lines, 64-67 the scale lines. Contents that nothing has written since the team's
start are free values (R125). -/
def TSlot.line (t : TSlot) (i : Nat) : Line :=
  match t.data.find? i with
  | some l => l
  | none => match t.fill with
    | none => 0
    | some k => lineOfBytes ((upTo 128).map (fun j => Config.freeByte k (128 * i + j)))

def TSlot.bad (t : TSlot) (i : Nat) : Bool := t.poison.getLsbD i

/-- Poison bits of lines. -/
def setPBit (p : BitVec 64) (i : Nat) (b : Bool) : BitVec 64 := setBits p i 1 b.toNat

/-- A write of a whole line: its poison bit follows the data (R126). -/
def TSlot.put (t : TSlot) (i : Nat) (d : Line) (p : Bool) : TSlot :=
  { t with data := t.data.set i d, poison := if i < 64 then setPBit t.poison i p else t.poison }

/-- A line that has failed: poisoned, its bytes open. -/
def State.putLost (s : State) (c sl i : Nat) : State :=
  let (k, s1) := s.stamp
  s1.setSlot c sl ((s1.slot c sl).put i (lineOfBytes ((upTo 128).map (fun j => Config.freeByte k j))) true)

/-- Bytes of an image (R122). -/
def imgLines (fmt : Nat) : Nat := if fmt = 0xA then 68 else if 6 ≤ fmt ∧ fmt ≤ 9 then 66 else 64

/-- The slot lines that scale line i serves (R126). -/
def scaleMask (i : Nat) : BitVec 64 := if i % 2 = 0 then 0xFFFFFFFF else 0xFFFFFFFF00000000

/-- A scale line is written poisoned if any line that it serves is poisoned (R126). -/
def TSlot.outPoison (t : TSlot) (i : Nat) : Bool := if i < 64 then t.bad i else (t.poison &&& scaleMask i) != 0

/-- Scale byte of block b of line i (R123). -/
def scaleAt (t : TSlot) (fmt i b : Nat) : Nat :=
  let off := if fmt = 0xA then 256 * (b / 4) + 4 * i + b % 4 else 4 * i + b
  (lineByte (t.line (64 + off / 128)) (off % 128)).toNat

def setScale (t : TSlot) (fmt i b v : Nat) : TSlot :=
  let off := if fmt = 0xA then 256 * (b / 4) + 4 * i + b % 4 else 4 * i + b
  let l := 64 + off / 128
  { t with data := t.data.set l (mergeLine (t.line l) (lineAt (off % 128) 1 v) (maskAt (off % 128) 1)) }

/-- A slot becomes EMPTY or FULL, and whoever waits at a hand-off tries again. -/
def State.slotState (s : State) (c sl st : Nat) : State := (s.setSlot c sl { s.slot c sl with st := st, part := 0 }).wakeHand c

end Sys2Proof.Machine
end

