-- ==== Sys2Proof/Machine/EngArith.lean ====
section
/-! DEFINITION. What the engine operations compute (R82 to R92, R140): streaming, the output stage, softmax, and the
poison that passes through them. -/

namespace Sys2Proof.Machine

/- exp2 (R90). -/

/-- 2^(2^-i) with 64 fraction bits, for i = 1 to n. -/
def exp2Roots : Nat → Nat → List Nat
  | 0, _ => []
  | n + 1, r => let q := isqrt 65 0 (r <<< 64); q :: exp2Roots n q

/-- 2^x of a finite x below 2^7, as a multiple of 2^-213, from 64 fraction bits of x. -/
def exp2Fix (neg : Bool) (m : Nat) (e : Int) : Nat :=
  let mag : Nat := if 0 ≤ e + 64 then m <<< (e + 64).toNat else m >>> (-(e + 64)).toNat
  let x : Int := if neg then -(mag : Int) else mag
  let i := x / (2 ^ 64 : Nat)
  let f := (x % (2 ^ 64 : Nat)).toNat
  let p := ((exp2Roots 64 (2 ^ 65)).zipIdx).foldl (fun acc r => if (f >>> (63 - r.2)) % 2 = 1 then (acc * r.1) >>> 64 else acc) (2 ^ 64)
  if 0 ≤ i + 213 then (p <<< (i + 213).toNat) >>> 64 else 0

/-- One fixed device function: any that keeps R90's bound of 2 units in the last place, with exp2 of minus infinity 0 and
of a NaN a NaN. A constant that breaks the bound is replaced by the truncated value. -/
def exp2 (x : Nat) : Nat :=
  match f32.val x with
  | .nan _ => f32.qnan
  | .inf n => if n then 0 else f32.infBits false
  | .fin n m e =>
    if !n && m != 0 && 7 ≤ topExp m e then f32.infBits false
    else
      let v := exp2Fix n m e
      let q := max (topExp v (-213) - 23) (-149)
      let u := 2 ^ (q + 213).toNat
      let near (c : Nat) : Bool := match f32.val c with
        | .fin k m1 e1 => !k && (let w := m1 <<< (e1 + 213).toNat; w ≤ v + 2 * u && v ≤ w + 2 * u)
        | _ => false
      let c := (Config.exp2 (BitVec.ofNat 32 x)).toNat
      if near c then c else (f32.round 3 false v (-213)).1

/- Banks and operand lines. -/

/-- Bank row i of bank b, 64 words; contents that nothing has written since the binding are free values (R95). -/
def Engine.row (x : Engine) (b i : Nat) : List Nat :=
  match x.banks.find? (b * 64 + i) with
  | some w => (upTo 64).map (fun j => (w.toNat >>> (32 * j)) % 2 ^ 32)
  | none => match x.bankFill with
    | none => List.replicate 64 0
    | some k => (upTo 64).map (fun j => ofLeBytes ((upTo 4).map (fun n => Config.freeByte k ((b * 64 + i) * 256 + 4 * j + n))))

def packRow (ws : List Nat) : BitVec 2048 := BitVec.ofNat 2048 (ws.foldr (fun w acc => w % 2 ^ 32 + acc * 2 ^ 32) 0)

def Engine.bad (x : Engine) (b i : Nat) : Bool := x.bankPoison.getLsbD (b * 64 + i)

/-- Bank rows are written, each with its poison bit. -/
def Engine.putRow (x : Engine) (b i : Nat) (ws : List Nat) (p : Bool) : Engine :=
  let k := b * 64 + i
  let one := BitVec.ofNat 256 (2 ^ k)
  { x with banks := x.banks.set k (packRow ws), bankPoison := if p then x.bankPoison ||| one else x.bankPoison &&& ~~~one }

def Engine.poisonRow (x : Engine) (b i : Nat) : Engine := { x with bankPoison := x.bankPoison ||| BitVec.ofNat 256 (2 ^ (b * 64 + i)) }

/-- Elements of line i of a tile: their codes, and their values with their block's scale (R82, R111). -/
def eltsOf (fmt : Nat) (t : TSlot) (i : Nat) : List (Nat × FV) :=
  let l := t.line i
  (upTo (64 * macs fmt)).map (fun k =>
    let c := lineElt fmt l k
    let v := eltVal fmt c
    (c, if isMx fmt then scaled v (scaleAt t fmt i (k / 32)) else v))

/-- Products into one accumulator word: INT8 modulo 2^32, the others in FP32 in some order (R82). -/
def dotAny (fmt code acc : Nat) (ps : List ((Nat × FV) × (Nat × FV))) : Nat :=
  if fmt = 4 then dotInt acc (ps.map (fun p => (p.1.1, p.2.1))) else dotFloat code acc (ps.map (fun p => (p.1.2, p.2.2)))

def Engine.word (w : NMap W32) (d : W32) (i : Nat) : Nat := (w.get d i).toNat

def Engine.mOf (x : Engine) (i : Nat) : Nat := Engine.word x.m 0xFF800000 i
def Engine.lsOf (x : Engine) (i : Nat) : Nat := Engine.word x.ls 0 i
def Engine.pendOf (x : Engine) (i : Nat) : Nat := Engine.word x.pend 0x3F800000 i
def Engine.limitOf (x : Engine) (i : Nat) : Nat := Engine.word x.limit 0xFFFFFFFF i
def Engine.smBad (x : Engine) (i : Nat) : Bool := x.smPoison.getLsbD i

def anyBad (tiles : List TSlot) : Bool := tiles.any (fun t => t.poison != 0)

/- Streaming (R84, R85, R91, R140). -/

/-- The start value of a bank word: zero, or the word, or the word with the pending correction. -/
def startWord (zero rescale : Bool) (pend w : Nat) : Nat := if zero then 0 else if rescale then (f32.mul 0 pend w).1 else w

/-- WEST: row i of one bank from stationary line i and every streamed line. -/
def Engine.west (x : Engine) (b fmt : Nat) (zero : Bool) (stamp : Nat) (tiles : List TSlot) : Engine :=
  let fs := x.actFmt.getD fmt
  let lp := anyBad tiles
  (upTo 64).foldl (fun x1 i =>
    let a := eltsOf fs x.act i
    let old := x.row b i
    let ws := (upTo 64).map (fun j =>
      dotAny fmt (stamp * 4096 + i * 64 + j) (startWord zero false 0 (at' old 0 j)) (tiles.flatMap (fun t => a.zip (eltsOf fmt t j))))
    x1.putRow b i ws ((!zero && x.bad b i) || lp || x.act.bad i)) x

/-- NORTH: row i of v banks, column block t of the stationary tile. -/
def Engine.north (x : Engine) (b fmt t : Nat) (zero rescale : Bool) (stamp : Nat) (tiles : List TSlot) : Engine :=
  let fs := x.actFmt.getD fmt
  let lp := anyBad tiles
  let x2 := (upTo 64).foldl (fun x1 i =>
    let a := (eltsOf fs x.act i).drop (64 * t)
    (upTo (macs fmt)).foldl (fun x1 q =>
      let old := x.row (b + q) i
      let ws := (upTo 64).map (fun c =>
        dotAny fmt (stamp * 16384 + i * 256 + 64 * q + c) (startWord zero rescale (x.pendOf i) (at' old 0 c))
          (tiles.flatMap (fun u => a.zip ((upTo 64).map (fun j => at' (eltsOf fmt u j) (0, .nan false) (64 * q + c))))))
      x1.putRow (b + q) i ws ((!zero && x.bad (b + q) i) || lp || x.act.bad i || (rescale && x.smBad i))) x1) x
  if rescale then { x2 with pend := [] } else x2

/- The output stage (R87, R115 to R119). -/

/-- Values as elements `first` on of line ln of a tile or copy; an MX block also gets its scale. A write of the whole line
sets or clears its poison bit, a write of a part can only set it (R126). -/
def putElts (t : TSlot) (fmt : Nat) (sat : Bool) (r : Nat → Option Nat) (ln first : Nat) (ys : List Nat) (p : Bool) : TSlot :=
  let n := eltBits fmt
  let (codes, t1) : List Nat × TSlot :=
    if isMx fmt then
      (upTo (ys.length / 32)).foldl (fun (acc : List Nat × TSlot) b =>
        let (sc, cs) := convBlock fmt (fun k => r (32 * b + k)) ((ys.drop (32 * b)).take 32)
        (acc.1 ++ cs, setScale acc.2 fmt ln (first / 32 + b) sc)) ([], t)
    else (ys.zipIdx.map (fun y => convElt fmt sat (r y.2) y.1), t)
  let v := codes.zipIdx.foldl (fun acc c => acc ||| ((c.1 % 2 ^ n) <<< (n * (first + c.2)))) 0
  let m := (2 ^ (n * codes.length) - 1) <<< (n * first)
  { t1 with data := t1.data.set ln ((t1.line ln &&& ~~~(BitVec.ofNat 1024 m)) ||| BitVec.ofNat 1024 v),
            poison := setPBit t1.poison ln (p || (codes.length * n != 1024 && t1.bad ln)) }

/-- Values of a bank row: integers as they are, others times a scale; no scale gives zeros (R87, R92). -/
def Engine.rowY (x : Engine) (isInt : Bool) (scale : Option Nat) (b i : Nat) : List Nat :=
  (x.row b i).map (fun w => if isInt then w else match scale with | none => 0 | some c => scaleY c w)

/-- Random bits of the elements of a row from its draw, or none under round-to-nearest-even. -/
def drawBits (draws : List Word) (n k : Nat) : Option Nat := match draws[n]? with | some x => some (rngBits x k) | none => none

/-- DRAIN of one bank into one tile or two (R87); `part` places the rows of an output of less than a line. -/
def Engine.drain (x : Engine) (b scale ofmt part : Nat) (sat : Bool) (draws : List Word) (dst : List TSlot) : List TSlot :=
  let isInt := ofmt == 4 || ofmt == 0xC
  (upTo 64).foldl (fun dst i =>
    let ys := x.rowY isInt (some scale) b i
    let p := x.bad b i
    if ofmt = 0xB ∨ ofmt = 0xC then
      dst.zipIdx.map (fun t => if t.2 = i / 32 then
        putElts (putElts t.1 ofmt sat (fun _ => none) (2 * (i % 32)) 0 (ys.take 32) p) ofmt sat (fun _ => none) (2 * (i % 32) + 1) 0 (ys.drop 32) p
        else t.1)
    else dst.map (fun t => putElts t ofmt sat (drawBits draws i) i (64 * part) ys p)) dst

/-- Scale of NORM for row i: 1 / LS, and none where LS is a zero (R92). -/
def Engine.normScale (x : Engine) (i : Nat) : Option Nat :=
  if (f32.val (x.lsOf i)).isZero then none else some (f32.div 0 fpOne (x.lsOf i)).1

/-- NORM of n banks into ⌈64n / E⌉ tiles; draws go bank by bank (R92). -/
def Engine.norm (x : Engine) (b n ofmt : Nat) (sat : Bool) (draws : List Word) (dst : List TSlot) : List TSlot :=
  let e := 1024 / eltBits ofmt
  (upTo 64).foldl (fun dst i =>
    let ys := (upTo n).flatMap (fun q => x.rowY false (x.normScale i) (b + q) i)
    let p := x.smBad i || (upTo n).any (fun q => x.bad (b + q) i)
    dst.zipIdx.map (fun t =>
      putElts t.1 ofmt sat (fun k => let z := t.2 * e + k; if z < 64 * n then drawBits draws ((z / 64) * 64 + i) (z % 64) else drawBits draws i 0) i 0
        (padTo' e ((ys.drop (t.2 * e)).take e)) p)) dst
where
  padTo' (n : Nat) (l : List Nat) : List Nat := l ++ List.replicate (n - l.length) 0

/-- The four state lines of NORM: M, then LS (R92, R140). -/
def Engine.stateLine (x : Engine) (h : Nat) : Line × Bool :=
  let f := if h < 2 then x.mOf else x.lsOf
  let rows := (upTo 32).map (fun k => 32 * (h % 2) + k)
  (lineOfBytes (rows.flatMap (fun i => leBytes 4 (f i))), rows.any x.smBad)

/- Softmax (R89, R90). -/

def Engine.smreset (x : Engine) : Engine := { x with m := [], ls := [], pend := [], limit := [], smPoison := 0 }

/-- LIMIT from two lines; a poisoned line poisons the state of its 32 rows (R140). -/
def Engine.slimit (x : Engine) (l0 l1 : Line × Bool) : Engine :=
  let put (x : Engine) (h : Nat) (l : Line × Bool) : Engine :=
    let x1 := (upTo 32).foldl (fun x1 k => { x1 with limit := x1.limit.set (32 * h + k) (BitVec.ofNat 32 (lineBytes l.1 (4 * k) 4)) }) x
    if l.2 then { x1 with smPoison := x1.smPoison ||| scaleMask h } else x1
  put (put x 0 l0) 1 l1

def isNanW (w : Nat) : Bool := (f32.val w).isNan
def fpGreater (a b : Nat) : Bool := if isNanW b then false else isNanW a || (f32.val a).cmp (f32.val b) == 2
def fpMax (a b : Nat) : Nat := if fpGreater b a then (if isNanW b then f32.qnan else b) else a
def fpSub (a b : Nat) : Nat := (f32.sub 0 a b).1
def fpAdd (a b : Nat) : Nat := (f32.add 0 a b).1
def negInf : Nat := 0xFF800000

/-- Adjacent pairs added, level by level: 64 values in 6 levels. -/
def treeSum : Nat → List Nat → Nat
  | 0, l => at' l 0 0
  | n + 1, l => treeSum n ((upTo (l.length / 2)).map (fun k => fpAdd (at' l 0 (2 * k)) (at' l 0 (2 * k + 1))))

/-- One row of SMAX: the probabilities, and the new M, LS and PEND. An element that LIMIT excludes gets 0, in a row that a
NaN has made NaN too, as the pseudocode of R90 has it (DEDUCED, log 83). -/
def smaxRow (m ls pend limit sigma tb : Nat) (row : List Nat) : List Nat × Nat × Nat × Nat :=
  let sc := row.zipIdx.map (fun p => if tb + p.2 > limit then negInf else (f32.mul 0 sigma p.1).1)
  let mnew := sc.foldl fpMax m
  let c := if !isNanW mnew && !isNanW m && (f32.val mnew).cmp (f32.val m) == 1 then fpOne else exp2 (fpSub m mnew)
  let p := sc.map (fun x => if x = negInf then 0 else exp2 (fpSub x mnew))
  if (upTo row.length).all (fun j => tb + j > limit) then (p, m, ls, pend)
  else (p, mnew, fpAdd (f32.mul 0 ls c).1 (treeSum 6 p), (f32.mul 0 pend c).1)

/-- SMAX (R90, R140). -/
def Engine.smax (x : Engine) (b sigma tb pfmt t : Nat) : Engine :=
  (upTo 64).foldl (fun x1 i =>
    let (p, m, ls, pend) := smaxRow (x.mOf i) (x.lsOf i) (x.pendOf i) (x.limitOf i) sigma tb (x.row b i)
    let bad := x.bad b i
    let sh := putElts x1.shadow pfmt false (fun _ => none) i (64 * t) p bad
    let sh1 := if x.shadow.bad i then { sh with poison := setPBit sh.poison i true } else sh
    { x1 with m := x1.m.set i (BitVec.ofNat 32 m), ls := x1.ls.set i (BitVec.ofNat 32 ls), pend := x1.pend.set i (BitVec.ofNat 32 pend),
              shadow := sh1, smPoison := if bad then setPBit x1.smPoison i true else x1.smPoison }) { x with shFmt := some pfmt }

/-- SLOAD and SWAP (R83). -/
def Engine.sload (x : Engine) (fmt : Nat) (t : TSlot) : Engine := { x with shadow := { t with st := 0, part := 0 }, shFmt := some fmt }
def Engine.swap (x : Engine) : Engine := { x with act := x.shadow, shadow := x.act, actFmt := x.shFmt, shFmt := x.actFmt }

end Sys2Proof.Machine
end

