-- ==== Sys2Proof/Machine/Fetch.lean ====
section
/-! DEFINITION. The fetch of an instruction's words (R169, R197, R201) and its issue on a unit (R21 to R27, R43). -/

namespace Sys2Proof.Machine

inductive FRes where
  | ok (s : State)
  | wait
  | bad (s : State)
  /-- A word is on its way from memory that no cache can hold. -/
  | asked (s : State)
deriving DecidableEq, Repr

/-- A line of instructions as a unit's fetch finds it. A compute-die core has a buffer of eight lines before its cluster
cache, which no snoop reaches (R197); both sides fetch under class 2 (R201). -/
def State.ifetch (s : State) (u : Agent) (line : Nat) : MR :=
  match u with
  | .core _ => s.agentRead 64 line 2
  | .grp c _ =>
    match (s.coreS c).ibuf.find? (fun e => e.1 == line) with
    | some (_, d, p) => if s.memOk then .ok s d p else .bus
    | none =>
      match s.agentRead (c / 8) line 2 with
      | .ok s1 d p => .ok (s1.setCoreS c { s1.coreS c with ibuf := (line, d, p) :: (s1.coreS c).ibuf.take 7 }) d p
      | r => r

def State.farOf (s : State) (u : Agent) : List (Nat × Nat) :=
  match u with
  | .core n => (s.core n).far
  | .grp c slot => match s.grp c slot with | some g => g.far | none => []

/-- Fetch of one word (R247, R249, R49): its address is translated, and it may meet a fault, a bus error or poison. A word in
memory that no cache can hold is asked for by a request of its own, and the unit issues when it has come (R169). -/
def State.fetch (s : State) (x : UCtx) (va : Nat) : FRes :=
  let who := match x.u with | .core n => XWho.core n | .grp c _ => XWho.cd c (s.unitAsid x.u)
  let lane := (x.all.head?).getD 0
  let w : Word := BitVec.ofNat 64 va
  match s.translate who .fetch va with
  | .wait => .wait
  | .bus s1 lv => .bad (s1.raise x lane 8 32 w lv 0)
  | .poison s1 lv => .bad (s1.raise x lane 7 32 w lv 0)
  | .fault s1 np perm attr level tier => .bad (s1.raiseXlate x lane .fetch np perm attr false va level tier)
  | .ok s1 pa dev _ _ leaf =>
    let bad (s2 : State) (code : Nat) : FRes := .bad (s2.raise x lane code 32 w leaf.1 leaf.2)
    if isLocal pa then
      match s1.ifetch x.u (pa / 128) with
      | .wait => .wait
      | .bus => bad s1 8
      | .ok s2 _ p => if p then bad s2 7 else .ok s2
    else
      let m := s1.memKind pa dev
      if m = .unmapped ∨ (m = .remote ∧ !s1.remoteKnown pa) then bad s1 8
      else match (s1.farOf x.u).find? (fun e => e.1 == pa / 128) with
        | some (_, 0) => .ok s1
        | some (_, 1) => bad s1 7
        | some _ => bad s1 8
        | none =>
          let p : PendOp := { u := x.u, kind := .fetch, lines := [{ line := pa / 128, mem := m }], len := x.len, launch := unitLaunch s1 x.u }
          .asked (s1.startOp p x.all)

/-- Both words of an instruction. Under a guard that is false in every lane a fault of the second word raises nothing,
and the instruction is a no-operation (R27). -/
def State.fetchAll (s : State) (x : UCtx) (noGuard : Bool) : FRes × Bool :=
  match s.fetch x x.pc.toNat with
  | .ok s1 =>
    if x.len = 4 then (.ok s1, false)
    else match s1.fetch x (x.pc.toNat + 4) with
      | .ok s2 => (.ok s2, false)
      | .wait => (.wait, false)
      | .asked s2 => (.asked s2, false)
      | .bad s2 => if noGuard then (.ok s1, true) else (.bad s2, false)
  | r => (r, false)

/-- A prefix that is ILLEGAL whatever second word follows it: a reserved class or hint, an unassigned gop, and modifiers or a
guard that its gop does not allow with any register (R25, R27, R65). -/
def prefixBad (iw : IWord) : Bool :=
  match iw.pre with
  | none => false
  | some p =>
    match fieldOf p 20 2 with
    | 0 => false
    | 1 => (decodeI ⟨some p, 0xE8000000⟩).op.isNone
    | 2 => fieldOf p 17 3 > 4
    | _ => true

/-- Issue of an instruction of one row: `row` says which operations are the row's, and `k` is its effect in the active
lanes, none where the instruction must wait; `conv` marks a convergence point. A unit that cannot issue leaves the state
as it is. -/
def issue (u : Agent) (iw : IWord) (s : State) (row : Op → Bool) (k : State → UCtx → Op → Option Out)
    (conv : Bool := false) : Out :=
  if !u.wf || !iwordWf iw then .refused .illFormed
  else match s.ready u with
  | none => .next s
  | some (pc, all) =>
    let d := decodeI iw
    let act := all.filter (fun i => guardTrue (s.thr u i) d)
    let x : UCtx := ⟨u, pc, d.len, all, act, iw⟩
    match s.fetchAll x act.isEmpty with
    | (.wait, _) => .next s
    | (.bad s1, _) => .next s1
    | (.asked s1, _) => .next s1
    | (.ok s0, skip) =>
      let s1 := s0.tagIssue x
      if skip then .next (if prefixBad iw then s1.raiseWord x 1 else s1.next x)
      else match d.op with
      | none => .next (s1.raiseWord x 1)
      | some op =>
        if !row op then .refused .wordsOfAnotherRow
        else
          let lg := s1.legal u op
          if lg = 1 then .next (s1.raiseWord x 1)
          else if conv && !s1.converged x then .next (s1.waitMat x)
          else if act.isEmpty then .next (s1.next x)
          else if lg = 2 then .next (s1.raiseWord x 2)
          else
            if !s1.regsLegal u op then .next (s1.raiseWord x 1)
            else
              let s2 := if x.act.any (fun i => (s1.thr u i).resv.isSome) then s1.mapThr x (fun t => t.noteInstr op) else s1
              (k s2 x op).getD (.next s)

/-- An instruction issues on a unit and reaches its own effect: the unit is ready, every word is fetched, the words
decode, the unit's part and level allow the operation, its registers exist, and its guard is true in some lane. The
answer holds the unit at the instruction, the operation, and the state after fetch, tagging and the note of a
reservation in force. -/
def issued (s : State) (u : Agent) (iw : IWord) : Option (UCtx × Op × State) :=
  if !u.wf || !iwordWf iw then none
  else match s.ready u, (decodeI iw).op with
  | some (pc, all), some op =>
    let act := all.filter (fun i => guardTrue (s.thr u i) (decodeI iw))
    let x : UCtx := ⟨u, pc, (decodeI iw).len, all, act, iw⟩
    if act.isEmpty then none
    else match s.fetchAll x false with
    | (.ok s0, false) =>
      let s1 := s0.tagIssue x
      if s1.legal u op = 0 && s1.regsLegal u op then
        some (x, op, if act.any (fun i => (s1.thr u i).resv.isSome) then s1.mapThr x (fun t => t.noteInstr op) else s1)
      else none
    | _ => none
  | _, _ => none

/-- A scalar instruction: each active lane changes its own registers, and the unit moves on. -/
def scalar (u : Agent) (iw : IWord) (s : State) (f : Op → Option (Word → Thr → Thr)) : Out :=
  issue u iw s (fun op => (f op).isSome) (fun s1 x op =>
    match f op with
    | none => some (.refused .wordsOfAnotherRow)
    | some g => some (.next (((s1.mapThr x (g x.pc)).noteF x.u op.fDst).next x)))

/-- A control transfer: each active lane changes its registers and may name a target (R40). -/
def transfer (u : Agent) (iw : IWord) (s : State) (f : Op → Option (Word → Thr → Thr × Option Word)) : Out :=
  issue u iw s (fun op => (f op).isSome) (fun s1 x op =>
    match f op with
    | none => some (.refused .wordsOfAnotherRow)
    | some g =>
      let nextPc := x.pc + BitVec.ofNat 64 x.len
      let tgt (i : Nat) : Option Word := if x.act.elem i then (g nextPc (s1.thr x.u i)).2 else none
      some (.next ((s1.mapThr x (fun t => (g nextPc t).1)).advance x tgt false)))

end Sys2Proof.Machine
end

