-- ==== Sys2Proof/Machine/Matrix.lean ====
section
/-! DEFINITION. Group-driven matrix instructions: fragments, MLD.S, MMA, MMA.N and MST (R96 to R106). -/

namespace Sys2Proof.Machine

/-- Engine of a group's port (R56, R96). -/
def grpEngine (c slot : Nat) : Nat := 4 * c + slot % 4

/-- An engine's error check: corrections are counted and reported, an uncorrectable error sets UE (R106). -/
def State.engEcc (s : State) (e : Nat) (ecc : Ecc) : State :=
  match ecc with
  | .good => s
  | .corrected => (s.incFld .mxStatus e 0 8 8).wsReport 2
  | .uncorrectable => s.setFld .mxStatus e 0 0 1 1

/- Fragments (R98). -/

/-- Words of a fragment of a size in bytes from a base register; lanes that are not active supply zero (R103). -/
def readFrag (g : Group) (act : List Nat) (base size : Nat) : List Word :=
  (upTo (size / 8)).map (fun w =>
    if act.elem (w % g.width) then (g.lane (w % g.width)).thr.getF (base + w / g.width) else 0)

/-- Registers that a fragment takes in every lane. -/
def fragRegs (w size : Nat) : Nat := size / 8 / w

/-- e bytes at byte i of a fragment. -/
def fragElt (ws : List Word) (i e : Nat) : Nat := ((at' ws 0 (i / 8)).toNat >>> (8 * (i % 8))) % 2 ^ (8 * e)

/-- The parts of a fragment of 32-bit words that lie in active lanes are written. -/
def writeFrag (g : Group) (act : List Nat) (base : Nat) (c : List Nat) : Group :=
  (upTo (c.length / 2)).foldl (fun g1 w =>
    let i := w % g.width
    if act.elem i then
      g1.setThr i ((g1.lane i).thr.setF (base + w / g.width) (BitVec.ofNat 64 (at' c 0 (2 * w) + at' c 0 (2 * w + 1) * 2 ^ 32)))
    else g1) g

/-- C + A × B of one element (R82, R100): the products from zero in some order, then the C input. -/
def mmaElt (isInt : Bool) (fa fb code c : Nat) (ps : List (Nat × Nat)) : Nat :=
  if isInt then dotInt c ps
  else
    let sum := dotFloat code 0 (ps.map (fun p => (eltVal fa p.1, eltVal fb p.2)))
    (f32.addV 0 (f32.val sum) (f32.val c)).1

/-- The fragment product: north entry takes row k of B, west entry line n (R98, R100). -/
def mmaAll (north : Bool) (shape fa fb stamp : Nat) (a b : List Word) (c : Nat → Nat) : List Nat :=
  let m := if shape = 1 then 64 else 32
  let e := eltBits fb / 8
  let kk := 64 / e
  (upTo (m * m)).map (fun x =>
    let i := x / m
    let n := x % m
    mmaElt (fb == 4) fa fb (stamp * 4096 + x) (c x) ((upTo kk).map (fun k =>
      (fragElt a (64 * i + e * k) e, fragElt b (if north then m * e * k + e * n else 64 * n + e * k) e))))

/-- Shape and format allowed for the group's width (R53, R81, R97). -/
def matOk (g : Group) (shape fmt : Nat) : Bool := g.width != 8 && (shape == 0 || g.width == 64) && fmt ≤ 4

/-- Another group of the port stands within an MST, which holds the engine until its last row (R96). -/
def State.mstElsewhere (s : State) (c slot : Nat) : Bool :=
  s.grps.any (fun e => e.1 / 64 == c && e.1 % 4 == slot % 4 && e.1 % 64 != slot && e.2.mstRow != 0)

/-- A matrix instruction: convergence, then its effect on the group when no channel binds its engine (R95, R103) and no other
group of the port stands within an instruction (R96). -/
def matrixOp (u : Agent) (iw : IWord) (s : State) (ecc : Ecc) (row : Op → Bool) (ok : Op → Group → Bool)
    (k : State → UCtx → Op → Nat → Nat → Group → Option Out) : Out :=
  issue u iw s row (fun s1 x op =>
    match x.u with
    | .core _ => some (.refused .wordsOfAnotherRow)
    | .grp c slot =>
      match s1.grp c slot with
      | none => some (.next s1)
      | some g =>
        if !ok op g then some (.next (s1.raiseWord x 1))
        else if (s1.eng (grpEngine c slot)).owner.isSome || s1.mstElsewhere c slot then none
        else
          let s2 := s1.engEcc (grpEngine c slot) ecc
          if ecc = .uncorrectable then some (.next (s2.raise x ((x.act.head?).getD 0) 7 0 0 0 0))
          else k s2 x op c slot g) true

/-- MLD.S binds and loads the stationary fragment (R99). -/
def execMldS (u : Agent) (iw : IWord) (ecc : Ecc) (s : State) : Out :=
  matrixOp u iw s ecc (fun op => match op with | .mlds .. => true | _ => false)
    (fun op g => match op with
      | .mlds shape fmt a => matOk g shape fmt && a + fragRegs g.width (if shape = 1 then 4096 else 2048) ≤ g.fn
      | _ => false)
    (fun s1 x op c slot g => match op with
      | .mlds shape fmt a =>
        let size := if shape = 1 then 4096 else 2048
        some (.next ((s1.setGrp c slot { g with bind := some ⟨a, fragRegs g.width size, shape, fmt, readFrag g x.act a size⟩ }).next x))
      | _ => some (.refused .wordsOfAnotherRow))

/-- Checks of MMA and MMA.N: the fragments' registers, and the binding (R98, R99). -/
def mmaOk (op : Op) (g : Group) : Bool :=
  match op with
  | .mma _ shape fmt _ rd b =>
    matOk g shape fmt && rd + fragRegs g.width (if shape = 1 then 16384 else 4096) ≤ g.fn &&
    b + fragRegs g.width (if shape = 1 then 4096 else 2048) ≤ g.fn &&
    (match g.bind with | some x => x.shape == shape && pairs x.fmt fmt | none => false)
  | _ => false

def beginMma (s : State) (x : UCtx) (op : Op) (c slot : Nat) (g : Group) : Option Out :=
  match op, g.bind with
  | .mma north shape fmt z rd b, some bd =>
    let (k, s1) := s.stamp
    let bw := readFrag g x.act b (if shape = 1 then 4096 else 2048)
    let csize := if shape = 1 then 16384 else 4096
    let cw := if z then [] else readFrag g x.act rd csize
    let out := mmaAll north shape bd.fmt fmt k bd.words bw (fun e => fragElt cw (4 * e) 4)
    let s2 := s1.setGrp c slot (writeFrag g x.act rd out)
    some (.next ((s2.noteF x.u ((upTo (fragRegs g.width csize)).map (fun r => rd + r))).next x))
  | _, _ => some (.refused .wordsOfAnotherRow)

/-- MMA: west entry (R100). -/
def execMma (u : Agent) (iw : IWord) (ecc : Ecc) (s : State) : Out :=
  matrixOp u iw s ecc (fun op => match op with | .mma n .. => !n | _ => false) mmaOk beginMma

/-- MMA.N: north entry (R100). -/
def execMmaN (u : Agent) (iw : IWord) (ecc : Ecc) (s : State) : Out :=
  matrixOp u iw s ecc (fun op => match op with | .mma n .. => n | _ => false) mmaOk beginMma

/-- Outputs of MST (R101). -/
def mstOut (ofmt : Nat) (iacc : Bool) : Bool := if iacc then ofmt == 4 || ofmt == 0xC else ofmt ≤ 3 || ofmt == 0xB

/-- Lanes that hold bytes of row i of C. -/
def rowLanes (w m i : Nat) : List Nat := ((upTo (m / 2)).map (fun j => (m / 2 * i + j) % w)).eraseDups

/-- A run of bytes cut at line boundaries: address and length of each piece. -/
def cutLines (va n : Nat) : List (Nat × Nat) :=
  let l0 := va / 128
  let l1 := (va + n - 1) / 128
  (upTo (l1 - l0 + 1)).map (fun j =>
    let a := if j = 0 then va else (l0 + j) * 128
    let b := if l0 + j = l1 then va + n else (l0 + j + 1) * 128
    (a % 2 ^ 64, b - a))

/-- The pieces of a row are translated before any of them is stored; device memory takes one access an element. -/
def mstPieces (s : State) (x : UCtx) (lane es : Nat) : List (Nat × Nat) → TAll
  | [] => .ok s []
  | (va, n) :: r =>
    match s.checkAccess x lane va { need := .store, size := es, ordered := false, excl := false } with
    | .wait => .wait
    | .bad s1 => .bad s1
    | .ok s1 t =>
      let here : List TAcc :=
        if t.dev then (upTo (n / es)).map (fun j => { t with a := { t.a with va := va + j * es, pa := t.a.pa + j * es, pa2 := none } })
        else [{ t with a := { t.a with size := n, pa2 := none } }]
      match mstPieces s1 x lane es r with
      | .ok s2 l => .ok s2 (here ++ l)
      | q => q

/-- The line stores of a row at an address (R101). -/
def mstStores (s : State) (x : UCtx) (va : Nat) (l : List TAcc) (row : Nat) : List SbE :=
  shareLines (l.flatMap (fun t => laneStores x.u x.pc 0 0 (unitLaunch s x.u) t (row >>> (8 * ((t.a.va + 2 ^ 64 - va) % 2 ^ 64)))))

/-- Element k of the fragment as MST stores it. R101 converts by R87 with SCALE = 1.0, so a NaN becomes the canonical NaN of an
FP32 output too, where the introduction of section 05 has FP32 write y unchanged (DESIGN CHOICE, log 83). -/
def mstElt (cw : List Word) (ofmt : Nat) (sat : Bool) (rng : Option Nat) (k : Nat) : Nat :=
  let w := fragElt cw (4 * k) 4
  convElt ofmt sat rng (if ofmt = 4 ∨ ofmt = 0xC then w else scaleY fpOne w)

/-- Rows of MST from the next one not yet stored; a row that faults, or finds no room, leaves the rest for later (R101). -/
def mstRows (x : UCtx) (c slot shape ofmt : Nat) (sr sat : Bool) (cw : List Word) (addr pitch : Word) : Nat → State → State
  | 0, s =>
    (match s.grp c slot with
     | some g => (s.setGrp c slot { g with mstRow := 0 }).next x
     | none => s)
  | left + 1, s =>
    match s.grp c slot with
    | none => s
    | some g =>
      let m := if shape = 1 then 64 else 32
      let i := m - (left + 1)
      let es := eltBits ofmt / 8
      let stored := (rowLanes g.width m i).all (fun j => x.act.elem j)
      let keep (s1 : State) : State := match s1.grp c slot with | some g1 => s1.setGrp c slot { g1 with mstRow := i } | none => s1
      let va := (addr + BitVec.ofNat 64 i * pitch).toNat
      let finish (s1 : State) (l : List TAcc) : State :=
        let e := grpEngine c slot
        let draw := rngNext (s1.reg .mxSeed e 0)
        let s2 := if sr then s1.setReg .mxSeed e 0 draw else s1
        let row := (upTo m).foldl (fun acc k => acc ||| (mstElt cw ofmt sat (if sr then some (rngBits draw k) else none) (m * i + k) <<< (8 * es * k))) 0
        let st := mstStores s2 x va l row
        if !s1.sbRoom x.u st then keep s
        else mstRows x c slot shape ofmt sr sat cw addr pitch left (st.foldl (fun s3 e => s3.sbAdd e) s2)
      if !stored then finish s []
      else
        match mstPieces s x ((x.act.head?).getD 0) es (cutLines va (m * es)) with
        | .wait => keep s
        | .bad s1 => keep s1
        | .ok s1 l => finish s1 l

/-- MST (R101). -/
def execMst (u : Agent) (iw : IWord) (ecc : Ecc) (s : State) : Out :=
  matrixOp u iw s ecc (fun op => match op with | .mst .. => true | _ => false)
    (fun op g => match op with
      | .mst shape ofmt _ _ iacc rd _ _ =>
        g.width != 8 && (shape == 0 || g.width == 64) && mstOut ofmt iacc &&
        rd + fragRegs g.width (if shape = 1 then 16384 else 4096) ≤ g.fn
      | _ => false)
    (fun s1 x op c slot g => match op with
      | .mst shape ofmt sr sat _ rd a b =>
        let es := eltBits ofmt / 8
        let lane := (x.act.head?).getD 0
        let addr := (g.lane lane).thr.getG a
        let pitch := (g.lane lane).thr.getG b
        let m := if shape = 1 then 64 else 32
        if addr.toNat % es ≠ 0 ∨ pitch.toNat % es ≠ 0 then some (.next (s1.raise x lane 3 0 addr 0 0))
        else some (.next (mstRows x c slot shape ofmt sr sat (readFrag g x.act rd (4 * m * m)) addr pitch (m - g.mstRow) s1))
      | _ => some (.refused .wordsOfAnotherRow))

end Sys2Proof.Machine
end

