-- ==== Sys2Proof/Machine/MbOps.lean ====
section
/-! DEFINITION. Commands of mailboxes as shared operations: the area of a command (R325), who may issue what (R333), the
order of the checks (R328), and the result of a command, which MB_COMMAND_COMPLETE writes (R326). -/

namespace Sys2Proof.Machine

/- Statuses (R76, R154, R332, R339 and the tables of each chapter). -/
def stOk : Nat := 0
def stNotPresent : Nat := 1
def stUnauthorised : Nat := 2
def stBadOpcode : Nat := 3
def stBadArg : Nat := 4
def stRemoteFailed : Nat := 5
def stRemoteTimeout : Nat := 6
def stCpRestart : Nat := 7
def stMemNotReady : Nat := 0x0105

def State.mbox (s : State) (mb : Nat) : Mbx := s.mbs.get {} mb
def State.setMbox (s : State) (mb : Nat) (m : Mbx) : State := { s with mbs := s.mbs.set mb m }

/-- n bytes of the copied command area. -/
def Mbx.bytes (m : Mbx) (off n : Nat) : List Byte := padTo n (m.cmd.drop off)
def Mbx.arg (m : Mbx) (off n : Nat) : Nat := ofLeBytes (m.bytes off n)
def Mbx.opcode (m : Mbx) : Nat := m.arg 0 2
def Mbx.flags (m : Mbx) : Nat := m.arg 2 1
def Mbx.tag (m : Mbx) : Nat := m.arg 3 1

/-- Argument bytes outside the listed fields are zero; fields are offset and size. -/
def Mbx.clean (m : Mbx) (fields : List (Nat × Nat)) : Bool :=
  (upTo 60).all (fun i => let b := i + 4
    fields.any (fun f => f.1 ≤ b && b < f.1 + f.2) || m.arg b 1 == 0)

/-- Every assigned opcode (R333). -/
def assigned (op : Nat) : Bool :=
  (1 ≤ op && op ≤ 6) || (0x101 ≤ op && op ≤ 0x103) || (0x201 ≤ op && op ≤ 0x206) || (0x301 ≤ op && op ≤ 0x304) ||
  op == 0x310 || op == 0x311 || (0x401 ≤ op && op ≤ 0x403) || (0x501 ≤ op && op ≤ 0x505) || op == 0x601 || op == 0x602 ||
  (0x701 ≤ op && op ≤ 0x705) || (0x720 ≤ op && op ≤ 0x723) || (0x801 ≤ op && op ≤ 0x807) || (0xF01 ≤ op && op ≤ 0xF05)

/-- The letters of R333: K, U, H, M, A, D, F of an opcode. -/
structure May where
  k : Bool := false
  u : Bool := false
  h : Bool := false
  m : Bool := false
  a : Bool := false
  d : Bool := false
  f : Bool := false
deriving DecidableEq, Repr

def mayAll : May := ⟨true, true, true, true, true, true, true⟩

def mayIssue (op : Nat) : May :=
  if op = 1 ∨ op = 2 ∨ op = 0x505 ∨ op = 0x704 then mayAll
  else if op = 3 then { k := true }
  else if op = 4 then { k := true, h := true }
  else if op = 5 then { k := true, h := true, m := true, d := true, f := true }
  else if op = 6 then { k := true, h := true, m := true }
  else if op / 256 = 1 then { k := true, h := true, a := true }
  else if op = 0x201 ∨ op = 0x203 ∨ op = 0x204 ∨ op = 0x206 then { k := true }
  else if op = 0x202 then { k := true, u := true }
  else if op = 0x205 then { k := true, u := true, h := true }
  else if op / 256 = 3 ∨ op / 256 = 4 then { k := true, h := true, a := true, f := true }
  else if op = 0x501 ∨ op = 0x502 ∨ op = 0x602 ∨ op = 0x701 ∨ op = 0x702 ∨ op = 0x705 then { k := true, h := true, m := true }
  else if op = 0x503 ∨ op = 0x504 ∨ op = 0x703 then { k := true, h := true, m := true, f := true }
  else if op = 0x601 then { k := true, u := true, h := true, m := true, d := true, f := true }
  else if 0x720 ≤ op ∧ op ≤ 0x723 then { k := true }
  else if op = 0x803 then { k := true, h := true, a := true, u := true }
  else if op = 0x807 then { k := true, h := true, a := true, u := true, f := true }
  else if op / 256 = 8 then { k := true, h := true, a := true }
  else if op / 256 = 0xF then { d := true }
  else {}

/-- A mailbox may issue an opcode. MB1 is limited while nothing is delegated (R335); MB5 needs its range in the firewall's
command mask, and has the authority of H (R272). -/
def State.mayRun (s : State) (mb op : Nat) : Bool :=
  let l := mayIssue op
  match mb with
  | 0 => l.k
  | 1 => l.u && ((s.mbox 1).deleg.isSome || op == 1 || op == 2 || op == 0x601)
  | 2 | 3 => l.h
  | 4 => l.m
  | 5 => let r := op / 256
    (s.aux.mask >>> r) % 2 == 1 && r != 7 && r != 0xF && l.a
  | 6 => l.d
  | _ => l.f

/-- The result of a command in progress is known. -/
def State.mbResult (s : State) (mb status : Nat) (resp : List Byte := []) : State :=
  let m := s.mbox mb
  if m.busy && m.res.isNone then s.setMbox mb { m with res := some (status, padTo 64 resp), waiting := false } else s

/-- The same for a mailbox that may be waiting, by its number. -/
def State.mbResult? (s : State) (mb : Option Nat) (status : Nat) (resp : List Byte := []) : State :=
  match mb with | some i => s.mbResult i status resp | none => s

/-- The answer of a debugger's access beyond local memory: the bytes read, or a failure with nothing (R343). Accesses of
others have no such number. -/
def State.dbgAnswer (s : State) (n : Nat) (d : Line) (poison fail : Bool) : State :=
  match s.cp.dbg with
  | none => s
  | some (k, off, len) =>
    if k ≠ n then s
    else
      let s1 : State := { s with cp := { s.cp with dbg := none } }
      if poison || fail then s1.mbResult 6 0x0F02 [] else s1.mbResult 6 stOk (leBytes len (lineBytes d off len))

/-- A violation of the firewall: logged, counted, and posted at most once in 1 ms with the count since the last event
(R272, R276, R277). -/
def State.fwViolation (s : State) (type addr : Nat) : State :=
  let log := addr % 2 ^ 56 + type * 2 ^ 56
  let s1 := (s.setReg .fwLog 0 0 (BitVec.ofNat 64 log)).incFld .fwStatus 0 0 24 16
  let n := s1.aux.viol + 1
  let due : Bool := match s1.aux.violAt with | some t => t + 1000000 ≤ s1.now | none => true
  if due then ({ s1 with aux := { s1.aux with viol := 0, violAt := some s1.now } } : State).post evFwViolation 13 [(8, log), (4, n)]
  else { s1 with aux := { s1.aux with viol := n } }

/-- MB5 offers a command outside the mask. -/
def State.maskViolation (s : State) (mb op : Nat) : State :=
  if mb = 5 ∧ (s.aux.mask >>> (op / 256)) % 2 = 0 then s.fwViolation 5 op else s

/-- What a command's own meaning answers: it waits for a memory line, it has a result, or its result comes later. -/
inductive CmdRes where
  | wait
  | done (s : State) (status : Nat) (resp : List Byte)
  | later (s : State)
  /-- No response now: there is none (R336, R354), or the command goes on (R343). -/
  | gone (s : State)
deriving DecidableEq, Repr

/-- A command in progress runs: R328, checks 2 to 4, then its own. `aux` marks a command whose object is the auxiliary
site. A mailbox with no such command in progress leaves the state as it is. -/
def command (mb op : Nat) (s : State) (k : State → Mbx → CmdRes) (aux : Bool := false) (own : Mbx → Bool := fun _ => true) : Out :=
  if mb ≥ 8 then .refused .illFormed
  else
    let m := s.mbox mb
    if !(m.busy && !m.held && !m.waiting && m.res.isNone && m.remote.isNone && m.opcode == op && own m) then .next s
    else if aux && s.fld .fwStatus 0 0 0 1 == 0 then .next (s.mbResult mb stNotPresent)
    else if !s.mayRun mb op then .next ((s.maskViolation mb op).mbResult mb stUnauthorised)
    else if m.flags ≠ 0 then .next (s.mbResult mb stBadArg)
    else match k s m with
    | .wait => .next s
    | .done s1 st resp => .next (s1.mbResult mb st resp)
    | .gone s1 => .next s1
    | .later s1 => .next (s1.setMbox mb { s1.mbox mb with waiting := true })

end Sys2Proof.Machine
end

