-- ==== Sys2Proof/Machine/SeqOps.lean ====
section
/-! DEFINITION. The Sequence Directory's tables as shared operations: table words and entries (R148 to R150), the
block-table cache (R152), and a lookup (R151). -/

namespace Sys2Proof.Machine

def State.seqRec (s : State) (ctx : Nat) : SeqRec := s.seq.recs.get {} ctx
def State.setRec (s : State) (ctx : Nat) (r : SeqRec) : State := { s with seq := { s.seq with recs := s.seq.recs.set ctx r } }

/-- Table word (R148): STRIDE, and the table's address. -/
def twStride (w : Nat) : Nat := w % 4096
def twArea (w : Nat) : Nat := ((w >>> 12) % 2 ^ 44) * 4096
def twCap (w : Nat) : Nat := 2048 * twStride w

/-- The committed table, and the shadow. -/
def SeqRec.table (r : SeqRec) : Nat := if r.ver then r.root1 else r.root0
def SeqRec.shadow (r : SeqRec) : Nat := if r.ver then r.root0 else r.root1

def blocksOf (n : Nat) : Nat := ceilDiv n 128

/-- Every line of a range within one region has its home on a die: of placed memory any line decides, and of spread memory
16 consecutive grains reach every home (R178, R179). -/
def State.pieceHome (s : State) (a n m : Nat) : Bool :=
  if (s.region a).1 = 1 then s.homeOf (a / 128) == m
  else (upTo (min 17 (n / 256 + 2))).all (fun i => let b := (a / 256 + i) * 256; b ≥ a + n || s.homeOf (b / 128) == m)

/-- Every line of a local range of at most 1 GiB has its home on one die. Regions are whole GiB, so that the range lies in
at most two of them (R177, R179). -/
def State.homedOn (s : State) (a n m : Nat) : Bool :=
  let k := gib - a % gib
  localRange a n && (if n ≤ k then s.pieceHome a n m else s.pieceHome a k m && s.pieceHome (a + k) (n - k) m)

/-- A table word of a context that R148 allows. -/
def State.twOk (s : State) (ctx w layers : Nat) : Bool :=
  w >>> 56 == 0 && 1 ≤ twStride w && twStride w ≤ 2048 && s.homedOn (twArea w) (layers * twStride w * 128) (ctx / 65536)

/-- An entry's block (R149, R150): reserved bits zero, and the block wholly in one place. -/
def entryAddr (e : Nat) : Nat := ((e >>> 7) % 2 ^ 49) * 128
def entryOk (e rowb : Nat) : Bool :=
  let a := entryAddr e
  let z := a + 256 * 128 * rowb - 1
  (e >>> 1) % 64 == 0 && e >>> 56 == 0 &&
  ((isHbm a && isHbm z) || (isSteppe a && isSteppe z) || (isPcie a && isPcie z && a / 2 ^ 43 == z / 2 ^ 43) ||
   (isRemote a && isRemote z && a / 2 ^ 41 == z / 2 ^ 41))

/-- The table line (in lines) that holds the entry of a layer and block, and the entry's place in it. -/
def entryLine (w layer blk : Nat) : Nat := twArea w / 128 + layer * twStride w + blk / 16
def entryOf (d : Line) (blk : Nat) : Nat := lineBytes d (8 * (blk % 16)) 8

/- The block-table cache (R152). -/

def State.btcSet (s : State) (l : Nat) : Nat × Nat :=
  let (m, h) := s.homeLoc (l * 128)
  (m, h % 1024 ^^^ (h >>> 10) % 1024 ^^^ (h >>> 20) % 1024 ^^^ (h >>> 30) % 4)

def oldestBtc : List (Nat × BtcLine) → Option (Nat × BtcLine)
  | [] => none
  | e :: r => match oldestBtc r with
    | none => some e
    | some f => if f.2.age < e.2.age then some f else some e

def State.btcPut (s : State) (l : Nat) (d : Line) : State :=
  let mates := s.seq.btc.filter (fun e => e.1 ≠ l && s.btcSet e.1 == s.btcSet l)
  let btc := if mates.length < 16 then s.seq.btc else
    match oldestBtc mates with | some (k, _) => s.seq.btc.del k | none => s.seq.btc
  let (age, s1) := s.newAge
  { s1 with seq := { s1.seq with btc := btc.set l ⟨d, age⟩ } }

/-- A table line through the cache of its die; a miss reads memory and fills the cache. `count` is for lookups. -/
def State.tableRead (s : State) (m l : Nat) (count : Bool) : MR :=
  match s.seq.btc.find? l with
  | some e =>
    let s1 := s.btcPut l e.data
    .ok (if count then s1.setReg .seqBtcHit m 0 (s1.reg .seqBtcHit m 0 + 1) else s1) e.data false
  | none =>
    match s.ncRead l 1 with
    | .ok s1 d p =>
      let s2 := if count then s1.setReg .seqBtcMiss m 0 (s1.reg .seqBtcMiss m 0 + 1) else s1
      if p then .ok s2 d true else .ok (s2.btcPut l d) d false
    | r => r

/-- A committed table line is written through the cache; a shadow line bypasses it. -/
def State.tableWrite (s : State) (l : Nat) (d : Line) (shadow : Bool) : Option State :=
  match s.ncWrite l (BitVec.allOnes 128) d false 1 with
  | .ok s1 _ _ =>
    if shadow then some { s1 with seq := { s1.seq with btc := s1.seq.btc.del l } }
    else some (match s1.seq.btc.find? l with
      | some e => { s1 with seq := { s1.seq with btc := s1.seq.btc.set l { e with data := d } } }
      | none => s1)
  | _ => none

/-- A table line found poisoned or failed: once per line until TPOISON is cleared (R165). `lookup` sets TPOISON. -/
def State.tablePoison (s : State) (ctx l : Nat) (lookup : Bool) : State :=
  let m := ctx / 65536
  let s1 := s.setReg .seqPoisonAddr m 0 (BitVec.ofNat 64 (l * 128))
  let s2 := if lookup then s1.setFld .seqStatus m 0 24 1 1 else s1
  if s2.seq.reported.elem l then s2
  else ({ s2 with seq := { s2.seq with reported := s2.seq.reported ++ [l] } }).post evSeqTablePoison (9 + m)
    [(4, ctx), (8, (s.seqRec ctx).seqid), (8, l * 128)]

/-- A lookup resolves at its die (R151): the state and the lookup with its result. None: a line is in use. -/
def State.resolve (s0 : State) (l : Lookup) : Option (State × Lookup) :=
  let m := l.ctx / 65536
  let s := s0.count (576 + m) 0x208
  let r := s.seqRec l.ctx
  let ans (s : State) (k a : Nat) : Option (State × Lookup) :=
    some (s, { l with st := 1, res := k, addr := a, length := r.length, rowb := r.rowb })
  if !r.live || r.asid ≠ l.asid || l.layer ≥ r.layers || l.col ≥ r.rowb then ans s 0 0
  else if l.write && r.mig && r.miglo ≤ l.blk && l.blk < r.miglo + r.mign then ans s 1 0
  else if 128 * l.blk ≥ r.length then ans s 2 0
  else
    let t := entryLine r.table l.layer l.blk
    match s.tableRead m t true with
    | .wait => none
    | .bus => ans (s.tablePoison l.ctx t true) 1 0
    | .ok s1 d p =>
      if p then ans (s1.tablePoison l.ctx t true) 1 0
      else
        let e := entryOf d l.blk
        if e % 2 = 0 || !entryOk e r.rowb then ans s1 1 0 else ans s1 3 (entryAddr e)

end Sys2Proof.Machine
end

