-- ==== Sys2Proof/Machine/Streamer.lean ====
section
/-! DEFINITION. Tile streamers (R122 to R145, R422): descriptors, tile reads and writes with their lookups, deadlines and
failures, and the synchronising descriptors. -/

namespace Sys2Proof.Machine

/- Descriptors (R130 to R136). -/

def i64 (v : Nat) : Int := sext 64 v

def Desc.isMem (d : Desc) : Bool := 1 ≤ d.op && d.op ≤ 5
def Desc.isEng (d : Desc) : Bool := d.op == 8
def Desc.isSync (d : Desc) : Bool := 0x10 ≤ d.op && d.op ≤ 0x12
def Desc.flag (d : Desc) (i : Nat) : Bool := (d.flags >>> i) % 2 == 1
def Desc.eop (d : Desc) : Nat := (d.p0 >>> 2) % 16

/-- A descriptor as it is read, with the loop indices in force. -/
def parseDesc (l : Line) (pc i0 i1 : Nat) : Desc :=
  let f (off n : Nat) : Nat := lineBytes l (pc % 128 + off) n
  { addr := pc, op := f 0 1, flags := f 1 1, count := f 2 2, slot := f 4 1, slotn := f 5 1, fmt := f 6 1, hint := f 7 1,
    adr := f 8 8, stride := f 0x10 8, istep := f 0x18 8, ostep := f 0x20 8, deadline := f 0x28 4, p0 := f 0x2C 4,
    p1 := f 0x30 8, i0 := i0, i1 := i1 }

/-- base of R131. -/
def Desc.base (d : Desc) : Int := (d.adr : Int) + (d.i0 : Int) * i64 d.istep + (d.i1 : Int) * i64 d.ostep

/-- Address of tile k (R131): a virtual address, or an offset in the named module. -/
def Desc.tile (d : Desc) (k : Nat) : Int :=
  let img : Int := imgLines (d.fmt % 16) * 128
  match d.op with
  | 1 => d.base + (k : Int) * img
  | 2 => d.base + (k : Int) * i64 d.stride
  | 3 => d.base + ((k / (d.p0 % 2 ^ 16) : Nat) : Int) * i64 d.stride + ((k % (d.p0 % 2 ^ 16) : Nat) : Int) * img
  | _ => d.base % 2 ^ 41 + (k : Int) * (if d.stride = 0 then img else i64 d.stride)

/-- Token start and layer of a GATHER (R132), and TB of SMAX (R134). -/
def Desc.tok (d : Desc) : Int := ((d.p1 % 2 ^ 32 : Nat) : Int) + (d.i0 : Int) * i64 d.istep
def Desc.layer (d : Desc) : Int := (((d.p1 >>> 32) % 2 ^ 16 : Nat) : Int) + (d.i1 : Int) * i64 d.ostep
def Desc.tb (d : Desc) : Int := ((d.p1 >>> 32 : Nat) : Int) + (d.i0 : Int) * sext 32 d.istep

/-- Descriptors that use COUNT, and that use the slot ring (R136). -/
def Desc.usesCount (d : Desc) : Bool := d.isMem || d.isEng || d.op == 0x13
def Desc.usesSlot (d : Desc) : Bool := d.isMem || (d.isEng && (d.eop == 0 || d.eop == 2 || d.eop == 3 || d.eop == 4 || d.eop == 6))

/-- Bits of P0, P1 and ADDR that a type uses. -/
def Desc.used (d : Desc) : Nat × Nat × Nat :=
  let all := 2 ^ 64 - 1
  match d.op with
  | 1 | 2 => (0, 0, all)
  | 3 => (0xFFFF, 0, all)
  | 4 => (0x1FFFF, 2 ^ 48 - 1, 0x3FFFF)
  | 5 => (0x3FFF, 0, all)
  | 8 =>
    (match d.eop with
     | 2 => (0xFF, 0, 0)
     | 3 => (0x3FF, 0, 0)
     | 4 => (0xCFF, 2 ^ 32 - 1, 0)
     | 5 => (0x3FF, all, 0)
     | 6 => (0x3FF, 0, 0x1FFF)
     | 8 => (0x3F, 0, 0x1FFF)
     | _ => (0x3F, 0, 0))
  | 0x10 | 0x11 => (7, 0, 0)
  | 0x12 => (0, all, 0)
  | 0x13 => (1, 0, all)
  | _ => (0, 0, 0)

def onlyBits (v m : Nat) : Bool := v &&& m == v

/-- Checks of R136 that need no memory and no engine. `spare` are the bytes 0x38 on. -/
def Desc.ok (d : Desc) (spare tiles : Nat) (remote : Bool) (bound : List Nat) : Bool :=
  let u := d.used
  (d.isMem || d.isEng || d.isSync || d.op == 0x13 || d.op == 0x1F) &&
  d.fmt < 16 && d.hint < 8 && spare == 0 && onlyBits d.p0 u.1 && onlyBits d.p1 u.2.1 && onlyBits d.adr u.2.2 &&
  (!d.usesCount || d.count != 0) && (!d.usesSlot || (d.slotn != 0 && d.slot + d.slotn ≤ tiles)) &&
  (!d.isMem || (d.hint ≤ 4 && d.fmt != 5 && d.fmt != 0xD && d.fmt != 0xE && d.fmt != 0xF)) &&
  (match d.op with
   | 1 => d.base % 128 == 0
   | 2 => d.base % 128 == 0 && (d.count == 1 || i64 d.stride % 128 == 0)
   | 3 => d.base % 128 == 0 && d.p0 % 2 ^ 16 != 0 && (d.count ≤ d.p0 % 2 ^ 16 || i64 d.stride % 128 == 0)
   | 4 => 0 ≤ d.tok && d.tok % 64 == 0 && 0 ≤ d.layer
   | 5 =>
     let top : Int := 2 ^ 41 - (imgLines d.fmt * 128 : Nat)
     remote && d.base % 128 == 0 && (d.count == 1 || i64 d.stride % 128 == 0) &&
     0 ≤ d.tile 0 && d.tile 0 ≤ top && 0 ≤ d.tile (d.count - 1) && d.tile (d.count - 1) ≤ top
   | 8 =>
     d.eop ≤ 10 && (d.count == 1 || d.eop == 2 || d.eop == 3 || d.eop == 4 || d.eop == 6) &&
     (d.eop == 9 || bound.elem (d.p0 % 4)) &&
     (d.eop != 8 || d.adr + 2 ≤ 64 * tiles) && (d.eop != 6 || d.adr + 4 ≤ 64 * tiles) &&
     (d.eop != 5 || (0 ≤ d.tb && d.tb < 2 ^ 32))
   | 0x10 | 0x11 => d.p0 ≤ 4
   | 0x13 => d.adr % 64 == 0
   | _ => true)

/- Faults of a channel (R136, R243, R422). -/

def chanRecord (s : State) (c ch : Nat) (addr pc code detail level tier : Nat) : List Byte :=
  let lid := (s.chan c ch).lid
  let l := s.launchOf lid
  fqRecord addr pc code (detail ||| 64) (c + ch * 512) (s.asidOf lid) 0 level tier l.q l.pkt 0

/-- The channel halts: it decodes nothing further, what has started finishes, the rest never issues; a TERMINAL record
is made and the launch ends (R136, R422). -/
def State.chanHalt (s : State) (c ch addr code detail status : Nat) (level : Nat := 0) : State :=
  let x := s.chan c ch
  let rcd := chanRecord s c ch addr addr code (detail ||| 128) level 0
  let acc := (x.acc.filter (fun d => d.isMem && d.k != 0)).map (fun d => { d with count := d.k })
  let s1 := (s.setChan c ch { x with acc := acc, exe := x.exe.filter (fun d => d.started), ending := false, halt := some status, stall := [] }).fqForget
    (fun r => r == Requester.chan c ch)
  let s2 := (s1.fqTerminal (c / 64) rcd).endLaunch x.lid false
  s2.chSettle c ch

/-- A group fault on a tile's walk: the launch ends and its channels with it (R243, R249). -/
def State.tileFault (s : State) (c ch va desc code level : Nat) (write : Bool) : State :=
  let rcd := chanRecord s c ch va desc code (128 + 16 * write.toNat) level 0
  (s.fqTerminal (c / 64) rcd).endLaunch (s.chan c ch).lid false

/-- A translation for a channel: it waits, the channel stalls or its launch ends, or an address. -/
inductive CX where
  | wait
  | stop (s : State)
  | ok (s : State) (pa : Nat) (dev : Bool) (hint : Nat) (w : Bool)
deriving DecidableEq, Repr

/-- `what`: 1 a descriptor fetch, 2 a tile read, 3 a tile write. -/
def State.chanXlate (s : State) (c ch va desc what : Nat) : CX :=
  let asid := s.asidOf (s.chan c ch).lid
  match s.translate (.cd c asid) (if what = 3 then .store else .load) va with
  | .wait => .wait
  | .ok s1 pa dev h w _ => .ok s1 pa dev h w
  | .bus s1 lv => .stop (if what = 1 then s1.chanHalt c ch desc 8 0 0x0201 lv else s1.tileFault c ch va desc 8 lv (what == 3))
  | .poison s1 lv => .stop (if what = 1 then s1.chanHalt c ch desc 7 0 0x0201 lv else s1.tileFault c ch va desc 7 lv (what == 3))
  | .fault s1 np perm _ lv t =>
    let x := s1.chan c ch
    let rcd := chanRecord s1 c ch va desc (if what = 3 then 6 else 5) (np.toNat + 2 * perm.toNat + (if what = 3 then 16 else 0)) lv t
    .stop ((s1.setChan c ch { x with stall := what :: x.stall }).fqStall (c / 64) (.chan c ch) va false rcd what)

/- Tile accesses in flight. -/

/-- A tile of a descriptor is complete; the descriptor leaves its queue when all are (R127). -/
def State.descTile (s : State) (c ch ord : Nat) : State :=
  let x := s.chan c ch
  let acc := (x.acc.map (fun d => if d.ord = ord then { d with done := d.done + 1 } else d)).filter
    (fun d => !(d.isMem && d.k == d.count && d.done == d.count))
  let gone := !acc.any (fun d => d.ord = ord)
  let s1 := s.setChan c ch { x with acc := acc }
  let s2 := if gone then
      { s1 with seq := { s1.seq with looks := s1.seq.looks.filter (fun l => !(l.c == c && l.ch == ch && l.ord == ord && l.st == 2)) } }
    else s1
  (s2.count c 0x00B).chSettle c ch

/-- A failure counts in the packet's status (R139, R76). -/
def State.tierError (s : State) (c ch lid bit : Nat) : State :=
  (s.setFld .tsChStatus c ch bit 1 1).setLaunch lid { s.launchOf lid with tier := true }

/-- LATEST after a tile read of a latency (R144). -/
def State.learn (s : State) (c x : Nat) : State :=
  let k := s.coreS c
  if k.rdDone < 64 then
    let s1 := s.setCoreS c { k with rdDone := k.rdDone + 1, rdSum := k.rdSum + x }
    if k.rdDone = 63 then s1.setFld .tsCfg c 0 32 16 (min 65535 ((k.rdSum + x) / 64)) else s1
  else
    let l := s.fld .tsCfg c 0 32 16
    s.setFld .tsCfg c 0 32 16 (max 0 (min 65535 ((l : Int) + ((x : Int) - (l : Int)).fdiv 64))).toNat

/-- A tile read ends: its slot is FULL, lines that have not arrived are poisoned (R129, R139). `bit` is 0 for a normal
end, 2 DEADMISS, 3 TIERERR. -/
def State.readEnd (s : State) (id bit : Nat) : State :=
  match s.trd.find? id with
  | none => s
  | some r =>
    let lost := (upTo r.nln).filter (fun i => !r.got.elem i)
    let s1 := lost.foldl (fun s1 i => s1.putLost r.c r.slot i) s
    let pz := (lost.filter (fun i => 64 ≤ i)).foldl (fun p i => p ||| scaleMask i) r.pz
    let t := s1.slot r.c r.slot
    let poison := t.poison ||| pz
    let s2 := { s1.setSlot r.c r.slot { t with poison := poison } with trd := s1.trd.del id }
    let s3 := if bit = 0 then s2 else s2.tierError r.c r.ch r.lid bit
    let s4 := if bit = 2 then s3.count r.c 0x00C else s3
    let s5 := if poison = 0 then s4 else s4.setFld .tsChStatus r.c r.ch 4 1 1
    let s6 := ((s5.learn r.c (s5.now - r.issued)).monRecord 14 (s5.now - r.issued)).slotState r.c r.slot 2
    s6.descTile r.c r.ch r.ord

/-- A line of a tile read arrives, or fails and ends the read (R125, R126, R139); late data is discarded. -/
def State.tileArrive (s : State) (id ln : Nat) (d : Line) (poison fail : Bool) : State :=
  match s.trd.find? id with
  | none => s
  | some r =>
    if r.got.elem ln || ln ≥ r.nln then s
    else if fail then s.readEnd id 3
    else
      let r1 := { r with got := ln :: r.got, pz := if poison && 64 ≤ ln then r.pz ||| scaleMask ln else r.pz }
      let s1 := { s.setSlot r.c r.slot ((s.slot r.c r.slot).put ln d poison) with trd := s.trd.set id r1 }
      if r1.got.length = r.nln then s1.readEnd id 0 else s1

/-- A line of a tile write is accepted at its home, or has failed (R131, R139). -/
def State.tileAccept (s : State) (id ln : Nat) (fail : Bool) : State :=
  match s.twr.find? id with
  | none => s
  | some w =>
    if !w.left.elem ln then s
    else
      let s1 := if fail then s.tierError w.c w.ch w.lid 3 else s
      let left := w.left.filter (· ≠ ln)
      if left.isEmpty then
        let s2 := { s1 with twr := s1.twr.del id }
        let s3 := if w.free && (s2.slot w.c w.slot).st == 2 then s2.slotState w.c w.slot 0 else s2.wakeHand w.c
        s3.descTile w.c w.ch w.ord
      else { s1 with twr := s1.twr.set id { w with left := left } }

/-- Where a line of a tile goes. -/
inductive Tgt where
  | zero
  | lost
  | at' (pa : Nat) (dev : Bool) (hint : Nat)
deriving DecidableEq, Repr

/-- The other line of a local line's aligned 256 B is among a tile's targets: the two leave as one burst (R230). -/
def inBurst (plan : List Tgt) (pa : Nat) : Bool :=
  isLocal pa && plan.any (fun t => match t with | .at' q _ _ => q / 128 == otherHalf (pa / 128) | _ => false)

/-- One line of a tile leaves for its home, its port or the fabric; or it has its answer at once (R131, R151). -/
def State.tileLine (s : State) (c id ln : Nat) (write burst : Bool) (t : Tgt) : State :=
  let ended (s : State) (fail : Bool) : State := if write then s.tileAccept id ln fail else s.tileArrive id ln 0 false fail
  match t with
  | .zero => ended s false
  | .lost => ended s true
  | .at' pa dev hint =>
    let (d, p) : Line × Bool := match s.twr.find? id with
      | some w => let k := s.slot w.c w.slot; (k.line ln, k.outPoison ln)
      | none => (0, false)
    let w : Who := if write then .tileW id ln else .tileR id ln
    match s.memKind pa dev with
    | .cached | .nc =>
      s.send (.req (if write then { kind := .wrnc, w := w, line := pa / 128, hint := hint, mask := BitVec.allOnes 128, data := d, poison := p, burst := burst }
                    else { kind := .rdnc, w := w, line := pa / 128, hint := hint, burst := burst }))
    | .pcie =>
      let q := pciePort (pa / 128)
      if !s.pcieUp q || s.wayDown (.grp c 0) (pa / 128) then ended s true
      else if write then s.pcieWrite q (pa / 128) (BitVec.allOnes 128) d p
      else ({ s with pci := s.pci.upd {} q (fun y => { y with out := y.out ++ [(w, pa / 128)] }) } : State).count 580 0x305
    | .remote =>
      if s.remoteKnown pa && !s.wayDown (.grp c 0) (pa / 128) then s.remoteAccess w write.toNat (pa / 128) (BitVec.allOnes 128) d hint 0 p else ended s true
    | .mmio | .unmapped => ended s true

/-- All lines of a tile leave, as whole bursts where both lines of an aligned 256 B are its own (R230). -/
def State.tileGo (s : State) (c id : Nat) (write : Bool) (plan : List Tgt) : State :=
  plan.zipIdx.foldl (fun s1 e =>
    s1.tileLine c id e.2 write (match e.1 with | .at' pa _ _ => inBurst plan pa | _ => false) e.1) s

/- Gather (R132, R150, R151). -/

/-- Lines of a gather tile from its lookup. -/
def gatherPlan (l : Lookup) (plane tok hint : Nat) : List Tgt :=
  let rb := 128 * l.rowb
  (upTo 64).map (fun j =>
    match l.res with
    | 3 => if tok + j ≥ l.length then .zero
           else .at' (l.addr + plane * 128 * rb + ((tok + j) % 128) * rb + 128 * l.col) false hint
    | 2 => .zero
    | _ => .lost)

/-- The descriptor of a tile in flight. -/
def State.descOf (s : State) (c ch ord : Nat) : Option Desc := (s.chan c ch).acc.find? (fun d => d.ord = ord)

/-- First token of tile k, and the block it lies in. -/
def Desc.tokOf (d : Desc) (k : Nat) : Nat := d.tok.toNat + 64 * k

/-- A tile whose lookup has been delivered: a malformed one halts the channel, with one record however many tiles find it
(R136), and the others access their lines. -/
def State.gatherGo (s : State) (c ch ord k id : Nat) (write : Bool) (l : Lookup) : State :=
  match s.descOf c ch ord with
  | none => s
  | some d =>
    if l.res = 0 then
      let s1 := if write then { s with twr := s.twr.del id } else
        (match s.trd.find? id with
         | some r => ({ s with trd := s.trd.del id }).slotState c r.slot 0
         | none => s)
      let x := s1.chan c ch
      let s2 := s1.setChan c ch { x with acc := x.acc.map (fun e => if e.ord = ord then { e with k := e.k - 1 } else e) }
      if x.halt.isSome then s2.chSettle c ch else s2.chanHalt c ch d.addr 1 0 0x0211
    else
      let s1 := if write then { s with twr := s.twr.map (fun (e : Nat × TileWr) => if e.1 = id then (e.1, { e.2 with look := false }) else e) }
                else { s with trd := s.trd.map (fun (e : Nat × TileRd) => if e.1 = id then (e.1, { e.2 with look := false }) else e) }
      s1.tileGo c id write (gatherPlan l ((d.p0 >>> 16) % 2) (d.tokOf k) (if d.hint = 0 then 1 else d.hint))

/-- A gather tile has issued: it shares the lookup of its block, or sends one (R151). -/
def State.gatherStart (s : State) (c ch : Nat) (d : Desc) (k id : Nat) (write : Bool) : State :=
  let blk := d.tokOf k / 128
  match s.seq.looks.find? (fun l => l.c == c && l.ch == ch && l.ord == d.ord && l.blk == blk) with
  | some l => if l.st = 2 then s.gatherGo c ch d.ord k id write l else s
  | none =>
    let (n, s1) := s.newTag
    let l : Lookup := { n := n, c := c, ch := ch, ord := d.ord, write := write, ctx := d.adr % 2 ^ 18, layer := d.layer.toNat, blk := blk, col := d.p0 % 2 ^ 16, asid := s.asidOf (s.chan c ch).lid }
    { s1 with seq := { s1.seq with looks := s1.seq.looks ++ [l] } }

/- Issue of tiles (R128, R129, R131). -/

/-- The next descriptor of a direction with a tile to issue: a synchronising descriptor holds back what follows it. -/
def nextMem (write : Bool) : List Desc → Option Desc
  | [] => none
  | d :: r =>
    if d.isSync then none
    else if d.flag 0 == write && d.k < d.count then some d
    else nextMem write r

/-- A channel runs: not ending, halted or cancelled. -/
def State.chanRuns (s : State) (c ch : Nat) : Bool :=
  s.pwr.phase == .on && s.chState c ch == 1 && (s.chan c ch).halt.isNone && (s.chan c ch).cancel.isNone

/-- Absolute slot of the next tile of a descriptor (R124, R130). -/
def State.tileSlot (s : State) (c ch : Nat) (d : Desc) : Nat :=
  match (s.chan c ch).team with
  | some tid => (s.teams.get {} tid).base + d.slot + (d.n0 + d.k) % max 1 d.slotn
  | none => 0

/-- Targets of a translated tile; its image may cross into a second page. -/
def tilePlan (d : Desc) (va n : Nat) (p1 p2 : Nat × Bool × Nat × Bool) : List Tgt :=
  (upTo n).map (fun j =>
    let a := va + 128 * j
    let (pa, dev, h, w) := if a / 2 ^ 14 = va / 2 ^ 14 then p1 else p2
    let off := if a / 2 ^ 14 = va / 2 ^ 14 then a - va else a % 2 ^ 14
    let hint := if dev then 1 else if d.hint = 0 then (if h = 4 && !w then 2 else h) else if d.hint = 4 && !w then 2 else d.hint
    .at' (pa + off) dev hint)

/-- The plan of a tile that is not gathered, after translation (REMOTE is not translated). -/
def State.planTile (s : State) (c ch : Nat) (d : Desc) (write : Bool) : CX ⊕ (State × List Tgt) :=
  let n := imgLines d.fmt
  if d.op = 5 then
    let base := 2 ^ 55 + (d.p0 % 2 ^ 14) * 2 ^ 41 + (d.tile d.k).toNat
    .inr (s, (upTo n).map (fun j => .at' (base + 128 * j) false (if d.hint = 0 then 1 else d.hint)))
  else
    let va := (d.tile d.k % 2 ^ 64).toNat
    let what := if write then 3 else 2
    match s.chanXlate c ch va d.addr what with
    | .ok s1 pa dev h w =>
      if va / 2 ^ 14 = (va + 128 * n - 1) / 2 ^ 14 then .inr (s1, tilePlan d va n (pa, dev, h, w) (0, false, 0, false))
      else
        let va2 := (va / 2 ^ 14 + 1) * 2 ^ 14
        (match s1.chanXlate c ch va2 d.addr what with
         | .ok s2 pa2 dev2 h2 w2 => .inr (s2, tilePlan d va n (pa, dev, h, w) (pa2, dev2, h2, w2))
         | r => .inl r)
    | r => .inl r

/-- A descriptor's next tile has issued. -/
def State.descIssued (s : State) (c ch ord : Nat) : State :=
  let x := s.chan c ch
  s.setChan c ch { x with acc := x.acc.map (fun d => if d.ord = ord then { d with k := d.k + 1 } else d) }

/-- TILE_READ_ISSUE (R129, R131, R139). -/
def execTileReadIssue (c ch : Nat) (s : State) : Out :=
  if c ≥ 512 ∨ ch ≥ 8 then .refused .illFormed
  else if !s.chanRuns c ch || (s.chan c ch).stall.elem 2 then .next s
  else match nextMem false (s.chan c ch).acc with
    | none => .next s
    | some d =>
      let sl := s.tileSlot c ch d
      if (s.slot c sl).st ≠ 0 ∨ s.coreInflight c ≥ 96 ∨ s.inflight c ch ≥ s.fld .tsChCtrl c ch 0 7 then .next s
      else
        let dl := s.now + 1000 * (if d.deadline = 0 then s.fld .tsChCtrl c ch 8 16 else d.deadline)
        let start (s1 : State) (n : Nat) (look : Bool) : Nat × State :=
          let (id, s2) := s1.newTag
          let s3 := (s2.setSlot c sl { s2.slot c sl with st := 1, part := 0 }).descIssued c ch d.ord
          (id, { s3 with trd := s3.trd.set id { c := c, slot := sl, ch := ch, ord := d.ord, lid := (s.chan c ch).lid, k := d.k, deadline := dl, issued := s.now, nln := n, look := look } })
        if d.op = 4 then
          let (id, s1) := start s 64 true
          .next (s1.gatherStart c ch d d.k id false)
        else match s.planTile c ch d false with
          | .inl (.stop s1) => .next s1
          | .inl _ => .next s
          | .inr (s1, plan) =>
            let (id, s2) := start s1 plan.length false
            .next (s2.tileGo c id false plan)

/-- TILE_LINE_ARRIVAL (R125, R126, R139). -/
def execTileLineArrival (id ln : Nat) (data : Line) (poison fail : Bool) (s : State) : Out :=
  let p (m : Msg) : Bool := match m with | .dat w _ _ _ => w == .tileR id ln | _ => false
  if !s.inTurn p then .next s else .next ((s.took p).tileArrive id ln data poison fail)

/-- TILE_DEADLINE_EXPIRY (R139). -/
def execTileDeadlineExpiry (c slot : Nat) (s : State) : Out :=
  if c ≥ 512 ∨ slot ≥ 128 then .refused .illFormed
  else match List.find? (fun (e : Nat × TileRd) => e.2.c = c && e.2.slot = slot) s.trd with
    | none => .next s
    | some (id, r) => if r.deadline ≤ s.now then .next (s.readEnd id 2) else .next s

/-- TILE_WRITE_ISSUE: from a FULL slot that no earlier write of the channel is about to free (R128, R131). -/
def execTileWriteIssue (c ch : Nat) (s : State) : Out :=
  if c ≥ 512 ∨ ch ≥ 8 then .refused .illFormed
  else if !s.chanRuns c ch || (s.chan c ch).stall.elem 3 then .next s
  else match nextMem true (s.chan c ch).acc with
    | none => .next s
    | some d =>
      let sl := s.tileSlot c ch d
      if (s.slot c sl).st ≠ 2 || s.twr.any (fun e => e.2.c = c && e.2.ch = ch && e.2.slot = sl && e.2.free) then .next s
      else
        let start (s1 : State) (n : Nat) (look : Bool) : Nat × State :=
          let (id, s2) := s1.newTag
          let s3 := s2.descIssued c ch d.ord
          (id, { s3 with twr := s3.twr.set id { c := c, slot := sl, ch := ch, ord := d.ord, lid := (s.chan c ch).lid, k := d.k, free := d.flag 1, left := upTo n, look := look } })
        if d.op = 4 then
          let (id, s1) := start s 64 true
          .next (s1.gatherStart c ch d d.k id true)
        else match s.planTile c ch d true with
          | .inl (.stop s1) => .next s1
          | .inl _ => .next s
          | .inr (s1, plan) =>
            let (id, s2) := start s1 plan.length false
            .next (s2.tileGo c id true plan)

/-- TILE_WRITE_ACCEPT (R131, R139). -/
def execTileWriteAccept (id ln : Nat) (fail : Bool) (s : State) : Out :=
  let p (m : Msg) : Bool := match m with | .dat w _ _ _ => w == .tileW id ln | _ => false
  if !s.inTurn p then .next s else .next ((s.took p).tileAccept id ln fail)

/-- GATHER_LOOKUP: the record's die resolves the channel's oldest lookup (R151). -/
def execGatherLookup (c ch : Nat) (s : State) : Out :=
  if c ≥ 512 ∨ ch ≥ 8 then .refused .illFormed
  else match s.seq.looks.find? (fun l => l.c == c && l.ch == ch && l.st == 0) with
    | none => .next s
    | some l => match s.resolve l with
      | none => .next s
      | some (s1, l1) => .next { s1 with seq := { s1.seq with looks := s1.seq.looks.map (fun x => if x.n = l.n then l1 else x) } }

/-- LOOKUP_RESPONSE: the streamer takes the oldest result of a channel, and the tiles of that block go on (R151). -/
def execLookupResponse (c ch : Nat) (s : State) : Out :=
  if c ≥ 512 ∨ ch ≥ 8 then .refused .illFormed
  else match s.seq.looks.find? (fun l => l.c == c && l.ch == ch && l.st == 1) with
    | none => .next s
    | some l =>
      let s1 := { s with seq := { s.seq with looks := s.seq.looks.map (fun (x : Lookup) => if x.n = l.n then { x with st := 2 } else x) } }
      let mine (o k : Nat) (look : Bool) : Bool := look && o == l.ord &&
        (match s.descOf c ch l.ord with | some d => d.tokOf k / 128 == l.blk | none => false)
      let s2 := (List.filter (fun (e : Nat × TileRd) => e.2.c = c && e.2.ch = ch && mine e.2.ord e.2.k e.2.look) s1.trd).foldl
        (fun (s2 : State) (e : Nat × TileRd) => s2.gatherGo c ch l.ord e.2.k e.1 false { l with st := 2 }) s1
      let s3 := (List.filter (fun (e : Nat × TileWr) => e.2.c = c && e.2.ch = ch && mine e.2.ord e.2.k e.2.look) s2.twr).foldl
        (fun (s3 : State) (e : Nat × TileWr) => s3.gatherGo c ch l.ord e.2.k e.1 true { l with st := 2 }) s2
      .next (s3.dropLooks (fun x => x.n == l.n && (s3.descOf c ch l.ord).isNone))

/- Decoding (R127, R128, R135, R136). -/

/-- LOOP at decode: the indices and where decoding goes on. -/
def loopNext (d : Desc) : Nat × Nat × Nat :=
  let nxt := (d.addr + 64) % 2 ^ 64
  if d.p0 % 2 = 0 then (if d.i0 < d.count then (d.i0 + 1, d.i1, d.adr) else (0, d.i1, nxt))
  else if d.i1 < d.count then (0, d.i1 + 1, d.adr) else (d.i0, 0, nxt)

/-- Descriptors that occupy a queue: those that have not all issued, or not started. -/
def accUsed (l : List Desc) : Nat := (l.filter (fun d => d.isSync || d.k < d.count)).length
def exeUsed (l : List Desc) : Nat := (l.filter (fun d => d.isSync || !d.started)).length

/-- A descriptor that has been read is decoded; one whose queue is full waits. -/
def State.decodeDesc (s0 s : State) (c ch : Nat) (l : Line) : State :=
  let x := s.chan c ch
  let tiles := match x.team with | some tid => (s.teams.get {} tid).tiles | none => 0
  let d0 := parseDesc l x.pc x.i0 x.i1
  let d := { d0 with ord := x.ord + 1, n0 := x.cnt.get 0 x.pc }
  let y := { x with lastDesc := x.pc, fetched := none }
  if !d.ok (lineBytes l (x.pc % 128 + 0x38) 8) tiles (s.launchOf x.lid).remote x.bound then
    (s.setChan c ch y).chanHalt c ch x.pc 1 0 0x0211
  else if d.op = 0x13 then
    let (i0, i1, pc) := loopNext d
    s.setChan c ch { y with i0 := i0, i1 := i1, pc := pc }
  else if d.op = 0x1F then s.setChan c ch { y with ending := true }
  else
    let toAcc := d.isMem || d.isSync
    let toExe := d.isEng || d.isSync
    if (toAcc && accUsed x.acc ≥ 16) || (toExe && exeUsed x.exe ≥ 32) then s0
    else
      let bound := if d.isEng && d.eop == 9 then insertN (d.p0 % 4) x.bound
                   else if d.isEng && d.eop == 10 then x.bound.filter (· ≠ d.p0 % 4) else x.bound
      s.setChan c ch { y with
        pc := (x.pc + 64) % 2 ^ 64, ord := x.ord + 1, bound := bound,
        cnt := if d.usesSlot then x.cnt.set x.pc (d.n0 + d.count) else x.cnt,
        acc := if toAcc then x.acc ++ [d] else x.acc,
        exe := if toExe then x.exe ++ [d] else x.exe }

/-- DESCRIPTOR_DECODE: the fetch is translated as a read; a line beyond local memory is asked for first (R128, R422). -/
def execDescriptorDecode (c ch : Nat) (s : State) : Out :=
  if c ≥ 512 ∨ ch ≥ 8 then .refused .illFormed
  else
    let x := s.chan c ch
    if !s.chanRuns c ch || x.ending || x.stall.elem 1 then .next s
    else if x.pc % 64 ≠ 0 then .next (s.chanHalt c ch x.pc 1 0 0x0211)
    else match s.chanXlate c ch x.pc x.pc 1 with
      | .wait => .next s
      | .stop s1 => .next s1
      | .ok s1 pa dev _ _ =>
        let bad (s : State) (code : Nat) : State := s.chanHalt c ch x.pc code 0 0x0201
        match s1.memKind pa dev with
        | .cached | .nc =>
          (match s1.agentRead (c / 8) (pa / 128) 6 with
           | .wait => .next s
           | .bus => .next (bad s1 8)
           | .ok s2 d p => if p then .next (bad s2 7) else .next (State.decodeDesc s s2 c ch d))
        | .pcie | .remote =>
          (match x.fetched with
           | some (l, d) => if l = pa / 128 then .next (State.decodeDesc s s1 c ch d)
                            else .next (s1.setChan c ch { x with fetched := none })
           | none =>
             if x.fetching then .next s
             else
               let s2 := s1.setChan c ch { x with fetching := true }
               if s1.wayDown (.grp c 0) (pa / 128) then .next (bad s1 8)
               else if isPcie pa then
                 let q := pciePort (pa / 128)
                 if s.pcieUp q then
                   .next (({ s2 with pci := s2.pci.upd {} q (fun y => { y with out := y.out ++ [(.desc c ch, pa / 128)] }) } : State).count 580 0x305)
                 else .next (bad s1 8)
               else if s.remoteKnown pa then .next (s2.remoteAccess (.desc c ch) 0 (pa / 128) 0 0 1 0) else .next (bad s1 8))
        | .mmio | .unmapped => .next (bad s1 8)

/-- DESCRIPTOR_FETCH_ERROR (R422). -/
def execDescriptorFetchError (c ch : Nat) (poison : Bool) (s : State) : Out :=
  if c ≥ 512 ∨ ch ≥ 8 then .refused .illFormed
  else
    let x := s.chan c ch
    if !s.chanRuns c ch || x.ending || x.stall.elem 1 then .next s
    else .next ((s.setChan c ch { x with fetching := false }).chanHalt c ch x.pc (if poison then 7 else 8) 0 0x0201)

/-- The line of a descriptor comes from beyond local memory. -/
def State.descArrive (s : State) (c ch line : Nat) (d : Line) (poison err : Bool) : State :=
  let x := s.chan c ch
  if !s.chanRuns c ch || !x.fetching then s
  else if err || poison then
    (s.setChan c ch { x with fetching := false }).chanHalt c ch x.pc (if err then 8 else 7) 0 0x0201
  else s.setChan c ch { x with fetching := false, fetched := some (line, d) }

/- Synchronising descriptors and END (R127, R135). -/

/-- The synchronising descriptor of an operation that both queues have reached. -/
def reachedSync (x : Chan) (op : Nat) : Option Desc :=
  match x.acc.find? (fun d => d.isSync) with
  | none => none
  | some d =>
    if d.op = op && x.acc.all (fun e => e.ord ≥ d.ord || e.k == e.count) && x.exe.all (fun e => e.ord ≥ d.ord || e.started) then some d
    else none

/-- Every earlier write and engine output is complete. -/
def earlierDone (x : Chan) (d : Desc) : Bool :=
  x.acc.all (fun e => e.ord ≥ d.ord || !e.flag 0) && x.exe.all (fun e => e.ord ≥ d.ord)

def State.syncDone (s : State) (c ch ord : Nat) : State :=
  let x := s.chan c ch
  s.setChan c ch { x with acc := x.acc.filter (fun d => d.ord ≠ ord), exe := x.exe.filter (fun d => d.ord ≠ ord) }

/-- SIGNAL: then the signal counter goes up (R135). -/
def execSignal (c ch : Nat) (s : State) : Out :=
  if c ≥ 512 ∨ ch ≥ 8 then .refused .illFormed
  else if !s.chanRuns c ch then .next s
  else match reachedSync (s.chan c ch) 0x11 with
    | none => .next s
    | some d => if earlierDone (s.chan c ch) d then .next (((s.syncDone c ch d.ord).addFld .tsChCount c ch 0 32).wakeHand c) else .next s

/-- WAIT: the post counter is at least P1 (R135). -/
def execWait (c ch : Nat) (s : State) : Out :=
  if c ≥ 512 ∨ ch ≥ 8 then .refused .illFormed
  else if !s.chanRuns c ch then .next s
  else match reachedSync (s.chan c ch) 0x12 with
    | none => .next s
    | some d => if d.p1 ≤ s.fld .tsChCount c ch 32 32 then .next (s.syncDone c ch d.ord) else .next s

/-- TFENCE of a program: SIGNAL without the counter (R135). -/
def execTfenceDescriptor (c ch : Nat) (s : State) : Out :=
  if c ≥ 512 ∨ ch ≥ 8 then .refused .illFormed
  else if !s.chanRuns c ch then .next s
  else match reachedSync (s.chan c ch) 0x10 with
    | none => .next s
    | some d => if earlierDone (s.chan c ch) d then .next (s.syncDone c ch d.ord) else .next s

/-- END_COMPLETE: every earlier descriptor is complete (R127). -/
def execEndComplete (c ch : Nat) (s : State) : Out :=
  if c ≥ 512 ∨ ch ≥ 8 then .refused .illFormed
  else
    let x := s.chan c ch
    if s.chanRuns c ch && x.ending && x.acc.isEmpty && x.exe.isEmpty then .next ((s.endChan c ch 0 0).wakeHand c) else .next s

end Sys2Proof.Machine
end

