-- ==== Sys2Proof/Machine/EngineOps.lean ====
section
/-! DEFINITION. Engine descriptors (R83 to R95, R129, R134): when an operation starts, what it does, and its end. -/

namespace Sys2Proof.Machine

def Desc.engIx (d : Desc) : Nat := d.p0 % 4
/-- Bank, with BANKALT; column block; PART; and n of NORM (R130, R134). -/
def Desc.bank (d : Desc) : Nat := ((d.p0 >>> 6) % 4) ^^^ (if d.flag 5 then d.i0 % 2 else 0)
def Desc.col (d : Desc) : Nat := (d.p0 >>> 8) % 4
def Desc.part (d : Desc) : Nat := (d.p0 >>> 10) % 4
/-- ZERO, or ZFIRST in the first pass. -/
def Desc.zero (d : Desc) : Bool := d.flag 2 || (d.flag 3 && d.i0 == 0)
def Desc.reads (d : Desc) : Bool := d.eop == 0 || d.eop == 2 || d.eop == 3
def Desc.writes (d : Desc) : Bool := d.eop == 4 || d.eop == 6

/-- Parts of a line that a row of an output fills; 0 where a row takes two lines (R87). -/
def partsOf (ofmt : Nat) : Nat := if ofmt = 0xB ∨ ofmt = 0xC then 0 else if eltBits ofmt = 16 then 1 else if eltBits ofmt = 8 then 2 else 4

/-- Resources: 0 array, 1 shadow copy, 2 output stage, 3 softmax state, 4 + b bank b (R93). -/
def Desc.res (d : Desc) : List Nat :=
  match d.eop with
  | 0 => [1]
  | 1 => [0, 1]
  | 2 => [0, 4 + d.bank]
  | 3 => 0 :: ((upTo (macs d.fmt)).map (fun q => 4 + d.bank + q) ++ (if d.flag 4 then [3] else []))
  | 4 => [2, 4 + d.bank]
  | 5 => [1, 2, 3, 4 + d.bank]
  | 6 => 2 :: 3 :: (upTo (d.col + 1)).map (fun q => 4 + d.bank + q)
  | _ => [3]

/-- Clocks (R93). -/
def Desc.clocks (d : Desc) : Nat :=
  match d.eop with
  | 0 | 5 => 64
  | 1 | 7 => 1
  | 2 | 3 => 64 * d.count
  | 4 => if partsOf d.fmt = 0 then 128 else 64
  | 6 => (if d.fmt = 0xB then 128 else 64) * (d.col + 1) + 4
  | _ => 2

/-- Outputs of the output stage (R87). -/
def outFmt (f : Nat) : Bool := f ≤ 4 || (6 ≤ f && f ≤ 0xC)

/-- An operation that R81, R85, R87, R90, R92 and R116 do not reject. A stationary copy that nothing has loaded since the
binding has no format, and pairs with every one (DEDUCED, log 46). A SMAX whose PFMT is INT8 or no stationary format, or whose t is not
below v of it, is rejected with them (DEDUCED, log 83). -/
def engOk (x : Engine) (d : Desc) : Bool :=
  let pairsAct := match x.actFmt with | some f => pairs f d.fmt | none => true
  match d.eop with
  | 0 => pairSet d.fmt != 0
  | 2 => pairSet d.fmt != 0 && pairsAct
  | 3 => pairSet d.fmt != 0 && pairsAct && d.col < macs d.fmt && d.bank + macs d.fmt ≤ 4
  | 4 => outFmt d.fmt && d.part < max 1 (partsOf d.fmt) && d.count == (if partsOf d.fmt = 0 then 2 else 1) &&
         ((d.fmt != 4 && d.fmt != 0xC) || d.p1 % 2 ^ 32 == fpOne)
  | 5 => pairSet d.fmt != 0 && d.fmt != 4 && d.col < macs d.fmt
  | 6 => outFmt d.fmt && d.fmt != 4 && d.fmt != 0xC && d.bank + d.col + 1 ≤ 4 &&
         d.count == ceilDiv (64 * (d.col + 1)) (1024 / eltBits d.fmt)
  | _ => true

/-- Absolute slots of the descriptor's tiles (R130). -/
def State.descSlots (s : State) (c ch : Nat) (d : Desc) : List Nat := (upTo d.count).map (fun k => s.tileSlot c ch { d with k := k })

/-- Slots that an operation reads or writes, the lines of SLIMIT and NORM included. -/
def State.usedSlots (s : State) (c ch : Nat) (d : Desc) : List Nat :=
  (if d.reads || d.writes then s.descSlots c ch d else []) ++
  (if d.eop = 8 ∨ d.eop = 6 then (upTo 4).map (fun i => s.tileSlot c ch { slot := (d.adr + i) / 64, slotn := 1 }) else [])

/-- An earlier descriptor holds a later one back: a binding's start or end, whatever the engine still has to do for an UNBIND,
a shared resource, or a shared slot that one of them writes or frees (R94, R134). -/
def State.holdsBack (s : State) (c ch1 ch : Nat) (e d : Desc) : Bool :=
  (e.engIx == d.engIx && (e.eop ≥ 9 || d.eop == 10 || e.res.any d.res.elem)) ||
  ((e.writes || e.flag 1 || d.writes || d.flag 1) && (s.usedSlots c ch1 e).any (s.usedSlots c ch d).elem)

/-- The next descriptor of an operation that has not started, with those before it; a synchronising descriptor holds
everything back. -/
def nextExe (eop : Nat) : List Desc → List Desc → Option (Desc × List Desc)
  | _, [] => none
  | pre, d :: r =>
    if d.isSync then none
    else if d.started then nextExe eop pre r
    else if d.eop = eop then some (d, pre)
    else nextExe eop (pre ++ [d]) r

/-- The slots are in the states that R125 and R129 ask for. -/
def State.slotsReady (s : State) (c ch : Nat) (d : Desc) : Bool :=
  (!d.reads || (s.descSlots c ch d).all (fun i => (s.slot c i).st == 2)) &&
  (!d.writes || (s.descSlots c ch d).all (fun i =>
    if d.eop = 4 ∧ d.part ≠ 0 then (s.slot c i).st == 1 && (s.slot c i).part == d.part else (s.slot c i).st == 0))

/-- No running operation of the core shares a resource or a slot in a way that orders the two. -/
def State.engFree (s : State) (c ch : Nat) (d : Desc) : Bool :=
  (upTo 4).all (fun i => (s.eng (4 * c + i)).busy.all (fun o => !(s.holdsBack c o.ch ch o.d d)))

/-- Draws of rows in ascending order from a seed (R88). -/
def drawList : Nat → Word → List Word
  | 0, _ => []
  | n + 1, x => let y := rngNext x; y :: drawList n y

/-- Rows that the output stage converts, and clocks of one. -/
def Desc.rows (d : Desc) : Nat := if d.eop = 6 then 64 * (d.col + 1) else 64
def Desc.rowClocks (d : Desc) : Nat := if d.fmt = 0xB ∨ d.fmt = 0xC then 2 else 1

/-- What DRAIN and NORM write to the tile store, from the draws of their rows. -/
def State.engOut (s : State) (c e : Nat) (o : EngOp) : State :=
  let x := s.eng e
  let d := o.d
  let old := o.dst.map (fun i => s.slot c i)
  let new := if d.eop = 6 then x.norm d.bank (d.col + 1) d.fmt (d.flag 6) o.draws old
             else x.drain d.bank (d.p1 % 2 ^ 32) d.fmt d.part (d.flag 6) o.draws old
  let s1 := (o.dst.zip new).foldl (fun s1 p => s1.setSlot c p.1 p.2) s
  if d.eop = 6 then
    (upTo 4).foldl (fun s2 h =>
      let sl := s.tileSlot c o.ch { slot := (d.adr + h) / 64, slotn := 1 }
      let (l, p) := x.stateLine h
      s2.setSlot c sl ((s2.slot c sl).put ((d.adr + h) % 64) l p)) s1
  else s1

/-- The row that an uncorrectable error affects: row i of one of an operation's banks; or, of an operation that uses the
active copy, its line i, and then row i of every bank that it writes (R106, R140). -/
def Engine.hurt (x : Engine) (d : Desc) (i pick : Nat) : Engine :=
  let banks := (d.res.filter (fun r => 4 ≤ r)).map (fun r => r - 4)
  match banks[pick % (banks.length + (d.eop == 2 || d.eop == 3).toNat)]? with
  | some b => x.poisonRow b i
  | none => banks.foldl (fun y b => y.poisonRow b i) { x with act := { x.act with poison := setPBit x.act.poison i true } }

/-- The error check of an operation (R106). Which row an uncorrectable error affects the event does not say: it is free
(DESIGN CHOICE, log 53). -/
def State.engCheck (s : State) (e : Nat) (d : Desc) (ecc : Ecc) : State :=
  let s1 := s.engEcc e ecc
  if ecc = .uncorrectable then
    let (k, s2) := s1.stamp
    let w := (Config.freeWord k).toNat
    s2.setEng e ((s2.eng e).hurt d (w % 64) (w / 64))
  else s1

/-- An operation starts: its resources are taken until its clocks have passed, its destination slots are FILLING. What
it computes is fixed now, as no other operation can reach what it uses before its end (R94). -/
def State.engStart (s0 : State) (c ch : Nat) (d : Desc) (ecc : Ecc) : State :=
  let e := 4 * c + d.engIx
  let slots := s0.descSlots c ch d
  let s := if d.eop = 2 ∨ d.eop = 3 then s0.count c 0x00A d.clocks else s0.engCheck e d ecc
  let x := s.eng e
  let tiles := slots.map (fun i => s.slot c i)
  let (k, sk) := s.stamp
  let seed := s.reg .mxSeed e 0
  let draws := if d.writes && d.flag 7 then drawList d.rows seed else []
  let o : EngOp := { ch := ch, d := d, res := d.res, startClk := s.cdClk, endClk := s.cdClk + d.clocks,
                     src := if d.reads && d.flag 1 then slots else [], dst := if d.writes then slots else [], draws := draws, seeds := draws }
  let done (s : State) (x : Engine) : State :=
    let y := s.chan c ch
    ((s.setEng e { x with busy := x.busy ++ [o] }).setChan c ch
      { y with exe := y.exe.map (fun f => if f.ord = d.ord then { f with started := true } else f) })
  match d.eop with
  | 0 => done s (x.sload d.fmt (at' tiles {} 0))
  | 1 => done s x.swap
  | 2 => (done sk (x.west d.bank d.fmt d.zero k tiles)).engCheck e d ecc
  | 3 => (done sk (x.north d.bank d.fmt d.col d.zero (d.flag 4) k tiles)).engCheck e d ecc
  | 5 => done s (x.smax d.bank (d.p1 % 2 ^ 32) d.tb.toNat d.fmt d.col)
  | 7 => done s x.smreset
  | 8 =>
    let ln (h : Nat) : Line × Bool :=
      let t := s.slot c (s.tileSlot c ch { slot := (d.adr + h) / 64, slotn := 1 })
      (t.line ((d.adr + h) % 64), t.bad ((d.adr + h) % 64))
    done s (x.slimit (ln 0) (ln 1))
  | _ =>
    let s1 := if d.eop = 4 ∧ d.part ≠ 0 then s else slots.foldl (fun s1 i => s1.setSlot c i { s1.slot c i with st := 1, part := 0 }) s
    let s2 := match draws.getLast? with | some v => s1.setReg .mxSeed e 0 v | none => s1
    (done s2 (s2.eng e)).engOut c e o

/-- An engine descriptor of an operation comes to its turn: it starts, waits, or is rejected (R81, R94, R129, R136). -/
def engOp (c ch eop : Nat) (ecc : Ecc) (s : State) : Out :=
  if c ≥ 512 ∨ ch ≥ 8 then .refused .illFormed
  else if !s.chanRuns c ch then .next s
  else match nextExe eop [] (s.chan c ch).exe with
    | none => .next s
    | some (d, pre) =>
      let e := 4 * c + d.engIx
      if (s.eng e).owner ≠ some ch || !engOk (s.eng e) d then
        (if pre.isEmpty then .next (s.chanHalt c ch d.addr 1 0 0x0211) else .next s)
      else if pre.any (fun f => s.holdsBack c ch ch f d) || !s.engFree c ch d || !s.slotsReady c ch d then .next s
      else .next (s.engStart c ch d ecc)

/-- SLOAD (R83). -/
def execSload (c ch : Nat) (s : State) : Out := engOp c ch 0 .good s
/-- SWAP (R83). -/
def execSwap (c ch : Nat) (s : State) : Out := engOp c ch 1 .good s
/-- WEST (R84). -/
def execWest (c ch : Nat) (ecc : Ecc) (s : State) : Out := engOp c ch 2 ecc s
/-- NORTH (R85, R91). -/
def execNorth (c ch : Nat) (ecc : Ecc) (s : State) : Out := engOp c ch 3 ecc s
/-- DRAIN (R87, R125). -/
def execDrain (c ch : Nat) (ecc : Ecc) (s : State) : Out := engOp c ch 4 ecc s
/-- SMAX (R90). -/
def execSmax (c ch : Nat) (ecc : Ecc) (s : State) : Out := engOp c ch 5 ecc s
/-- NORM (R92). -/
def execNorm (c ch : Nat) (ecc : Ecc) (s : State) : Out := engOp c ch 6 ecc s
/-- SMRESET (R89). -/
def execSmreset (c ch : Nat) (s : State) : Out := engOp c ch 7 .good s
/-- SLIMIT (R89). -/
def execSlimit (c ch : Nat) (s : State) : Out := engOp c ch 8 .good s

/-- A binding descriptor is over at once. -/
def State.bindDone (s : State) (c ch ord : Nat) : State :=
  let y := s.chan c ch
  s.setChan c ch { y with exe := y.exe.filter (fun f => f.ord ≠ ord) }

/-- BIND: waits until no channel binds the engine; the banks and copies then hold free values, and the softmax state is
reset (R89, R95, R134). -/
def execBind (c ch : Nat) (s : State) : Out :=
  if c ≥ 512 ∨ ch ≥ 8 then .refused .illFormed
  else if !s.chanRuns c ch then .next s
  else match nextExe 9 [] (s.chan c ch).exe with
    | none => .next s
    | some (d, pre) =>
      let e := 4 * c + d.engIx
      if pre.any (fun f => s.holdsBack c ch ch f d) then .next s
      else if (s.eng e).owner = some ch then .next (s.bindDone c ch d.ord)
      else if (s.eng e).owner.isSome then .next s
      else
        let (k, s1) := s.stamp
        let (k1, s2) := s1.stamp
        let (k2, s3) := s2.stamp
        let x : Engine := { bankFill := some k, act := { fill := some k1 }, shadow := { fill := some k2 }, owner := some ch }
        .next (((s3.setEng e x).setReg .mxBind e 0 (BitVec.ofNat 64 (1 + 2 * ch))).bindDone c ch d.ord)

/-- UNBIND: the binding ends once the operations before it on the engine are complete (R134). -/
def execUnbind (c ch : Nat) (s : State) : Out :=
  if c ≥ 512 ∨ ch ≥ 8 then .refused .illFormed
  else if !s.chanRuns c ch then .next s
  else match nextExe 10 [] (s.chan c ch).exe with
    | none => .next s
    | some (d, pre) =>
      let e := 4 * c + d.engIx
      if (s.eng e).owner ≠ some ch then (if pre.isEmpty then .next (s.chanHalt c ch d.addr 1 0 0x0211) else .next s)
      else if pre.any (fun f => s.holdsBack c ch ch f d) || !(s.eng e).busy.isEmpty then .next s
      else .next (((s.unbindEng e).bindDone c ch d.ord).wakeHand c)

/-- The running operation that ends first. -/
def firstOp : List EngOp → Option EngOp
  | [] => none
  | o :: r => match firstOp r with
    | none => some o
    | some p => if p.endClk < o.endClk then some p else some o

/-- ENGINE_OP_COMPLETE: source slots with FREE become EMPTY, destinations FULL, but for a DRAIN of a part that is not the
last, and the descriptor is complete (R94, R125, R127). -/
def execEngineOpComplete (e : Nat) (s : State) : Out :=
  if e ≥ 2048 then .refused .illFormed
  else match firstOp (s.eng e).busy with
    | none => .next s
    | some o =>
      if s.cdClk < o.endClk then .next s
      else
        let c := e / 4
        let x := s.eng e
        let s1 := s.setEng e { x with busy := eraseFirst (fun p => p == o) x.busy }
        let s2 := o.src.foldl (fun s2 i => s2.slotState c i 0) s1
        let s3 := o.dst.foldl (fun s3 i =>
          if o.d.eop = 4 ∧ o.d.part + 1 < partsOf o.d.fmt then s3.setSlot c i { s3.slot c i with part := o.d.part + 1 } else s3.slotState c i 2) s2
        let y := s3.chan c o.ch
        let s4 := s3.setChan c o.ch { y with exe := y.exe.filter (fun f => !(f.ord == o.d.ord && f.started)) }
        .next ((s4.wakeHand c).chSettle c o.ch)

/- The seed register (R88, R109). -/

/-- The operation of an engine that draws, with the rows it has begun. -/
def State.drawing (s : State) (e : Nat) : Option (EngOp × Nat) :=
  match (s.eng e).busy.find? (fun o => !o.draws.isEmpty) with
  | some o => let r := (s.cdClk - o.startClk) / o.d.rowClocks
              if r < o.draws.length then some (o, r) else none
  | none => none

/-- CD_MX_SEED: zero stores 1; the row that is converting keeps the old sequence, and the rows after it use the new. -/
def State.writeSeed (s : State) (e : Nat) (v : Word) : State :=
  let v1 := if v = 0 then 1 else v
  match s.drawing e with
  | none => s.setReg .mxSeed e 0 v1
  | some (o, r) =>
    let rest := drawList (o.draws.length - r - 1) v1
    let o1 := { o with draws := o.draws.take (r + 1) ++ rest, seeds := o.seeds.take r ++ v1 :: rest }
    let x := s.eng e
    let s1 := (s.setEng e { x with busy := x.busy.map (fun p => if p = o then o1 else p) }).setReg .mxSeed e 0 (rest.getLast?.getD v1)
    s1.engOut (e / 4) e o1

/-- CD_MX_SEED as it reads: the state after the rows that have begun. -/
def State.seedNow (s : State) (e : Nat) : Word :=
  match s.drawing e with
  | none => s.reg .mxSeed e 0
  | some (o, r) => at' o.seeds 0 r

/-- A register after a store of `size` bytes at its byte `off` (R421). -/
def mergeReg (old : Word) (off size : Nat) (value : Word) : Word := setBits old (8 * off) (8 * size) value.toNat

/-- CD_MX_SEED_WRITE (R88, R421). -/
def execCdMxSeedWrite (iss : Iss) (e size : Nat) (value : Word) (s : State) : Out :=
  if e ≥ 2048 || !accessWf 0 size then .refused .illFormed
  else s.atBlock iss .mxSeed e 0 (fun s => s.writeSeed e (mergeReg (s.seedNow e) 0 size value))

end Sys2Proof.Machine
end

