-- ==== Sys2Proof/Machine/SeqDir.lean ====
section
/-! DEFINITION. The Sequence Directory's commands, its relayout copier and the installation of a migration (R146 to R166). -/

namespace Sys2Proof.Machine

def stSeqNoContext : Nat := 0x0801
def stSeqBusy : Nat := 0x0802
def stSeqRange : Nat := 0x0803
def stSeqBadArg : Nat := 0x0804
def stSeqListError : Nat := 0x0805
def stSeqCopyFailed : Nat := 0x0806
def stSeqTableError : Nat := 0x0807

/-- Memory lines from l on at their homes; a line that cannot be read is none. No result: a line is in use. -/
def State.readLines (s : State) (l : Nat) : Nat → Option (State × List (Option Line))
  | 0 => some (s, [])
  | n + 1 =>
    let go (s1 : State) (d : Option Line) : Option (State × List (Option Line)) :=
      match State.readLines s1 (l + 1) n with
      | some (s2, r) => some (s2, d :: r)
      | none => none
    match s.ncRead l 1 with
    | .wait => none
    | .bus => go s none
    | .ok s1 d p => go s1 (if p then none else some d)

/-- n bytes at an address, from lines that begin with line l0. -/
def bytesOf (l0 : Nat) (ls : List (Option Line)) (a n : Nat) : Option (List Byte) :=
  (upTo n).foldr (fun i acc =>
    match acc, at' ls none ((a + i) / 128 - l0) with
    | some r, some d => some (lineByte d ((a + i) % 128) :: r)
    | _, _ => none) (some [])

/-- The n 8-byte entries of a list (BLIST), each as far as it can be read. -/
def State.readEntries (s : State) (a n : Nat) : Option (State × List (Option Nat)) :=
  if n = 0 then some (s, [])
  else
    let l0 := a / 128
    match s.readLines l0 ((a + 8 * n - 1) / 128 - l0 + 1) with
    | none => none
    | some (s1, ls) => some (s1, (upTo n).map (fun i => (bytesOf l0 ls (a + 8 * i) 8).map ofLeBytes))

/-- The first fault of a list of new entries (R156). -/
def listFault (rowb : Nat) : List (Option Nat) → Option Nat
  | [] => none
  | none :: _ => some stSeqListError
  | some e :: r => if e % 2 = 0 then some stSeqListError else if !entryOk e rowb then some stSeqBadArg else listFault rowb r

/-- The 64 bytes of a record (R147). MIGLO and MIGN are valid while MIG is 1: they are free values at other times. -/
def SeqRec.image (r : SeqRec) (code : Nat) : List Byte :=
  let w := (Config.freeWord code).toNat
  leBytes 8 r.seqid ++ leBytes 4 r.length ++ leBytes 2 r.layers ++ leBytes 1 r.rowb ++
  leBytes 1 (r.live.toNat + 2 * r.ver.toNat + 4 * r.cpt.toNat + 8 * r.mig.toNat) ++ leBytes 2 r.asid ++ leBytes 2 0 ++
  leBytes 4 (if r.mig then r.miglo else w % 2 ^ 32) ++ leBytes 4 (if r.mig then r.mign else w / 2 ^ 32) ++ leBytes 4 0 ++ leBytes 8 r.root0 ++ leBytes 8 r.root1 ++ leBytes 16 0

/-- A line of the committed table is updated, and with it the shadow line that the copier has already written (R161).
The flag says that the line had to be read and could not be. -/
def State.tableUpd (s : State) (ctx layer i : Nat) (whole : Bool) (f : Line → Line) : Option (State × Bool) :=
  let r := s.seqRec ctx
  let l := twArea r.table / 128 + layer * twStride r.table + i
  let put (s1 : State) (d : Line) : Option (State × Bool) :=
    match s1.tableWrite l d false with
    | none => none
    | some s2 =>
      let k := layer * twStride r.shadow + i
      if r.cpt && i < twStride r.shadow && k < r.copied then
        (s2.tableWrite (twArea r.shadow / 128 + k) d true).map (fun s3 => (s3, false))
      else some (s2, false)
  if whole then put s (f 0)
  else match s.tableRead (ctx / 65536) l false with
    | .wait => none
    | .bus => some (s.tablePoison ctx l false, true)
    | .ok s1 d p => if p then some (s1.tablePoison ctx l false, true) else put s1 (f d)

/-- Several lines of layer and index: they stop at the first that cannot be read, or go on. -/
def State.tableUpds (s : State) (ctx : Nat) (stop : Bool) (f : Nat → Nat → Bool × (Line → Line)) : List (Nat × Nat) → Option (State × Bool)
  | [] => some (s, false)
  | (layer, i) :: r =>
    let (whole, g) := f layer i
    match s.tableUpd ctx layer i whole g with
    | none => none
    | some (s1, bad) =>
      if bad && stop then some (s1, true)
      else match State.tableUpds s1 ctx stop f r with
        | none => none
        | some (s2, b) => some (s2, bad || b)

/-- Entry n of a table line. -/
def putEntry (d : Line) (n e : Nat) : Line := mergeLine d (lineAt (8 * n) 8 e) (maskAt (8 * n) 8)

/-- A command of the directory on an existing context, or on any for SEQ_CREATE (R153): MB1's authority, memory, the
context, reserved bytes. -/
def seqCommand (mb op : Nat) (fields : List (Nat × Nat)) (s : State) (k : State → Mbx → Nat → SeqRec → CmdRes) : Out :=
  command mb op s (fun s m =>
    let ctx := m.arg 4 4
    let r := s.seqRec ctx
    if mb = 1 && !(ctx < 262144 && r.live && m.deleg == some r.asid) then .done s stUnauthorised []
    else if !s.memOk then .done s stMemNotReady []
    else if ctx ≥ 262144 || (op != 0x801 && !r.live) then .done s stSeqNoContext []
    else if op = 0x804 ∧ (r.cpt || r.mig) then .done s stSeqBusy []
    else if !m.clean ((4, 4) :: fields) then .done s stSeqBadArg []
    else k s m ctx r)

/-- Lines of a table area leave the block-table cache, so that lookups find the area as it stands in memory (R155). -/
def State.btcForget (s : State) (l n : Nat) : State :=
  { s with seq := { s.seq with btc := s.seq.btc.filter (fun e => e.1 < l || l + n ≤ e.1) } }

/-- SEQ_CREATE (R155). -/
def execSeqCreate (mb : Nat) (s : State) : Out :=
  seqCommand mb 0x801 [(8, 8), (0x10, 8), (0x18, 2), (0x1A, 1), (0x1B, 1), (0x1C, 2), (0x20, 4)] s (fun s m ctx r =>
    let w := m.arg 0x10 8
    let layers := m.arg 0x18 2
    let rowb := m.arg 0x1A 1
    let adopt := m.arg 0x1B 1
    let len := m.arg 0x20 4
    if layers = 0 || layers > 1024 || rowb = 0 || rowb > 64 || adopt > 1 || !s.twOk ctx w layers then .done s stSeqBadArg []
    else if r.live then .done s stSeqBusy []
    else if len > 2 ^ 22 ∨ len > twCap w ∨ (adopt = 0 ∧ len ≠ 0) then .done s stSeqRange []
    else
      let new : SeqRec := { live := true, seqid := m.arg 8 8, length := len, layers := layers, rowb := rowb, asid := m.arg 0x1C 2, root0 := w }
      let s1 := (s.setRec ctx new).btcForget (twArea w / 128) (layers * twStride w)
      if adopt = 1 then .done s1 stOk []
      else match s1.tableUpds ctx false (fun _ _ => (true, fun _ => 0))
          ((upTo layers).flatMap (fun l => (upTo (twStride w)).map (fun i => (l, i)))) with
        | none => .wait
        | some (s2, _) => .done s2 stOk [])

/-- SEQ_EXTEND (R156, R161). -/
def execSeqExtend (mb : Nat) (s : State) : Out :=
  seqCommand mb 0x802 [(8, 4), (0x10, 8)] s (fun s m ctx r =>
    let len := m.arg 8 4
    if len ≤ r.length ∨ len > 2 ^ 22 ∨ len > twCap r.table ∨ (r.cpt ∧ len > twCap r.shadow) then .done s stSeqRange []
    else
      let b0 := blocksOf r.length
      let k := blocksOf len - b0
      match s.readEntries (m.arg 0x10 8) (r.layers * k) with
      | none => .wait
      | some (s1, es) =>
        match listFault r.rowb es with
        | some st => .done s1 st []
        | none =>
          let new (layer b : Nat) : Nat := ((at' es none (layer * k + (b - b0))).getD 0)
          let lines := if k = 0 then [] else (upTo r.layers).flatMap (fun l =>
            (upTo ((b0 + k - 1) / 16 - b0 / 16 + 1)).map (fun j => (l, b0 / 16 + j)))
          match s1.tableUpds ctx true (fun l i => (16 * i ≥ b0, fun d =>
              (upTo 16).foldl (fun d n => let b := 16 * i + n; if b0 ≤ b ∧ b < b0 + k then putEntry d n (new l b) else d) d)) lines with
          | none => .wait
          | some (s2, bad) =>
            if bad then .done s2 stSeqTableError []
            else .done (s2.setRec ctx { s2.seqRec ctx with length := len }) stOk (leBytes 4 k))

/-- SEQ_TRIM (R157). -/
def execSeqTrim (mb : Nat) (s : State) : Out :=
  seqCommand mb 0x803 [(8, 4)] s (fun s m ctx r =>
    let len := m.arg 8 4
    let b0 := blocksOf len
    if r.mig && b0 < r.miglo + r.mign then .done s stSeqBusy []
    else if len ≥ r.length then .done s stSeqRange []
    else
      let s1 := s.setRec ctx { r with length := len }
      let lines := (upTo r.layers).flatMap (fun l => (upTo (twStride r.table - b0 / 16)).map (fun j => (l, b0 / 16 + j)))
      match s1.tableUpds ctx false (fun _ i => (16 * i ≥ b0, fun d =>
          (upTo 16).foldl (fun d n => if b0 ≤ 16 * i + n then putEntry d n (2 * (entryOf d n / 2)) else d) d)) lines with
      | none => .wait
      | some (s2, bad) => .done s2 (if bad then stSeqTableError else stOk) (leBytes 4 (blocksOf r.length - b0)))

/-- SEQ_MIGRATE (R159): while a relayout or a migration runs, ST_SEQ_BUSY comes before every other breach. -/
def execSeqMigrate (mb : Nat) (s : State) : Out :=
  seqCommand mb 0x804 [(8, 4), (0xC, 4), (0x10, 8)] s (fun s m ctx r =>
    let fb := m.arg 8 4
    let nb := m.arg 0xC 4
    if nb = 0 ∨ nb > 32768 then .done s stSeqBadArg []
    else if fb + nb > blocksOf r.length then .done s stSeqRange []
    else
      let first := fb / 16
      let cnt := (fb + nb - 1) / 16 - first + 1
      let step (acc : Option (State × List (Option Nat))) (l : Nat) : Option (State × List (Option Nat)) :=
        match acc with
        | none => none
        | some (s1, es) =>
          match s1.readLines (twArea r.table / 128 + l * twStride r.table + first) cnt with
          | none => none
          | some (s2, ls) => some (s2, es ++ (upTo nb).map (fun j =>
              let b := fb + j
              (at' ls none (b / 16 - first)).map (fun d => entryOf d b)))
      match (upTo r.layers).foldl step (some (s, [])) with
      | none => .wait
      | some (s1, olds) =>
        if olds.any (fun e => match e with | some x => x % 2 == 0 | none => false) then .done s1 stSeqRange []
        else match s1.readEntries (m.arg 0x10 8) (r.layers * nb) with
          | none => .wait
          | some (s2, es) =>
            match listFault r.rowb es with
            | some st => .done s2 st []
            | none =>
              if olds.any Option.isNone then .done s2 stSeqTableError []
              else
                let os := olds.map (fun e => e.getD 0)
                let ns := es.map (fun e => e.getD 0)
                let job : Job := { kind := 1, ctx := ctx, src := entryAddr (at' os 0 0), dst := entryAddr (at' ns 0 0), len := 32768 * r.rowb, hint := 1 }
                .done { s2.setRec ctx { r with mig := true, miglo := fb, mign := nb, olds := os, blist := ns, migDone := false } with jobs := s2.jobs ++ [job] } stOk [])

/-- SEQ_RELAYOUT (R160). -/
def execSeqRelayout (mb : Nat) (s : State) : Out :=
  seqCommand mb 0x805 [(8, 8)] s (fun s m ctx r =>
    let w := m.arg 8 8
    let size (x : Nat) : Nat := r.layers * twStride x * 128
    let t := r.table
    if !s.twOk ctx w r.layers || (twArea w < twArea t + size t && twArea t < twArea w + size w) then .done s stSeqBadArg []
    else if r.cpt || r.mig then .done s stSeqBusy []
    else if twCap w < r.length then .done s stSeqRange []
    else
      let r1 := if r.ver then { r with root0 := w } else { r with root1 := w }
      .done (s.setRec ctx { r1 with cpt := true, copied := 0, copiedAt := s.now }) stOk [])

def relayoutEvent (s : State) (ctx seqid status word : Nat) : State :=
  s.post evSeqRelayoutDone (9 + ctx / 65536) [(4, ctx), (8, seqid), (2, status), (8, word)]

def migrateEvent (s : State) (ctx seqid status layer blk : Nat) : State :=
  s.post evSeqMigrateDone (9 + ctx / 65536) [(4, ctx), (8, seqid), (2, status), (4, layer), (4, blk)]

/-- SEQ_RETIRE (R158). -/
def execSeqRetire (mb : Nat) (s : State) : Out :=
  seqCommand mb 0x806 [] s (fun s _ ctx r =>
    let (k, s0) := s.stamp
    let s1 := s0.setRec ctx {}
    let s2 : State := { s1 with jobs := s1.jobs.filter (fun j => !(j.kind == 1 && j.ctx == ctx)) }
    let s3 := if r.cpt then relayoutEvent s2 ctx r.seqid stSeqNoContext r.shadow else s2
    let s4 := if r.mig then migrateEvent s3 ctx r.seqid stSeqNoContext 0 0 else s3
    .done s4 stOk (r.image k))

/-- SEQ_QUERY (R147). -/
def execSeqQuery (mb : Nat) (s : State) : Out :=
  seqCommand mb 0x807 [] s (fun s _ _ r => .done s.stamp.2 stOk (r.image s.stamp.1))

/-- RELAYOUT_LINE_COPY (R160, R162, R163): the next shadow line; after the last one VER changes in one write. -/
def execRelayoutLineCopy (ctx : Nat) (s : State) : Out :=
  if ctx ≥ 262144 then .refused .illFormed
  else
    let r := s.seqRec ctx
    let m := ctx / 65536
    let ns := twStride r.shadow
    if !r.live || !r.cpt || s.now < r.copiedAt + s.fld .seqCptRate m 0 0 8 || s.pwr.phase ≠ .on then .next s
    else
      let layer := r.copied / ns
      let i := r.copied % ns
      let src := twArea r.table / 128 + layer * twStride r.table + i
      let write (s1 : State) (d : Line) : Out :=
        match s1.tableWrite (twArea r.shadow / 128 + r.copied) d true with
        | none => .next s
        | some s2 =>
          if r.copied + 1 < r.layers * ns then .next (s2.setRec ctx { r with copied := r.copied + 1, copiedAt := s.now })
          else
            let s3 := s2.setRec ctx { r with copied := r.copied + 1, copiedAt := s.now, ver := !r.ver, cpt := false }
            let ev : SeqEv := { ctx := ctx, seqid := r.seqid, word := r.shadow, waits := s3.openLooks ctx }
            .next { s3 with seq := { s3.seq with evs := s3.seq.evs ++ [ev] } }
      let fail (s1 : State) : Out := .next (relayoutEvent (s1.setRec ctx { r with cpt := false }) ctx r.seqid stSeqCopyFailed (src * 128))
      if i ≥ twStride r.table then write s 0
      else match s.ncRead src 1 with
        | .wait => .next s
        | .bus => fail s
        | .ok s1 d p => if p then fail (s1.setReg .seqPoisonAddr m 0 (BitVec.ofNat 64 (src * 128))) else write s1 d

/-- EV_SEQ_RELAYOUT_DONE (R162): posts once every lookup that read the old root has completed. -/
def execEvSeqRelayoutDone (ctx : Nat) (s : State) : Out :=
  let ready (e : SeqEv) : Bool := e.ctx == ctx && !e.mig && s.looksDone e.waits
  match s.seq.evs.find? ready with
  | none => .next s
  | some e => .next (relayoutEvent { s with seq := { s.seq with evs := eraseFirst ready s.seq.evs } } ctx e.seqid stOk e.word)

/-- One new entry goes into its table line, and into the cached copy of that line. -/
def State.installEntry (s : State) (r : SeqRec) (layer b e : Nat) : Option State :=
  let l := entryLine r.table layer b
  let off := 8 * (b % 16)
  match s.ncWrite l (maskAt off 8) (lineAt off 8 e) false 1 with
  | .ok s1 _ _ => some (match s1.seq.btc.find? l with
      | some x => { s1 with seq := { s1.seq with btc := s1.seq.btc.set l { x with data := putEntry x.data (b % 16) e } } }
      | none => s1)
  | _ => none

/-- MIGRATE_INSTALL (R159). -/
def execMigrateInstall (ctx : Nat) (s : State) : Out :=
  if ctx ≥ 262144 then .refused .illFormed
  else
    let r := s.seqRec ctx
    if !r.live || !r.mig || !r.migDone then .next s
    else
      let put (acc : Option State) (p : Nat × Nat) : Option State :=
        acc.bind (fun s1 => s1.installEntry r (p.2 / r.mign) (r.miglo + p.2 % r.mign) p.1)
      match r.blist.zipIdx.foldl put (some s) with
      | none => .next s
      | some s1 =>
        let s2 := s1.setRec ctx { r with mig := false, miglo := 0, mign := 0, olds := [], blist := [], migDone := false }
        let ev : SeqEv := { ctx := ctx, seqid := r.seqid, mig := true, waits := s2.openLooks ctx }
        .next (State.migEvents { s2 with seq := { s2.seq with evs := s2.seq.evs ++ [ev] } })

/-- The block-table cache of a die is emptied (R166). -/
def State.btcFlush (s : State) (m : Nat) : State :=
  { s with seq := { s.seq with btc := s.seq.btc.filter (fun e => s.homeOf e.1 ≠ m) } }

/-- SEQ_BTC_FLUSH (R166). -/
def execSeqBtcFlush (iss : Iss) (m : Nat) (s : State) : Out :=
  if m ≥ 4 then .refused .illFormed else s.atBlock iss .seqBtcCtrl m 0 (fun s => s.btcFlush m)

end Sys2Proof.Machine
end

