-- ==== Sys2Proof/Machine/MemCmds.lean ====
section
/-! DEFINITION. The memory commands, the hub's data mover, error checks of the arrays, scrubbing, training, and the
memory-side cache's register commands (R173 to R193). -/

namespace Sys2Proof.Machine

def stMemBadArg : Nat := 0x0101
def stMemRange : Nat := 0x0102
def stMemBusy : Nat := 0x0103
def stMemCopyFailed : Nat := 0x0104
def stMemFlash : Nat := 0x0106
def stWsCopyFailed : Nat := 0x0403

/- Scrubbing (R186). -/

/-- The other groups of the interleave fix the group at the grain: the address of an offset in a stack or interface
(R177 to R179). -/
def hbmAddr (hp st o : Nat) : Nat :=
  if o < (48 - hp) * gib then
    let a := (o >>> 8) <<< 11
    a + ((st ^^^ xorGroups a 8 3 11) <<< 8) + o % 256
  else 8 * (48 - hp) * gib + st * hp * gib + (o - (48 - hp) * gib)

def steppeAddr (sp i o : Nat) : Nat :=
  if o < (64 - sp) * gib then
    let b := (o >>> 8) <<< 12
    2 ^ 40 + b + ((i ^^^ xorGroups b 8 4 8) <<< 8) + o % 256
  else 2 ^ 40 + 16 * (64 - sp) * gib + i * sp * gib + (o - (64 - sp) * gib)

/-- PATROL_SCRUB (R186): a line of the die's memory is checked. The manual gives no order of the lines: which one is next
is a free value. -/
def execPatrolScrub (m : Nat) (ecc : Ecc) (s : State) : Out :=
  if m ≥ 4 then .refused .illFormed
  else if s.fld .scrubCtrl m 0 0 1 = 0 || !s.memOk || s.pwr.phase ≠ .on then .next s
  else
    let (k, s1) := s.stamp
    let n := (Config.freeWord k).toNat % (2 * 48 * 2 ^ 23 + 4 * 64 * 2 ^ 23)
    let l := if n < 96 * 2 ^ 23 then hbmAddr s.pwr.hp (2 * m + n / (48 * 2 ^ 23)) (128 * (n % (48 * 2 ^ 23))) / 128
             else let k := n - 96 * 2 ^ 23
                  steppeAddr s.pwr.sp (4 * m + k / (64 * 2 ^ 23)) (128 * (k % (64 * 2 ^ 23))) / 128
    .next (s1.memCheck l ecc true)

/- Training (R173 to R176). -/

/-- A lane map word with a spare's lane added where the spare is not in use yet. -/
def addRepair (w : Word) (spare lane : Nat) : Word :=
  if spare = 2 then (if bit w 15 then w else setBits (setBit w 15 true) 16 6 lane)
  else if bit w (8 * spare + 6) then w else setBits (setBit w (8 * spare + 6) true) (8 * spare) 6 lane

/-- Every stack and interface trained: memory is enabled as a whole (R175). -/
def State.enableMem (s : State) : State :=
  let ok : Bool := (upTo 8).all (fun i => s.fld .hbmStatus i 0 0 1 == 1) && (upTo 16).all (fun i => s.fld .lpStatus i 0 0 1 == 1)
  (upTo 4).foldl (fun s1 m => s1.setFld .memStatus m 0 0 6 (if ok then 0x3F else 0)) s

/-- MEMORY_TRAINING of stack `unit` 0-7 or interface `unit` - 8, at its step of a boot sequence. A repair is a spare
(two for each pseudo-channel, 128 the command-address spare) and the lane it replaces. -/
def execMemoryTraining (unit : Nat) (ok slow : Bool) (repairs : List (Nat × Nat)) (s : State) : Out :=
  if unit ≥ 24 || repairs.any (fun r => r.1 ≥ 129 || r.2 ≥ 64) then .refused .illFormed
  else
    let go : Bool := match s.pwr.phase with | .boot n => n == 5 | .warm n => n == 5 | _ => false
    if !go then .next s
    else
      let hbm : Bool := unit < 8
      let m := if hbm then unit / 2 else (unit - 8) / 4
      let i := if hbm then unit else unit - 8
      let k : RegKind := if hbm then .hbmStatus else .lpStatus
      let used (s : State) : Nat := ((upTo 64).map (fun p => let w := s.reg .hbmRepair i p; (bit w 6).toNat + (bit w 14).toNat + (bit w 15).toNat)).sum
      let before := used s
      let s1 := if hbm then
          repairs.foldl (fun s1 r =>
            let p := if r.1 = 128 then 0 else r.1 / 2
            s1.setReg .hbmRepair i p (addRepair (s1.reg .hbmRepair i p) (if r.1 = 128 then 2 else r.1 % 2) r.2)) s
        else s
      let after := used s1
      let s2 := ((s1.setFld k i 0 0 1 ok.toNat).setFld k i 0 1 1 (!ok).toNat).setFld k i 0 2 1 (ok && slow).toNat
      let s3 := if hbm then s2.setFld k i 0 16 8 after else s2
      let s4 := s3.enableMem
      let added := if hbm && (match s.pwr.phase with | .warm _ => true | _ => false) then after - before else 0
      let ev (s : State) : State := s.post evMemTrain (9 + m) [(1, i), (4, if hbm then after else 0), (1, (ok && slow).toNat), (1, (!ok).toNat), (1, m)]
      let s5 := (upTo added).foldl (fun s5 _ => ev (s5.wsReport 3)) s4
      .next (if slow || !ok then ev s5 else s5)

/- Commands (R188 to R191). -/

/-- A range that MEM_COPY accepts lies wholly in one place (R189). -/
def copyRange (a n : Nat) : Bool :=
  a % 128 == 0 &&
  (localRange a n || (isPcie a && isPcie (a + n - 1) && (a - 0xE00000000000) / 2 ^ 43 == (a + n - 1 - 0xE00000000000) / 2 ^ 43) ||
   (isRemote a && isRemote (a + n - 1) && a / 2 ^ 41 == (a + n - 1) / 2 ^ 41))

/-- Jobs that count among the 64 outstanding: copies, and the snapshot (R189, R315). -/
def State.moverJobs (s : State) : Nat := (s.jobs.filter (fun j => j.kind == 0)).length + s.ws.snap.isSome.toNat

/-- MEM_COPY (R189). -/
def execMemCopy (mb : Nat) (s : State) : Out :=
  command mb 0x101 s (fun s m =>
    let src := m.arg 8 8
    let dst := m.arg 0x10 8
    let len := m.arg 0x18 8
    let h := m.arg 0x20 1
    if !s.memOk then .done s stMemNotReady []
    else if !m.clean [(8, 8), (0x10, 8), (0x18, 8), (0x20, 1), (0x24, 4)] || len == 0 || len % 128 != 0 || len > 2 ^ 40 || h > 4 ||
      !copyRange src len || !copyRange dst len || (isLocal src && isLocal dst && src < dst + len && dst < src + len) then .done s stMemBadArg []
    else if s.moverJobs ≥ 64 then .done s stMemBusy []
    else
      let j : Job := { kind := 0, tag := m.arg 0x24 4, src := src, dst := dst, len := len, hint := if h = 0 then 1 else h }
      .done { s with jobs := s.jobs ++ [j] } stOk [])

/-- One line of MEM_ADVISE: the state, and whether it was filled without the mark it asked for (R190). None: in use. -/
def State.adviseLine (s : State) (l adv : Nat) : Option (State × Bool) :=
  match adv with
  | 2 => some ((match s.msc.find? l with
      | some e => { s with msc := s.msc.set l { e with keep := false } }
      | none => s), false)
  | 3 => some ((match s.msc.find? l with
      | some e => if e.dirty then { s.arrayPut l e.data e.poison with msc := s.msc.set l { e with dirty := false } } else s
      | none => s), false)
  | _ =>
    let full : Bool := s.keepWays l ≤ ((s.mscMates l).filter (fun e => e.2.keep && e.1 ≠ l)).length
    let hint := if adv = 0 ∧ !full then 3 else 1
    match s.ncRead l hint with
    | .ok s1 _ _ => some (s1, adv == 0 && full)
    | _ => none

def State.adviseLines (s : State) (l adv : Nat) : Nat → Option (State × Nat)
  | 0 => some (s, 0)
  | n + 1 =>
    match s.adviseLine l adv with
    | none => none
    | some (s1, u) => match State.adviseLines s1 (l + 1) adv n with
      | none => none
      | some (s2, k) => some (s2, k + u.toNat)

/-- MEM_ADVISE (R190). -/
def execMemAdvise (mb : Nat) (s : State) : Out :=
  command mb 0x102 s (fun s m =>
    let base := m.arg 8 8
    let len := m.arg 0x10 8
    let adv := m.arg 0x18 1
    if !s.memOk then .done s stMemNotReady []
    else if !m.clean [(8, 8), (0x10, 8), (0x18, 1)] || base % 128 != 0 || len < 128 || len > 2 ^ 26 || adv > 3 || !localRange base len then
      .done s stMemBadArg []
    else
      let n := ceilDiv len 128
      match s.adviseLines (base / 128) adv n with
      | none => .wait
      | some (s1, u) => .done s1 stOk (leBytes 4 n ++ leBytes 4 u))

/-- MEM_SPLIT_SET (R191, R385): both banks' records, or neither. -/
def execMemSplitSet (mb : Nat) (flashOk : Bool) (s : State) : Out :=
  command mb 0x103 s (fun s m =>
    let hp := m.arg 8 1
    let sp := m.arg 9 1
    if !s.memOk then .done s stMemNotReady []
    else if !m.clean [(8, 1), (9, 1)] then .done s stMemBadArg []
    else if hp > 48 ∨ sp > 64 then .done s stMemRange []
    else if !flashOk then .done s stMemFlash []
    else
      let put (c : BootCfg) : BootCfg := { c with hp := hp, sp := sp }
      .done { s with sec := { s.sec with cfg := (s.sec.cfg.upd {} 0 put).upd {} 1 put } } stOk [])

/- The data mover (R189, R159, R315). -/

/-- The snapshot ends with a failure (R317). -/
def State.snapFail (s : State) (status off : Nat) : State :=
  match s.ws.snap with
  | none => s
  | some n =>
    let s1 : State := { s with ws := { s.ws with snap := none }, jobs := s.jobs.filter (fun j => j.kind ≠ 2) }
    (s1.setFld .wsStatus 0 0 20 1 0).post evWsSnapshotDone 13 [(2, status), (8, n.step), (4, n.poisoned), (8, off)]

def copyEvent (s : State) (j : Job) (status off : Nat) : State :=
  let die := if isLocal j.dst then s.homeOf (j.dst / 128) else if isLocal j.src then s.homeOf (j.src / 128) else 0
  s.post evMemCopyDone 13 [(4, j.tag), (2, status), (8, off), (4, j.poisoned), (1, die)]

/-- A job at the front fails at its line (R159, R189, R317). -/
def State.jobFail (s : State) (j : Job) : State :=
  let s1 : State := { s with jobs := s.jobs.drop 1 }
  match j.kind with
  | 0 => copyEvent s1 j stMemCopyFailed j.off
  | 1 =>
    let r := s1.seqRec j.ctx
    migrateEvent (s1.setRec j.ctx { r with mig := false, miglo := 0, mign := 0, olds := [], blist := [], migDone := false }) j.ctx r.seqid
      stSeqCopyFailed (j.n / max 1 r.mign) (r.miglo + j.n % max 1 r.mign)
  | _ => match s1.ws.snap with
    | some n => s1.snapFail stWsCopyFailed (128 + n.bytes)
    | none => s1

/-- A job at the front has copied its last line: the event of a copy, the next block of a migration, the next region of a
snapshot. -/
def State.jobEnd (s : State) (j : Job) : State :=
  let s1 : State := { s with jobs := s.jobs.drop 1 }
  match j.kind with
  | 0 => copyEvent s1 j stOk 0
  | 1 =>
    let r := s1.seqRec j.ctx
    let n := j.n + 1
    if n < r.blist.length then
      { s1 with jobs := s1.jobs ++ [{ j with n := n, src := entryAddr (at' r.olds 0 n), dst := entryAddr (at' r.blist 0 n), off := 0, burst := 0, asked := 0 }] }
    else s1.setRec j.ctx { r with migDone := true }
  | _ => match s1.ws.snap with
    | none => s1
    | some n =>
      let k := n.region + 1
      match n.regions[k]? with
      | none => { s1 with ws := { s1.ws with snap := some { n with region := k, copied := true } } }
      | some (a, len) =>
        { s1 with ws := { s1.ws with snap := some { n with region := k } },
                  jobs := s1.jobs ++ [{ j with src := a, dst := j.dst + j.len, len := len, off := 0, burst := 0, asked := 0 }] }

/-- A line has been written: poison is counted, and in a migration it is a failure (R154); the turn goes on after 8 KiB. -/
def State.jobLine (s : State) (j : Job) (p : Bool) : State :=
  let j1 := { j with off := j.off + 128, poisoned := j.poisoned + p.toNat, burst := j.burst + 1, asked := 0, data := 0, bad := false }
  let s := s.count 580 0x306
  let s0 : State := if j.kind = 2 then
      (match s.ws.snap with
       | some n => { s with ws := { s.ws with snap := some { n with bytes := n.bytes + 128, poisoned := n.poisoned + p.toNat } } }
       | none => s) else s
  if j1.off = j.len then s0.jobEnd j1
  else if j1.burst = 64 then { s0 with jobs := s0.jobs.drop 1 ++ [{ j1 with burst := 0 }] }
  else { s0 with jobs := j1 :: s0.jobs.drop 1 }

/-- The line in hand goes to its destination. -/
def State.jobWrite (s : State) (j : Job) (d : Line) (p : Bool) : State :=
  let a := j.dst + j.off
  if j.kind = 1 ∧ p then s.jobFail j
  else if isLocal a then
    match s.ncWrite (a / 128) (BitVec.allOnes 128) d p j.hint with
    | .wait => { s with jobs := { j with asked := 2, data := d, bad := p } :: s.jobs.drop 1 }
    | .bus => s.jobFail j
    | .ok s1 _ _ => s1.jobLine j p
  else if isPcie a then
    (if s.pcieUp (pciePort (a / 128)) then (s.pcieWrite (pciePort (a / 128)) (a / 128) (BitVec.allOnes 128) d p).jobLine j p else s.jobFail j)
  else if s.remoteKnown a then
    State.remoteAccess { s with jobs := { j with asked := 3, data := d, bad := p } :: s.jobs.drop 1 } (.ext 1) 1 (a / 128) (BitVec.allOnes 128) d j.hint 0 p
  else s.jobFail j

/-- The answer of the mover's outstanding access beyond local memory. -/
def State.moverAnswer (s : State) (d : Line) (p fail : Bool) : State :=
  match s.jobs with
  | [] => s
  | j :: _ =>
    if j.asked = 1 then (if fail then s.jobFail j else s.jobWrite j d p)
    else if j.asked = 3 then (if fail then s.jobFail j else s.jobLine j j.bad)
    else s

/-- DATA_MOVER_LINE: the job at the front reads its next line, or gets the answer of a line beyond local memory, and
writes it; `fail` is a bus error of a line that is not read or written here. -/
def execDataMoverLine (data : Line) (poison fail : Bool) (s : State) : Out :=
  match s.jobs with
  | [] => .next s
  | j :: r =>
    let a := j.src + j.off
    if j.asked = 1 ∨ j.asked = 3 then
      .next (State.moverAnswer { s with fab := { s.fab with rem := s.fab.rem.filter (fun q => q.w ≠ Who.ext 1) },
                                        pci := s.pci.map (fun (e : Nat × PciS) => (e.1, { e.2 with out := e.2.out.filter (fun o => o.1 ≠ Who.ext 1) })) } data poison fail)
    else if j.asked = 2 then .next (s.jobWrite j j.data j.bad)
    else if isLocal a then
      match s.ncRead (a / 128) 2 with
      | .wait => .next s
      | .bus => .next (s.jobFail j)
      | .ok s1 d p => .next (s1.jobWrite j d p)
    else if isPcie a then
      (if s.pcieUp (pciePort (a / 128)) then
        .next (({ s with jobs := { j with asked := 1 } :: r,
                         pci := s.pci.upd {} (pciePort (a / 128)) (fun y => { y with out := y.out ++ [(.ext 1, a / 128)] }) } : State).count 580 0x305)
       else .next (s.jobFail j))
    else if s.remoteKnown a then .next (State.remoteAccess { s with jobs := { j with asked := 1 } :: r } (.ext 1) 0 (a / 128) 0 0 2 0)
    else .next (s.jobFail j)

/- Register commands of the memory-side cache (R193). -/

/-- Every line of a die's cache is written back where dirty, and dropped. -/
def State.mscFlush (s : State) (m : Nat) : State :=
  (s.msc.filter (fun e => s.homeOf e.1 = m)).foldl (fun s1 e => s1.mscEvict e.1 true) s

def State.mscUnkeep (s : State) (m : Nat) : State :=
  { s with msc := s.msc.map (fun e => if s.homeOf e.1 = m then (e.1, { e.2 with keep := false }) else e) }

/-- MD_MSC_FLUSH. -/
def execMdMscFlush (iss : Iss) (m : Nat) (s : State) : Out :=
  if m ≥ 4 then .refused .illFormed else s.atBlock iss .mscCtrl m 0 (fun s => s.mscFlush m)

/-- MD_MSC_UNKEEP. -/
def execMdMscUnkeep (iss : Iss) (m : Nat) (s : State) : Out :=
  if m ≥ 4 then .refused .illFormed else s.atBlock iss .mscCtrl m 0 (fun s => s.mscUnkeep m)

end Sys2Proof.Machine
end

