-- ==== Sys2Proof/Machine/Queues.lean ====
section
/-! DEFINITION. Dispatch queues (R68 to R79): doorbells, packets and their checks, the start of teams, completion, and
the end of a disable's grace; and the dispatch commands of mailboxes (R337, R338). -/

namespace Sys2Proof.Machine

/-- A store to a doorbell (R69, R79): one of fewer than 8 B, and one to a page with no queue, is ignored. -/
def State.dqRing (s : State) (q size : Nat) (value : Word) : State :=
  match s.queue? q with
  | none => s
  | some x =>
    if size ≠ 8 then s
    else if s.fld .dqStatus q 0 0 1 = 0 then s.setFld .dqStatus q 0 1 1 1
    else if value.toNat ≤ (s.reg .dqDoorbell q 0).toNat then s
    else if value.toNat > (s.reg .dqRidx q 0).toNat + 2 ^ x.log2 then s.setFld .dqStatus q 0 1 1 1
    else (s.setReg .dqDoorbell q 0 value).setQueue q { x with rung := s.now }

/-- CD_DQ_DOORBELL. -/
def execCdDqDoorbell (iss : Iss) (q size : Nat) (value : Word) (s : State) : Out :=
  if q ≥ 1024 || !accessWf 0 size then .refused .illFormed else s.atBlock iss .dqDoorbell q 0 (fun s => s.dqRing q size value)

/- Packets (R72, R73). -/

def pkt (d : Line) (off n : Nat) : Nat := lineBytes d off n

/-- Teams of one launch on a core with every other launch absent (R55). -/
def teamLimit (groups w regs tiles : Nat) : Nat :=
  min (min (524288 / (groups * w * regs * 8)) (64 / groups)) (min (2048 / (groups * w)) (min (if tiles = 0 then 128 else 128 / tiles) 32))

/-- The launch that a packet describes. -/
def launchOfPacket (q n : Nat) (x : Queue) (d : Line) : Launch :=
  let h := pkt d 0 2
  { q := q, pkt := n, asid := x.asid, intcore := x.intcore, remote := x.qflags % 2 == 1, width := 8 * 2 ^ (pkt d 2 1 % 4), groups := pkt d 3 1, gregs := pkt d 4 1, fregs := pkt d 5 1,
    tiles := pkt d 6 1, diemask := pkt d 7 1, tx := pkt d 8 4, ty := pkt d 0xC 2, tz := pkt d 0xE 2,
    entry := pkt d 0x10 8, args := pkt d 0x18 8, compl := pkt d 0x20 8, stackBase := pkt d 0x28 8,
    stackBytes := pkt d 0x30 4, rel := (h >>> 8) % 8, int := (h >>> 11) % 2 == 1, barrier := h % 16 == 2,
    bar := (h >>> 4) % 2 == 1, t0 := x.rung }

/-- The checks of R73, which exempts no type: a BARRIER packet too is rejected for a field out of its range (log 41). -/
def packetOk (d : Line) : Bool :=
  let h := pkt d 0 2
  let common := h >>> 12 == 0 && (h >>> 5) % 8 ≤ 4 && (h >>> 8) % 8 ≤ 4 && pkt d 0x20 8 % 8 == 0 && pkt d 0x34 76 == 0
  (h % 16 == 1 || h % 16 == 2) && common && pkt d 2 1 < 4 && 1 ≤ pkt d 3 1 && pkt d 3 1 ≤ 16 && 1 ≤ pkt d 4 1 && pkt d 4 1 ≤ 8 && pkt d 5 1 ≤ 8 &&
    pkt d 6 1 ≤ 128 && pkt d 7 1 != 0 && pkt d 8 4 != 0 && pkt d 0xC 2 != 0 && pkt d 0xE 2 != 0 && pkt d 0x10 8 % 4 == 0 &&
    pkt d 0x28 8 % 128 == 0 && pkt d 0x30 4 % 128 == 0 &&
    teamLimit (pkt d 3 1) (8 * 2 ^ pkt d 2 1) (8 * pkt d 4 1 + 8 * pkt d 5 1) (pkt d 6 1) != 0

/-- A queue may take a packet: ACTIVE, an unread index, and none whose teams are being started. -/
def State.queueOpen (s : State) (q : Nat) (x : Queue) : Bool :=
  s.pwr.phase == .on && s.fld .dqStatus q 0 0 1 == 1 && x.cur.isNone && decide ((s.reg .dqRidx q 0).toNat < (s.reg .dqDoorbell q 0).toNat)

/-- EMPTY_SLOT_REREAD: the slot is read again and nothing advances; a packet found there is then consumed (R71). -/
def execEmptySlotReread (q : Nat) (s : State) : Out :=
  match s.queue? q with
  | none => .next s
  | some x =>
    if !s.queueOpen q x then .next s
    else match s.ncRead (s.packetLine q x) 1 with
      | .ok s1 _ _ => .next s1
      | _ => .next s

/-- PACKET_CONSUME: the packet at the read index is read and checked. A rejected packet and a BARRIER are consumed at
once; a KERNEL packet is consumed when its last team has started. A packet that reads as poison is rejected (DEDUCED,
log 41). -/
def execPacketConsume (q : Nat) (s0 : State) : Out :=
  let s := match s0.queue? q with
    | some x => (match x.cur with | some lid => s0.endPacket lid | none => s0)
    | none => s0
  match s.queue? q with
  | none => .next s
  | some x =>
    if !s.queueOpen q x then .next s
    else match s.ncRead (s.packetLine q x) 1 with
      | .wait => .next s
      | .bus => .next s
      | .ok s1 d p =>
        if !p && pkt d 0 2 % 16 == 0 then .next s1
        else
          let lid := s1.ctr.lid
          let l := launchOfPacket q (s.reg .dqRidx q 0).toNat x d
          let s2 := { s1 with ctr := { s1.ctr with lid := lid + 1 } }
          if p || !packetOk d then
            let l1 := { l with bad := true, ended := true, barrier := false, compl := if l.compl % 8 = 0 then l.compl else 0 }
            .next (((s2.setLaunch lid l1).consume q x lid).getD s)
          else if l.barrier then .next (((s2.setLaunch lid l).consume q x lid).getD s)
          else .next ((s2.setLaunch lid l).setQueue q { x with cur := some lid })

/- Teams (R55, R74, R75). -/

def Launch.total (l : Launch) : Nat := if l.barrier || l.bad then 0 else l.tx * l.ty * l.tz

def State.teamsOn (s : State) (c : Nat) : List (Nat × Team) := s.teams.filter (fun e => e.2.c = c)

/-- Register bytes of a team. -/
def Launch.regBytes (l : Launch) : Nat := l.groups * l.width * (8 * l.gregs + 8 * l.fregs) * 8

/-- Free group slots of a core; slots of resident teams are taken until the team is released. -/
def State.freeSlots (s : State) (c : Nat) : List Nat :=
  (upTo 64).filter (fun i => !(s.teamsOn c).any (fun e => e.2.slots.elem i))

/-- First tiles of the runs of n free tiles (R124). -/
def State.tileRuns (s : State) (c n : Nat) : List Nat :=
  (upTo (129 - n)).filter (fun b => (s.teamsOn c).all (fun e => e.2.tiles = 0 || b + n ≤ e.2.base || e.2.base + e.2.tiles ≤ b))

/-- Tiles of a core that no team owns. -/
def State.tileFree (s : State) (c i : Nat) : Bool := (s.teamsOn c).all (fun e => i < e.2.base || e.2.base + e.2.tiles ≤ i)

/-- How many runs of n tiles the free tiles of a store hold. -/
def packCount (n : Nat) (free : Nat → Bool) : Nat :=
  ((upTo 128).foldl (fun (acc : Nat × Nat) i =>
    if !free i then (acc.1, 0) else if acc.2 + 1 = n then (acc.1 + 1, 0) else (acc.1, acc.2 + 1)) (0, 0)).1

/-- First tiles that a team may get: those that leave room for as many teams of its size as any other would, so that a launch
reaches the limit of R55 (DEDUCED, log 84). -/
def State.tileStarts (s : State) (c n : Nat) : List Nat :=
  let runs := s.tileRuns c n
  if n = 0 then runs
  else
    let most := packCount n (s.tileFree c)
    runs.filter (fun b => packCount n (fun i => s.tileFree c i && !(b ≤ i && i < b + n)) + 1 == most)

/-- A core can hold one more team of a launch (R55, R79). -/
def State.fits (s : State) (c : Nat) (l : Launch) : Bool :=
  let ts := (s.teamsOn c).map (fun e => s.launchOf e.2.lid)
  !(s.coreS c).disabled && !s.inReset (.die (c / 64)) && !s.inReset (.ccore c) &&
  (ts.map Launch.regBytes).sum + l.regBytes ≤ 524288 && (ts.map (·.groups)).sum + l.groups ≤ 64 &&
  (ts.map (fun t => t.groups * t.width)).sum + l.groups * l.width ≤ 2048 && ts.length < 32 &&
  !(s.tileRuns c l.tiles).isEmpty && (s.freeSlots c).length ≥ l.groups

/-- Earlier packets of a queue that are not complete. -/
def State.earlier (s : State) (q n : Nat) : Bool := s.launches.any (fun e => e.2.q = q && e.2.pkt < n)

/-- Queues with a team that the dispatch unit of a die can start on some core of it. -/
def State.startable (s : State) (d : Nat) : List (Nat × Queue) :=
  s.queues.filter (fun e => match e.2.cur with
    | none => false
    | some lid =>
      let l := s.launchOf lid
      !l.ended && l.started < l.total && (l.diemask >>> d) % 2 == 1 && !(l.bar && s.earlier l.q l.pkt) &&
      (upTo 64).any (fun i => s.fits (64 * d + i) l))

/-- The queue that is served first: highest priority, then the one served least recently (R75). -/
def bestQueue : List (Nat × Queue) → Option (Nat × Queue)
  | [] => none
  | e :: r => match bestQueue r with
    | none => some e
    | some f => if e.2.prio > f.2.prio ∨ (e.2.prio = f.2.prio ∧ e.2.rr ≤ f.2.rr) then some e else some f

/-- The state of a thread at its start (R19, R74). -/
def startThr (l : Launch) (x y z gi i stamp : Nat) : Thr :=
  let n := l.groups * l.width
  let g6 := gi * l.width + i
  let t := ((z * l.ty + y) * l.tx + x) * n + g6
  let w (v : Nat) : Word := BitVec.ofNat 64 v
  { g := [(1, exitAddr), (2, w l.args), (3, w x), (4, w y), (5, w z), (6, w g6), (7, w (l.stackBase + (t + 1) * l.stackBytes))],
    pc := w l.entry, fill := some (stamp + gi), lane := i }

/-- One team starts on a core: its slots, tiles and groups (R52, R55, R74, R124, R125). Which free slots and which run
of tiles it gets is open. -/
def State.startTeam (s0 : State) (c lid : Nat) : State :=
  let l := s0.launchOf lid
  let (k, s) := s0.stamp
  let n := l.started
  let x := n % l.tx
  let y := n / l.tx % l.ty
  let z := n / (l.tx * l.ty)
  let free := s.freeSlots c
  let slots := (permute free.length (Config.freeWord k).toNat free).take l.groups
  let runs := s.tileStarts c l.tiles
  let base := at' runs 0 ((Config.freeWord (k + 2 ^ 32)).toNat % max 1 runs.length)
  let tid := s.ctr.tid
  let (f, s1) := ({ s with ctr := { s.ctr with tid := tid + 1, free := s.ctr.free + l.groups } } : State).stamp
  let s2 := { s1 with teams := s1.teams.set tid { lid := lid, c := c, base := base, tiles := l.tiles, x := x, y := y, z := z, slots := slots, live := slots } }
  let s3 := (upTo l.tiles).foldl (fun s3 i => s3.setSlot c (base + i) { fill := some f }) s2
  let s4 := slots.zipIdx.foldl (fun s4 e =>
    s4.setGrp c e.1 { team := tid, lid := lid, gi := e.2, width := l.width, gn := 8 * l.gregs, fn := 8 * l.fregs,
                      lanes := (upTo l.width).map (fun i => { thr := startThr l x y z e.2 i (k + 1) }) }) s3
  let s5 := s4.setLaunch lid { l with started := n + 1, live := l.live + 1 }
  if n = 0 then s5.monRecord 15 (s5.now - l.t0) else s5

/-- TEAM_START: the die's dispatch unit starts a team of the queue that it serves first, on this core where the core can hold
it (R75). -/
def execTeamStart (c : Nat) (s : State) : Out :=
  if c ≥ 512 then .refused .illFormed
  else if s.pwr.phase ≠ .on then .next s
  else match bestQueue (s.startable (c / 64)) with
    | none => .next s
    | some (q, x) => match x.cur with
      | none => .next s
      | some lid =>
        if !s.fits c (s.launchOf lid) then .next s
        else
        let s1 := s.startTeam c lid
        let (age, s2) := s1.newAge
        let s3 := s2.setQueue q { x with rr := age + 1 }
        let l := s3.launchOf lid
        if l.started = l.total then .next ((s3.consume q { x with rr := age + 1 } lid).getD s) else .next s3

/- Completion (R76, R78). -/

/-- Status of a launch (R76). -/
def Launch.status (l : Launch) : Nat :=
  if l.bad then 0x0203 else if l.faulted then 0x0201 else if l.tier then 0x0204 else if l.cancelled then 0x0202 else 0

/-- The packet is over but for its release, its completion word and its interrupt. -/
def State.launchOver (s : State) (lid : Nat) (l : Launch) : Bool :=
  l.consumed && l.live == 0 && (l.started == l.total || l.ended) && !(l.barrier && s.earlier l.q l.pkt) &&
  s.sb.all (fun e => e.2.launch != some lid) && s.teams.all (fun e => e.2.lid != lid)

/-- The compute die that performs a completion: the lowest that is not in reset (R78). -/
def State.complDie (s : State) : Option Nat := (upTo 8).find? (fun d => !s.inReset (.die d))

/-- The packet is complete: its interrupt, and it is gone (R340). -/
def State.packetDone (s : State) (lid : Nat) (l : Launch) : State :=
  let s1 := { s with launches := s.launches.del lid }
  if l.int then (s1.setFld .dqint l.intcore 0 0 1 1).wakeIdle else s1

/-- The completion word is written, or its translation stalls, or it is left unwritten (R76, R78). -/
def State.writeWord (s : State) (lid : Nat) (l : Launch) (d : Nat) : State :=
  let asid := s.asidOf lid
  let v := l.status + 2 ^ 16 * (l.pkt % 2 ^ 48)
  let rcd (code detail lv t : Nat) : List Byte := fqRecord l.compl 0 code detail (64 * d) asid 0 lv t l.q l.pkt 0
  match s.translate (.cd (64 * d) asid) .store l.compl with
  | .wait => s
  | .bus s1 lv => (s1.fqTerminal d (rcd 8 (16 + 128) lv 0)).packetDone lid l
  | .poison s1 lv => (s1.fqTerminal d (rcd 7 (16 + 128) lv 0)).packetDone lid l
  | .fault s1 np perm _ lv t =>
    (s1.setLaunch lid { l with wordStalled := true }).fqStall d (.word d l.q l.pkt) l.compl false
      (rcd 6 (np.toNat + 2 * perm.toNat + 16) lv t)
  | .ok s1 pa dev _ _ _ =>
    match s1.memKind pa dev with
    | .unmapped => (s1.fqTerminal d (rcd 8 (16 + 128) 0 0)).packetDone lid l
    | .cached | .nc =>
      (match s1.ncPut pa (leBytes 8 v) 1 with
       | .wait => s
       | .bus => (s1.fqTerminal d (rcd 8 (16 + 128) 0 0)).packetDone lid l
       | .ok s2 _ _ => s2.packetDone lid l)
    | m =>
      let e : SbE := { u := .grp (64 * d) 0, mem := m, line := pa / 128, mask := maskAt (pa % 128) 8,
                       data := lineAt (pa % 128) 8 v, va := l.compl, pa := pa, dev := true, launch := some lid, word := true }
      (s1.setLaunch lid { l with wordSkip := true }).sbAdd e

/-- PACKET_COMPLETION (R76, R78): the release waits for the launch's stores; a word written to a device completes the
packet when its answer has come. While every compute die is in reset nothing completes. -/
def execPacketCompletion (q pkt : Nat) (s0 : State) : Out :=
  match List.find? (fun (e : Nat × Launch) => e.2.q = q && e.2.pkt = pkt) s0.launches with
  | none => .next s0
  | some (lid, _) =>
    let s := s0.endPacket lid
    let l := s.launchOf lid
    if !s.launchOver lid l || l.wordStalled then .next s
    else match s.complDie with
      | none => .next s
      | some d => if l.compl = 0 || l.wordSkip then .next (s.packetDone lid l) else .next (s.writeWord lid l d)

/- Disable (R79, R141). -/

/-- Packets that a disable has still to cancel: consumed and not complete. -/
def State.openOf (s : State) (q : Nat) : List (Nat × Launch) := s.launches.filter (fun e => e.2.q = q)

/-- Remaining launches of a list stop with ST_CANCELLED; the completion word of one that waits in the fault queue stays
unwritten (R78, R79). -/
def State.cancelLaunches (s : State) (l : List (Nat × Launch)) : State :=
  l.foldl (fun s1 e =>
    let s2 := s1.fqForget (fun r => match r with | .word _ q p => q == e.2.q && p == e.2.pkt | _ => false)
    let lnch := s2.launchOf e.1
    let s3 := if lnch.wordStalled then s2.setLaunch e.1 { lnch with wordStalled := false, wordSkip := true } else s2
    if lnch.bad || s3.launchOver e.1 lnch then s3 else s3.endLaunch e.1 true) s

/-- QUEUE_DISABLE_CANCEL: the grace of a disabled queue is over, or nothing is left (R79). -/
def execQueueDisableCancel (q : Nat) (s : State) : Out :=
  match s.queue? q with
  | none => .next s
  | some x =>
    match x.drainEnd with
    | none => .next s
    | some e =>
      let left := s.openOf q
      if s.now < e ∧ left.any (fun l => l.2.live ≠ 0 || l.2.started = l.2.total) then .next s
      else
        let n := x.cancelled + (left.filter (fun l => !l.2.bad && !s.launchOver l.1 l.2)).length
        let s1 := s.cancelLaunches left
        let s2 := (s1.setQueue q { x with drainEnd := none, drainMb := none, cancelled := 0 }).setFld .dqStatus q 0 2 1 0
        .next (s2.mbResult? x.drainMb stOk (leBytes 8 x.stopRidx ++ leBytes 4 n))

/-- CORE_DISABLE_CANCEL: the grace of a disabled core is over, or it is empty; the launches of its teams stop everywhere
(R79). -/
def execCoreDisableCancel (c : Nat) (s : State) : Out :=
  if c ≥ 512 then .refused .illFormed
  else
    let k := s.coreS c
    match k.drainEnd with
    | none => .next s
    | some e =>
      let lids := ((s.teamsOn c).map (fun t => t.2.lid)).eraseDups
      if s.now < e ∧ !lids.isEmpty then .next s
      else
        let s1 := s.cancelLaunches (lids.map (fun lid => (lid, s.launchOf lid)))
        let s2 := s1.setCoreS c { s1.coreS c with drainEnd := none, drainMb := none }
        .next (s2.mbResult? k.drainMb stOk)

/- The dispatch commands (R337, R338). -/

/-- Free queue numbers, ascending. -/
def State.freeQueue (s : State) : Option Nat := (upTo 1024).find? (fun q => !s.queues.has q)

/-- DQ_CREATE (R337). -/
def execDqCreate (mb : Nat) (s : State) : Out :=
  command mb 0x201 s (fun s m =>
    let qn := m.arg 4 2
    let lg := m.arg 0x18 1
    let ring := m.arg 8 8
    let ra := m.arg 0x10 8
    let size := 128 * 2 ^ lg
    let ok := m.clean [(4, 2), (6, 1), (7, 1), (8, 8), (0x10, 8), (0x18, 1), (0x1A, 2), (0x1C, 1), (0x20, 4)] &&
      (qn < 1024 || qn == 0xFFFF) && m.arg 6 1 ≤ 7 && m.arg 7 1 ≤ 1 && 6 ≤ lg && lg ≤ 16 && ring % 128 == 0 && localRange ring size &&
      ra % 8 == 0 && localRange ra 8 && !(ring ≤ ra && ra < ring + size) && m.arg 0x1C 1 ≤ 63 && m.arg 0x20 4 ≤ 1000000
    if !s.memOk then .done s stMemNotReady []
    else if !ok then .done s 0x0209 []
    else if s.queues.has qn then .done s 0x0207 []
    else match s.freeQueue with
      | none => .done s 0x0206 []
      | some f =>
        let q := if qn = 0xFFFF then f else qn
        match s.ncPut ra (leBytes 8 0) 1 with
        | .ok s1 _ _ =>
          let s2 := ((s1.setReg .dqDoorbell q 0 0).setReg .dqRidx q 0 0).setReg .dqStatus q 0 1
          let x : Queue := { ring := ring, ridxAddr := ra, log2 := lg, asid := m.arg 0x1A 2, prio := m.arg 6 1,
                             intcore := m.arg 0x1C 1, grace := m.arg 0x20 4, qflags := m.arg 7 1 }
          .done (s2.setQueue q x) stOk (leBytes 8 q ++ leBytes 8 (0xF00040000000 + q * 0x4000))
        | _ => .wait)

/-- The queue that a command names: MB1 reaches only queues of its address space (R328, R338). -/
def namedQueue (s : State) (mb : Nat) (m : Mbx) : Nat ⊕ Queue :=
  match s.queue? (m.arg 4 2) with
  | none => .inl (if mb = 1 then stUnauthorised else 0x0205)
  | some x => if mb = 1 ∧ m.deleg ≠ some x.asid then .inl stUnauthorised else .inr x

/-- The stop of a queue: a packet with a team started counts as consumed, and its other teams never start (DESIGN CHOICE, log
83: R79 does not say which); one with none stays in the ring (R79). None: a line is in use. -/
def State.stopQueue (s : State) (q : Nat) (x : Queue) : Option (State × Queue) :=
  let s1 := (s.setFld .dqStatus q 0 0 1 0).setFld .dqStatus q 0 2 1 1
  match x.cur with
  | none => some (s1, x)
  | some lid =>
    if (s.launchOf lid).started = 0 then some ({ s1 with launches := s1.launches.del lid }, { x with cur := none })
    else (s1.consume q x lid).map (fun s2 => (s2, { x with cur := none }))

/-- DQ_DISABLE (R79, R338): the response comes when the queue has drained. -/
def execDqDisable (mb : Nat) (s : State) : Out :=
  command mb 0x202 s (fun s m =>
    match namedQueue s mb m with
    | .inl st => .done s st []
    | .inr x =>
      let q := m.arg 4 2
      let g := if m.arg 8 4 = 0xFFFFFFFF then x.grace else m.arg 8 4
      if !m.clean [(4, 2), (8, 4)] || g > 1000000 then .done s 0x0209 []
      else if s.fld .dqStatus q 0 0 1 = 0 then .done s 0x0208 []
      else match s.stopQueue q x with
        | none => .wait
        | some (s1, x1) =>
          .later (s1.setQueue q { x1 with drainEnd := some (s.now + g * 1000), drainMb := some mb, stopRidx := (s1.reg .dqRidx q 0).toNat }))

/-- DQ_ENABLE (R338). -/
def execDqEnable (mb : Nat) (s : State) : Out :=
  command mb 0x203 s (fun s m =>
    match namedQueue s mb m with
    | .inl st => .done s st []
    | .inr _ =>
      let q := m.arg 4 2
      if !m.clean [(4, 2)] then .done s 0x0209 []
      else if s.fld .dqStatus q 0 0 1 = 1 ∨ s.fld .dqStatus q 0 2 1 = 1 then .done s 0x0208 []
      else .done ((s.setReg .dqDoorbell q 0 (s.reg .dqRidx q 0)).setFld .dqStatus q 0 0 1 1) stOk [])

/-- DQ_DESTROY (R338): the page then reads zero. -/
def execDqDestroy (mb : Nat) (s : State) : Out :=
  command mb 0x204 s (fun s m =>
    match namedQueue s mb m with
    | .inl st => .done s st []
    | .inr _ =>
      let q := m.arg 4 2
      if !m.clean [(4, 2)] then .done s 0x0209 []
      else if s.fld .dqStatus q 0 0 1 = 1 ∨ s.fld .dqStatus q 0 2 1 = 1 then .done s 0x0208 []
      else .done { s with queues := s.queues.del q } stOk [])

/-- DQ_QUERY (R338). -/
def execDqQuery (mb : Nat) (s : State) : Out :=
  command mb 0x205 s (fun s m =>
    match namedQueue s mb m with
    | .inl st => .done s st []
    | .inr x =>
      let q := m.arg 4 2
      if !m.clean [(4, 2)] then .done s 0x0209 []
      else
        let n := ((s.openOf q).filter (fun e => e.2.started ≠ 0)).length
        .done s stOk (leBytes 8 (s.reg .dqDoorbell q 0).toNat ++ leBytes 8 (s.reg .dqRidx q 0).toNat ++
          leBytes 8 (s.reg .dqStatus q 0).toNat ++ leBytes 4 n ++ leBytes 1 x.prio ++ leBytes 1 x.qflags ++ leBytes 2 x.asid))

/-- The checks of DQ_CORE_CTRL, and the grace. -/
def coreCtrl (s : State) (m : Mbx) : Option Nat :=
  let c := m.arg 4 2
  let g := if m.arg 8 4 = 0xFFFFFFFF then s.fld .tsCfg c 0 0 20 else m.arg 8 4
  if m.clean [(4, 2), (6, 1), (8, 4)] && c < 512 && m.arg 6 1 ≤ 1 && g ≤ 1000000 then some g else none

/-- DQ_CORE_CTRL, disable, and every encoding of it that is refused (R338). -/
def execDqCoreDisable (mb : Nat) (s : State) : Out :=
  command mb 0x206 s (fun s m =>
    let c := m.arg 4 2
    match coreCtrl s m with
    | none => .done s 0x0209 []
    | some g =>
      let k := s.coreS c
      if k.disabled then .done s 0x0208 []
      else .later (s.setCoreS c { k with disabled := true, drainEnd := some (s.now + g * 1000), drainMb := some mb }))
    (own := fun m => m.arg 6 1 ≠ 1)

/-- DQ_CORE_CTRL, enable; it follows a disable of the same core that has not responded (R330, R338). -/
def execDqCoreEnable (mb : Nat) (s : State) : Out :=
  command mb 0x206 s (fun s m =>
    let c := m.arg 4 2
    match coreCtrl s m with
    | none => .done s 0x0209 []
    | some _ =>
      let k := s.coreS c
      if k.drainEnd.isSome then .wait
      else if !k.disabled then .done s 0x0208 []
      else .done (s.setCoreS c { k with disabled := false }) stOk [])
    (own := fun m => m.arg 6 1 = 1)

end Sys2Proof.Machine
end

