-- ==== Sys2Proof/Machine/Resets.lean ====
section
/-! DEFINITION. Resets as shared operations (R366): what each domain's reset does to the state, the write-back before a
compute-die reset (R212), agents that the homes mark lost (R214), and the ends of die-to-die links (R258, R265). -/

namespace Sys2Proof.Machine

/- Ends of die-to-die links, numbered die * 32 + port (R258, R336). -/

/-- The other end of a link; none for a port that no link has. -/
def linkPartner (e : Nat) : Option Nat :=
  let d := e / 32
  let p := e % 32
  if d < 8 then (if p < 4 then some (288 + 32 * p + d) else none)
  else if d = 8 then (if p < 4 then some (288 + 32 * p + 8) else if p = 4 then some (416 + 4) else none)
  else if d < 13 then
    let m := d - 9
    if p < 8 then some (32 * p + m) else if p = 8 then some (256 + m) else if p = 9 then some (416 + m) else none
  else if d = 13 then
    if p < 4 then some (288 + 32 * p + 9) else if p = 4 then some 260 else if p < 17 then some (448 + 32 * (p - 5)) else none
  else if d < 26 ∧ p = 0 then some (421 + (d - 14)) else none

/-- The other end of a link that carries flits: one of R258, or that of the auxiliary site (R271). -/
def flitPartner (e : Nat) : Option Nat := if e = 433 then some 832 else if e = 832 then some 433 else linkPartner e

/-- The HD end and the far end of the UCIe link of the auxiliary site, which has no registers of R268. -/
def auxEnd : Nat := 433
def auxFar : Nat := 832

/-- Both ends of a link train, from attempt 0: they carry nothing, and offer MAXW as it stands (R266, R268). The adapter of
the UCIe link trains by itself (R271). -/
def State.linkTrain (s : State) (e : Nat) : State :=
  let one (s1 : State) (i : Nat) : State :=
    let l := { s1.link i with attempts := 0, fallbackTry := false, maxw := s1.fld .lnkCtrl i 0 0 3, again := (s1.link i).sent }
    if i = auxEnd ∨ i = auxFar then s1.setLink i l
    else (s1.setReg .lnkStatus i 0 (setBits (setBits (s1.reg .lnkStatus i 0) 0 6 1) 22 6 0)).setLink i l
  match flitPartner e with
  | some f => one (one s e) f
  | none => s

/-- A link end loses its state with its die: EPOCH 0, nothing to replay (R265, R268). -/
def State.linkLost (s : State) (e : Nat) : State :=
  let w := s.reg .lnkStatus e 0
  (s.setReg .lnkStatus e 0 (setBits (setBits (setBits w 0 6 0) 8 8 0) 22 6 0)).setLink e { trained := (s.link e).trained }

/- Registers. -/

def State.resetRegs (s : State) (p : Blk × Nat → RegKind → Bool) : State :=
  { s with regs := s.regs.filter (fun e => match blkOf e.1, regAt e.1 with | some b, some (k, _) => !p b k | _, _ => true) }

/- Agents (R214). -/

/-- A line leaves the agent it was owned by with unknown contents: the memory side takes a poisoned line (R213, R214). -/
def State.poisonLine (s : State) (l : Nat) : State := s.mscWrite l 1 (Config.lostLine l s.ctr.age) true

/-- The lines homed at m, or at every home, that an agent owns and no transaction uses. -/
def State.ownedBy (s : State) (a : Nat) : List (Nat × DirE) :=
  s.dir.filter (fun e => e.2.st != HSt.HS && e.2.owner == a && !s.txns.has e.1)

/-- A line of a lost owner is poisoned; its sharers stay (R214). -/
def State.poisonOwned (s : State) (l : Nat) : State :=
  match s.dir.find? l with
  | none => s
  | some e => (s.poisonLine l).setSharers l (if e.st = .HO then e.sharers else [])

/-- An agent leaves every sharer vector, and is awaited no longer as a sharer. -/
def State.unshare (s : State) (a : Nat) : State :=
  let s1 := (s.dir.filter (fun (e : Nat × DirE) => e.2.sharers.elem a)).foldl (fun s1 (e : Nat × DirE) =>
    let sh := e.2.sharers.filter (· ≠ a)
    if e.2.st = HSt.HS then s1.setSharers e.1 sh else s1.setDir e.1 e.2.st e.2.owner sh) s
  { s1 with txns := s1.txns.map (fun (e : Nat × Txn) =>
      (e.1, if e.2.await.elem a then e.2 else { e.2 with h := e.2.h.filter (· ≠ a) })) }

/-- Every home marks an agent lost (R214). -/
def State.markLost (s : State) (a : Nat) : State :=
  if s.isLost 0 a then s
  else
    let mark (s1 : State) (m : Nat) : State :=
      (if a < 64 then s1.setFld .cohLost0 m 0 a 1 1 else s1.setFld .cohLost1 m 0 (a - 64) 1 1).setFld .cohStatus m 0 1 1 1
    ((upTo 4).foldl mark s).unshare a

/-- An agent leaves the lost state with every line in I; what it still owned is poisoned first (R214). -/
def State.rejoin (s : State) (a : Nat) : State :=
  let clear (s1 : State) (m : Nat) : State :=
    if a < 64 then s1.setFld .cohLost0 m 0 a 1 0 else s1.setFld .cohLost1 m 0 (a - 64) 1 0
  let s1 := if s.isLost 0 a then (s.ownedBy a).foldl (fun s1 e => s1.poisonOwned e.1) s else s
  let s2 := (upTo 4).foldl clear (s1.unshare a)
  { s2 with caches := s2.caches.del a, ncOut := s2.ncOut.filter (fun e => e.1 ≠ a), held := s2.held.filter (fun r => r.a ≠ a) }

/-- No open transaction waits for an agent. -/
def State.unawaited (s : State) (a : Nat) : Bool :=
  s.txns.all (fun t => !t.2.await.elem a && !(t.2.phase == Phase.ack && t.2.req.a == a))

/- Write-back of a cache (R212, R215, R362). -/

/-- A sector whose line is free at its home leaves at once: dirty data is written back, a clean one sends its notice. -/
def State.evictNow (s : State) (a l : Nat) : State :=
  let c := s.cline a l
  let k : RqKind := if c.st = .M ∨ c.st = .O then .wbd else .evc
  let s1 := (s.setCline a l { c with st := .I }).clearResv a l none
  (s1.finish { req := { kind := k, a := a, line := l, data := c.data, poison := c.poison }, phase := .snp } (0, false)).1

/-- A sector leaves: at once, or by a message while an eviction-buffer entry is free. One that finds no entry, or that waits
for its own upgrade, is marked and leaves later (R215). -/
def State.flushLine (s : State) (a l : Nat) : State :=
  let c := s.cline a l
  match c.st with
  | .M | .O | .E | .S =>
    if !s.lineBusy l then s.evictNow a l
    else if 64 ≤ a || s.bufUsed a < 32 then s.replaceLine a l else s.setCline a l { c with flush := true }
  | .SMA | .OMA => s.setCline a l { c with flush := true }
  | _ => s

/-- Sectors that a flush has marked leave as soon as they can (R215). -/
def State.flushDue (s : State) (a : Nat) : State :=
  ((s.cacheOf a).lines.filter (fun e => e.2.flush)).foldl (fun s1 e => s1.flushLine a e.1) s

def State.flushAgent (s : State) (a : Nat) : State := ((s.cacheOf a).lines.map (·.1)).foldl (fun s1 l => s1.flushLine a l) s

/- Cores. -/

/-- Stores of reset issuers stay buffered, with nobody to report to (R238). -/
def State.orphan (s : State) (p : Agent → Bool) : State :=
  { s with sb := s.sb.map (fun (e : Nat × SbE) => if p e.2.u then (e.1, { e.2 with orphan := true }) else e) }

/-- Reset of a processor core: its thread is as after cold reset, its stores drain (R19, R238, R366). sys.ptroot and sys.asid
reset at cold reset only (R242). -/
def State.resetPcore (s : State) (n : Nat) : State :=
  let s1 : State := match (s.core n).op with | some t => { s with ops := s.ops.del t } | none => s
  let s2 := { s1 with tlbs := s1.tlbs.filter (fun (e : Nat × Tlb) => e.1 / 4 ≠ n || e.1 ≥ 1000),
                      tlbi := s1.tlbi.filter (fun (e : Nat × TlbiS) => e.2.n ≠ n) }
  (s2.setCore n { ptroot := (s.core n).ptroot, asid := (s.core n).asid }).orphan (fun u => u == .core n)

def grpOn (p : Nat → Bool) : Agent → Bool | .grp c _ => p c | .core _ => false

/-- The threads and the streamer of a compute-die core are lost, and the launches with a team on it end (R78, R366). -/
def State.resetCcore (s : State) (c : Nat) : State :=
  let s0 : State := { s with
    trd := s.trd.filter (fun (e : Nat × TileRd) => e.2.c ≠ c),
    twr := s.twr.filter (fun (e : Nat × TileWr) => e.2.c ≠ c),
    engs := s.engs.map (fun (e : Nat × Engine) => if e.1 / 4 = c then (e.1, { e.2 with busy := [] }) else e),
    ops := s.ops.filter (fun (e : Nat × PendOp) => match e.2.u with | .grp k _ => k ≠ c | .core _ => true),
    grps := s.grps.map (fun (e : Nat × Group) => if e.1 / 64 = c then (e.1, { e.2 with op := none, barrier := none }) else e) }
  let lids := ((s0.teamsOn c).map (fun t => t.2.lid)).eraseDups
  let s1 := lids.foldl (fun s1 lid => s1.endLaunch lid false) s0
  let s2 := (upTo 8).foldl (fun s2 ch => s2.chSettle c ch) s1
  let k := s2.coreS c
  let s3 := (s2.setCoreS c { disabled := k.disabled, drainEnd := k.drainEnd, drainMb := k.drainMb, rdDone := k.rdDone, rdSum := k.rdSum }).dropLooks
    (fun l => l.c == c)
  let s4 := (upTo 8).foldl (fun s4 ch => (s4.setFld .tsChStatus c ch 0 2 0).unbindAll c ch) s3
  ({ s4 with tlbs := s4.tlbs.del (tlbCore c) } : State).orphan (grpOn (· = c))

/- A compute die (R78, R212, R255, R366). -/

/-- Sectors not written back in time are lost with their agents; then the die and its link ports are reset. -/
def State.dieDown (s : State) (d : Nat) : State :=
  let s1 := (upTo 8).foldl (fun s1 k => let a := 8 * d + k; if (s1.cacheOf a).lines.isEmpty then s1 else s1.markLost a) s
  let words := (s1.fq d).stalled.filterMap (fun x => match x.r with | .word _ q p => some (q, p) | _ => none)
  let s2 : State := { s1 with
    caches := s1.caches.filter (fun (e : Nat × Cache) => e.1 / 8 ≠ d),
    ncOut := s1.ncOut.filter (fun e => e.1 / 8 ≠ d),
    held := s1.held.filter (fun r => r.a / 8 ≠ d),
    engs := s1.engs.filter (fun (e : Nat × Engine) => e.1 / 256 ≠ d),
    cores := s1.cores.map (fun (e : Nat × CoreS) => if e.1 / 64 = d then (e.1, { e.2 with rdDone := 0, rdSum := 0 }) else e),
    fqs := s1.fqs.del d,
    wq := s1.wq.filter (fun j => !(j.kind == .fqWidx && j.idx == d)),
    tlbs := s1.tlbs.filter (fun (e : Nat × Tlb) => ¬(e.1 = tlbDie d ∨ (3000 ≤ e.1 ∧ (e.1 - 3000) / 8 = d))),
    launches := s1.launches.map (fun (e : Nat × Launch) =>
      if words.any (fun w => w.1 = e.2.q ∧ w.2 = e.2.pkt) then (e.1, { e.2 with wordStalled := false, wordSkip := true }) else e),
    rsts := s1.rsts.map (fun r => if r.dom = .die d then { r with writing := false } else r) }
  (upTo 4).foldl (fun s3 p => s3.linkLost (32 * d + p))
    (s2.resetRegs (fun b k => b.1 == .CD && b.2 == d && (regDom k == .die || regDom k == .own)))

/-- The die's caches write back once its stores have drained; when all is acknowledged, the reset proceeds (R212). What a
lost agent holds is not written back. -/
def State.pumpDie (s : State) (d : Nat) : State :=
  if !s.rsts.any (fun r => r.dom == .die d && r.writing) then s
  else if s.sb.any (fun e => grpOn (fun c => c / 64 = d) e.2.u) then s
  else
    let begun (r : RstS) : RstS := if r.dom = .die d ∧ !r.drained then { r with drained := true, since := s.now } else r
    let s0 : State := { s with rsts := s.rsts.map begun,
                               caches := s.caches.filter (fun (e : Nat × Cache) => ¬(e.1 / 8 = d ∧ s.isLost 0 e.1)) }
    let s1 := (upTo 8).foldl (fun s1 k => s1.flushAgent (8 * d + k)) s0
    if (upTo 8).all (fun k => (s1.cacheOf (8 * d + k)).lines.isEmpty) then s1.dieDown d else s1

def State.pumpDies (s : State) : State := (s.rsts.filter (·.writing)).foldl (fun s1 r => match r.dom with | .die d => s1.pumpDie d | _ => s1) s

/-- Whether a line lies in the register block of a compute die. -/
def dieRegLine (d l : Nat) : Bool := (l * 128 - 0xF00000000000) / 0x4000000 == d && isMmio (l * 128)

/-- Compute-die reset begins: its teams are lost, and stores to its own registers end with a bus error (R78, R238). -/
def State.startDie (s : State) (d : Nat) (mb : Option Nat) : State :=
  let r : RstS := { dom := .die d, since := s.now, mb := mb, writing := true }
  if s.inReset (.die d) then { s with rsts := s.rsts ++ [{ r with writing := false }] }
  else
    let s1 := (upTo 64).foldl (fun s1 i => s1.resetCcore (64 * d + i)) s
    let s2 := (s1.sb.filter (fun e => e.2.mem == CmpMem.mmio && dieRegLine d e.2.line)).foldl (fun s2 e => s2.sbFail e.1) s1
    ({ s2 with rsts := s2.rsts ++ [r] } : State).pumpDie d

/- The auxiliary site (R274, R275). -/

/-- Agent 65 leaves every directory: a live die's copies are recalled, otherwise what it owned is poisoned. -/
def State.dropAux (s : State) (alive : Bool) : State :=
  let s1 := (s.ownedBy 65).foldl (fun s1 (e : Nat × DirE) =>
    if alive then
      let (s2, ans) := s1.snoop .x 65 e.1
      let s3 := match ans with | some (_, some (x : Line × Bool)) => s2.mscWrite e.1 1 x.1 x.2 | _ => s2
      s3.setSharers e.1 (if e.2.st = HSt.HO then e.2.sharers else [])
    else s1.poisonOwned e.1) s
  let s2 := s1.unshare 65
  { s2 with caches := s2.caches.del 65 }

/-- Site reset: grants go with grace 0, the die and the UCIe link are down until brought up again. Cause 0 a lost agent,
1 the link, 2 a command. -/
def State.resetAux (s : State) (cause : Nat) : State :=
  let mbs := ((s.aux.inw ++ s.aux.outw).filterMap (fun (w : Nat × FwWin) => w.2.revoking) ++ s.aux.cmdRevoking.toList).filterMap (·.2)
  let s1 := mbs.foldl (fun s1 mb => s1.mbResult mb stOk) s
  let s2 := ((s1.dropAux (cause = 2)).setLink auxEnd {}).setLink auxFar {}
  ({ s2 with aux := { s2.aux with inw := [], outw := [], mask := 0, evFirst := none, cmdRevoking := none, inReset := true, cause := cause, replies := [] } }
    : State).setFld .fwStatus 0 0 1 2 0

/- Package warm reset (R187, R238, R362, R366). -/

/-- PD and the compute dies lose their state; commands that waited for a drain there are over. -/
def State.coresDown (s : State) : State :=
  let s1 := s.queues.foldl (fun s1 (e : Nat × Queue) =>
    s1.mbResult? e.2.drainMb stOk (leBytes 8 e.2.stopRidx ++ leBytes 4 e.2.cancelled)) s
  let s2 := s1.cores.foldl (fun s2 (e : Nat × CoreS) => s2.mbResult? e.2.drainMb stOk) s1
  let s3 : State := { s2 with
    pd := s2.pd.map (fun (e : Nat × PCore) => (e.1, { ptroot := e.2.ptroot, asid := e.2.asid })),
    ncOut := [], held := [], grps := [], teams := [], cores := [], trd := [], twr := [], engs := [], ops := [], queues := [], launches := [],
    tlbs := [], tlbi := [], fqs := [], caches := [], dir := [], txns := [], hq := [], net := [],
    sb := (s2.sb.filter (fun (e : Nat × SbE) => e.2.mem == CmpMem.pcie || e.2.mem == CmpMem.remote)).map
      (fun (e : Nat × SbE) => (e.1, { e.2 with orphan := true, launch := none })) }
  let s4 := s3.resetRegs (fun b k => (b.1 == .CD || b.1 == .PD || b.1 == .DQ) && regDom k != .cold)
  (upTo 5).foldl (fun s5 p => s5.linkLost (256 + p)) ((upTo 32).foldl (fun s5 i => s5.linkLost (32 * (i / 4) + i % 4)) s4)

/-- The memory-side dies write back their caches and lose the rest; spares in use and the arrays stay (R187, R193). -/
def State.memDown (s : State) : State :=
  let s1 := (upTo 4).foldl (fun s1 m => s1.mscFlush m) s
  let reps := (upTo 8).map (fun i => s1.fld .hbmStatus i 0 16 8)
  let s2 : State := { s1 with msc := [], seq := {}, ueSent := [], jobs := s1.jobs.filter (fun j => j.kind = 0),
                              ws := { s1.ws with snap := none } }
  let s3 := ((s2.setFld .wsStatus 0 0 20 1 0).resetRegs (fun b k => b.1 == .MD && regDom k != .cold))
  let s4 := (upTo 8).foldl (fun s4 i => s4.setFld .hbmStatus i 0 16 8 (at' reps 0 i)) s3
  (upTo 40).foldl (fun s5 i => s5.linkLost (288 + 32 * (i / 10) + i % 10)) s4

/-- Package warm reset begins: the boot sequence goes on at step 4. The memory side writes back first; what only coherent
caches held dirty is lost. The auxiliary site's agent leaves the directories with them. -/
def State.startWarm (s : State) (mb : Option Nat) : State :=
  let r : RstS := { dom := .warm, since := s.now, mb := mb }
  if s.inReset .warm then { s with rsts := s.rsts ++ [r] }
  else
    let s0 := s.mbResult? s.pwr.parkMb 0x0502
    let s1 := ({ s0 with pwr := { s0.pwr with park := none, parkMb := none } } : State).coresDown.memDown
    { s1 with rsts := s1.rsts.map (fun x => { x with writing := false }) ++ [r], pwr := { s1.pwr with phase := .warm 4 } }

/-- Module cold reset: everything; flash and fuses keep what they hold, and the inputs of the connectors are as they are. The
reference clock is chosen anew (R365). -/
def State.coldReset (s : State) (phase : PwrPhase) : State :=
  let sec : SecS := { img := s.sec.img, cfg := s.sec.cfg, sel := s.sec.sel, rb := s.sec.rb, fuse := s.sec.fuse,
                      flashTop := s.sec.flashTop, leaf := s.sec.leaf }
  let s1 : State :=
    { pending := s.pending, ctr := s.ctr, sec := sec, cp := { prsnt := s.cp.prsnt },
      pci := s.pci.map (fun (e : Nat × PciS) => (e.1, { perst := e.2.perst, sent := e.2.sent })),
      fab := { ports := s.fab.ports.map (fun (e : Nat × ColPort) => (e.1, { light := e.2.light })) },
      pwr := { phase := phase, refclk := s.pwr.refclk } }
  (s1.setFld .pwrStatus 0 0 6 1 (!s.pwr.refclk).toNat).setReg .pwrInput 0 0 (s.reg .pwrInput 0 0)

/-- The CP resets the domain of a lost agent (R214). -/
def State.resetAgent (s : State) (a : Nat) : State :=
  if a < 64 then s.startDie (a / 8) none else if a = 64 then s.startWarm none else s.resetAux 0

/-- An uncorrectable tag error: the CP resets the compute die, whose agents count as lost, or the package (R211). -/
def State.tagError (s : State) (a : Nat) : State :=
  if a < 64 then
    let s1 := (upTo 8).foldl (fun s1 k => s1.markLost (8 * (a / 8) + k)) s
    s1.startDie (a / 8) none
  else s.startWarm none

end Sys2Proof.Machine
end

