-- ==== Sys2Proof/Machine/CohCmds.lean ====
section
/-! DEFINITION. The coherence commands: a load and a store at their cache (R198 to R204, R210, R211), messages at a home
(R205 to R208) and at a cache (R204), and agents that do not answer (R212 to R214). -/

namespace Sys2Proof.Machine

/- A cache's own accesses. -/

/-- Cores of PD whose caches hold a line after a store of a unit, and after its load (R196). -/
def onlyCopy (u : Agent) : List Nat := match u with | .core n => [n] | .grp .. => []

def CLine.copyAt (c : CLine) (u : Agent) : CLine :=
  match u with | .core n => { c with cores := insertN n c.cores } | .grp .. => c

/-- A buffered store is merged into a line held in M; a store of the whole line clears poison (R210, R218). -/
def State.mergeStore (s : State) (a sid : Nat) (e : SbE) : State :=
  let c := s.cline a e.line
  let c1 : CLine := { c with st := .M, data := mergeLine c.data e.data e.mask, poison := c.poison && !maskFull e.mask,
                             cause := .none', cores := onlyCopy e.u }
  ((s.setCline a e.line c1).clearResv a e.line (some e.u)).sbRemove sid

/-- The lanes of an LL.D that name a line set their reservation on it (R37, R204). -/
def State.setResv (s : State) (p : PendOp) (l : Nat) : State :=
  (p.accs.filter (fun a => a.pa / 128 = l)).foldl (fun s1 a =>
    s1.setThr p.u a.lane { s1.thr p.u a.lane with resv := some l, llLen := 1, llOk := true }) s

/-- The lane of an SC.D that stores to a line, if its reservation still holds: the store is performed there, and every
reservation on the line ends (R37, R66). -/
def State.scAt (s : State) (tag a l : Nat) : State :=
  match s.ops.find? tag with
  | none => s
  | some p =>
    let c := s.cline a l
    match p.accs.find? (fun x => x.pa / 128 = l && x.old == 0) with
    | none => s.answerLine tag l c.data c.poison false
    | some x =>
      if (s.thr p.u x.lane).resv = some l then
        let c1 : CLine := { c with st := .M, data := mergeLine c.data (lineAt (x.pa % 128) 8 x.op1) (maskAt (x.pa % 128) 8), cores := onlyCopy p.u }
        ((s.setCline a l c1).clearResv a l none).answerLine tag l c1.data false false
      else
        let accs := p.accs.map (fun y => if y.pa / 128 = l then { y with old := 1 } else y)
        ({ s with ops := s.ops.set tag { p with accs := accs } } : State).answerLine tag l c.data false false

/-- A load, LL.D or SC.D completes at a line that has the permission it needs. -/
def State.loadAt (s : State) (tag a l : Nat) : State :=
  match s.ops.find? tag with
  | none => s
  | some p =>
    let c := s.cline a l
    match p.kind with
    | .sc => s.scAt tag a l
    | .ll => ((s.setCline a l (c.copyAt p.u)).setResv p l).answerLine tag l c.data c.poison false
    | _ => (s.setCline a l (c.copyAt p.u)).answerLine tag l c.data c.poison false

/-- The access that waited for a grant completes. -/
def State.runCause (s : State) (a l : Nat) (c : Cause) : State :=
  match c with
  | .none' => s
  | .ld tag => s.loadAt tag a l
  | .st sid => match s.sb.find? sid with
    | some e => if e.line = l then s.mergeStore a sid e else s
    | none => s

/-- What the check of a cached line found at an access (R211): the state, and whether the access must wait. Event kinds:
0 a tag error, 1 a data error. A sector that must go while the eviction buffer is full waits with its access (R200). -/
def State.cacheErr (s : State) (a l : Nat) (ecc : CacheEcc) : State × Bool :=
  let c := s.cline a l
  let (die, cl) := if a < 64 then (a / 8, a % 8) else (8, 0)
  let ue (s1 : State) (k : Nat) : State :=
    ((if a < 64 then s1.setFld .ccStatus a 0 0 1 1 else s1.setFld .pdCacheStatus 0 0 0 1 1)).post evCcUe die [(1, die), (1, cl), (1, k)]
  match ecc with
  | .good => (s, false)
  | .corrected => ((if a < 64 then s.incFld .ccStatus a 0 8 8 else s.incFld .pdCacheStatus 0 0 8 8).wsReport 2, false)
  | .tag => ((ue s 0).tagError a, true)
  | .data =>
    match c.st with
    | .E | .S =>
      let s1 := ue s 1
      if !s1.lineBusy l then (s1.evictNow a l, false)
      else if a < 64 && s.bufUsed a ≥ 32 then (s, true)
      else (((s1.setCline a l { c with st := .IIA }).clearResv a l none).send (.req { kind := .evc, a := a, line := l }), true)
    | .EIA | .SIA => ((ue s 1).setCline a l { c with st := .IIA }, true)
    | .M | .O | .SMA | .OMA | .MIA | .OIA => ((ue s 1).setCline a l { c with poison := true }, false)
    | _ => (s, false)

/-- The line request of an instruction has left for its cache's miss. -/
def State.reqSent (s : State) (tag l : Nat) : State :=
  match s.ops.find? tag with
  | none => s
  | some p => { s with ops := s.ops.set tag { p with lines := p.lines.map (fun r => if r.line = l ∧ r.st = 0 then { r with st := 1 } else r) } }

/-- CACHE_LOAD: a line request of a load, LL.D or SC.D reaches its cache. Where PD must make room, the command names the line
that leaves (R196). -/
def execCacheLoad (tag line : Nat) (victim : Option Nat) (ecc : CacheEcc) (s : State) : Out :=
  match s.ops.find? tag with
  | none => .next s
  | some p =>
    let cached : Bool := match p.kind with | .load .. | .ll | .sc => true | _ => false
    if !cached || !p.lines.any (fun r => r.line == line && r.mem == CmpMem.cached && r.st == 0) then .next s
    else
      let a := agCache p.u
      let (s1, stop) := s.cacheErr a line ecc
      if stop then .next s1
      else
        let st := (s1.cline a line).st
        let own : Bool := match p.kind with | .load .. => false | _ => true
        let hit : Bool := if own then st == .M || st == .E else st.readable
        let lost : Bool := match p.kind with
          | .sc => p.accs.all (fun x => x.pa / 128 ≠ line || x.old ≠ 0 || (s1.thr p.u x.lane).resv ≠ some line)
          | _ => false
        if hit || lost then .next ((if a < 64 then s1.touchTag a line else s1).loadAt tag a line)
        else
          let hint := match reqOf p.lines 0 line with | some r => r.hint | none => 1
          let miss := if own then s1.missStore a line p.cls hint (.ld tag) victim
                      else if st = .I then s1.missLoad a line p.cls hint (.ld tag) victim else none
          match miss with
          | none => .next s1
          | some s2 => .next ((if a < 64 then s2.count (agUnit p.u) 0x003 else s2).reqSent tag line)

/-- CACHE_STORE: a buffered store reaches its cache; an older store of its unit to the line goes first (R219). -/
def execCacheStore (sid : Nat) (victim : Option Nat) (ecc : CacheEcc) (s : State) : Out :=
  match s.sb.find? sid with
  | none => .next s
  | some e =>
    if e.mem ≠ .cached || e.sent || ((s.sbOf e.u).any (fun x => x.1 < sid && x.2.line = e.line)) then .next s
    else
      let a := agCache e.u
      let (s1, stop) := s.cacheErr a e.line ecc
      if stop then .next s1
      else match (s1.cline a e.line).st with
        | .M | .E => .next (((if a < 64 then s1.touchTag a e.line else s1).mergeStore a sid e).pumpDies)
        | _ =>
          match s1.missStore a e.line e.cls e.hint (.st sid) victim with
          | none => .next s1
          | some s2 => .next (if a < 64 then s2.count (agUnit e.u) 0x003 else s2)

/- Messages at a home. -/

/-- A message from an agent arrives at the home of its line: one from a lost agent is discarded and counted (R208, R214). It waits for its link and for its turn (R11, R261). -/
def fromAgent (s : State) (a line : Nat) (p : Msg → Bool) (k : State → State) : Out :=
  if a ≥ 66 || !isLocal (line * 128) then .refused .illFormed
  else
    let s1 := s.took p
    let m := s1.homeOf line
    if s.linkHolds (agentDie a) line p then .next s
    else if s1.isLost m a then .next (s1.incFld .cohStatus m 0 16 16) else .next (k s1)

def isReq (k : RqKind) (a line : Nat) : Msg → Bool | .req r => r.kind == k && r.a == a && r.line == line | _ => false

/-- A window whose grant is in force (R272). -/
def FwWin.covers (w : FwWin) (a n : Nat) : Bool := w.revoking.isNone && w.base ≤ a && a + n ≤ w.base + w.size
def FwWin.right (w : FwWin) (i : Nat) : Bool := (w.rights >>> i) % 2 == 1

/-- A request of an agent's cache. One of agent 65 that is not on its way already must pass the firewall: a window with the
cache right, on a part that has the die and with the site up (R2, R194, R272). -/
def fromCache (s : State) (a line : Nat) (p : Msg → Bool) (k : State → State) : Out :=
  if a = 65 ∧ isLocal (line * 128) ∧ !s.net.any p then
    if s.fld .fwStatus 0 0 1 1 = 0 then .next s
    else if s.aux.inw.any (fun w => w.2.covers (line * 128) 128 && w.2.right 3) then fromAgent s a line p k
    else .next (s.fwViolation 3 (line * 128))
  else fromAgent s a line p k

/-- The hint that a message on its way carries. -/
def State.hintOf (s : State) (p : Msg → Bool) : Nat :=
  match s.net.find? p with | some (.req r) => r.hint | _ => 1

def execRds (a line : Nat) (s : State) : Out :=
  fromCache s a line (isReq .rds a line) (fun s1 => s1.accept { kind := .rds, a := a, line := line, hint := s.hintOf (isReq .rds a line) })

def execRdx (a line : Nat) (s : State) : Out :=
  fromCache s a line (isReq .rdx a line) (fun s1 => s1.accept { kind := .rdx, a := a, line := line, hint := s.hintOf (isReq .rdx a line) })

def execUpg (a line : Nat) (s : State) : Out :=
  fromCache s a line (isReq .upg a line) (fun s1 => s1.accept { kind := .upg, a := a, line := line, hint := s.hintOf (isReq .upg a line) })

def execWbd (a line : Nat) (data : Line) (poison : Bool) (s : State) : Out :=
  fromCache s a line (isReq .wbd a line) (fun s1 => s1.accept { kind := .wbd, a := a, line := line, data := data, poison := poison })

def execEvc (a line : Nat) (s : State) : Out :=
  fromCache s a line (isReq .evc a line) (fun s1 => s1.accept { kind := .evc, a := a, line := line })

/-- A message that the table of R208 marks never. -/
def State.proto (s : State) (l : Nat) : State := s.incFld .cohStatus (s.homeOf l) 0 32 16

/-- CMPACK: the transaction closes, and the next request for the line starts. -/
def execCmpack (a line : Nat) (s : State) : Out :=
  fromAgent s a line (fun m => m == .cmpack a line) (fun s1 =>
    match s1.txns.find? line with
    | none => s1
    | some t =>
      if t.phase = .ack ∧ t.req.a = a then ({ s1 with txns := s1.txns.del line } : State).pump else s1.proto line)

def isNc (k : RqKind) (w : Who) (line : Nat) : Msg → Bool | .req r => r.kind == k && r.w == w && r.line == line | _ => false

/-- The coherent agent of a non-caching request: the one that its message names, or that of its unit (R203, R208). -/
def State.ncAgent (s : State) (w : Who) : Nat :=
  match w with
  | .op tag => match s.ops.find? tag with | some p => agCache p.u | none => 66
  | .store sid => match s.sb.find? sid with | some e => agCache e.u | none => 66
  | .desc c _ => c / 8
  | _ => 66

def sameTile : Who → Who → Bool
  | .tileR i _, .tileR j _ | .tileW i _, .tileW j _ => i == j
  | _, _ => false

/-- The message of the other line of a burst. -/
def isOther (r : HReq) : Msg → Bool
  | .req q => q.burst && q.kind == r.kind && q.line == otherHalf r.line && sameTile q.w r.w
  | _ => false

/-- A non-caching request arrives at its home: one of a lost agent is discarded and counted (R208, R214), and the two lines of
a burst arrive together (R230). -/
def fromNc (s : State) (r : HReq) : Out :=
  if !isLocal (r.line * 128) then .refused .illFormed
  else
    let p := isNc r.kind r.w r.line
    let sent : Option HReq := match s.net.find? p with | some (.req q) => some q | _ => none
    let a := match sent with | some q => q.a | none => s.ncAgent r.w
    let s1 := s.took p
    if s.linkHolds (s.reqDie { r with a := a }) r.line p then .next s
    else if a < 66 && s1.isLost (s1.homeOf r.line) a then .next (s1.incFld .cohStatus (s1.homeOf r.line) 0 16 16)
    else if sent.any (fun q => q.burst) then
      match s1.net.find? (isOther r) with
      | some (.req q) => .next ((s1.took (isOther r)).acceptBurst { r with a := a, burst := true } q)
      | _ => .next (s1.accept { r with a := a })
    else .next (s1.accept { r with a := a })

def execRdnc (w : Who) (line hint : Nat) (s : State) : Out := fromNc s { kind := .rdnc, w := w, line := line, hint := hint }

/-- WRNC: the home of a device store has accepted it (R218). -/
def execWrnc (w : Who) (line : Nat) (mask : LMask) (data : Line) (poison : Bool) (hint : Nat) (s : State) : Out :=
  match fromNc s { kind := .wrnc, w := w, line := line, hint := hint, mask := mask, data := data, poison := poison }, w with
  | .next s1, .store sid => .next (s1.sbAccept sid)
  | o, _ => o

/-- ATMH: its operands come with its message, or with its instruction in flight; without them it is dropped. -/
def execAtmh (w : Who) (line : Nat) (s : State) : Out :=
  let sent : Option HReq := match s.net.find? (isNc .atmh w line) with | some (.req q) => some q | _ => none
  match sent, s.amoOf w with
  | some q, _ => fromNc s { kind := .atmh, w := w, line := line, hint := q.hint, amo := q.amo, accs := q.accs }
  | none, some (_, p, o, wd) => fromNc s { kind := .atmh, w := w, line := line, amo := some (o, wd), accs := p.accs }
  | none, none => if isLocal (line * 128) then .next s else .refused .illFormed

/-- CMO_MESSAGE of processor core n: its instruction in flight gets the answer. -/
def execCmoMessage (n : Nat) (kind : CmoKind) (line : Nat) (s : State) : Out :=
  if n ≥ 64 || !isLocal (line * 128) then .refused .illFormed
  else
    let w : Who := match (s.core n).op with | some tag => .op tag | none => .ext 3
    let p := isNc (.cmo kind) w line
    let s1 := s.took p
    let m := s1.homeOf line
    if s.linkHolds 8 line p then .next s
    else if s1.isLost m 64 then .next (s1.incFld .cohStatus m 0 16 16)
    else .next (s1.accept { kind := .cmo kind, a := 66, w := w, line := line })

/-- HOME_MEMORY_DATA: the data of the memory side arrives, checked when it comes from the arrays (R185, R208). -/
def execHomeMemoryData (line : Nat) (ecc : Ecc) (s : State) : Out :=
  match s.txns.find? line with
  | none => .next s
  | some t =>
    if t.phase ≠ .mem then .next (s.proto line)
    else
      let s1 := if s.msc.has line then s else s.memCheck line ecc
      let (s2, m) : State × (Line × Bool) := match t.req.kind with
        | .rds | .rdx | .upg | .rdnc => (let (a, b, c) := s1.mscRead line t.req.hint; (a, b, c))
        | _ => (s1, s1.memPeek line)
      let s3 := s2.ready2 t m
      .next (if s3.txns.has line then s3 else s3.pump)

/-- A snoop response arrives; after the last one the transaction goes on. -/
def State.snoopAnswer (s : State) (a line : Nat) (ans : SnpAns) : State :=
  match s.txns.find? line with
  | none => s
  | some t =>
    if t.phase ≠ .snp ∨ !t.await.elem a then s.proto line
    else
      let t1 := t.answer a ans
      if t1.await.isEmpty then (s.answered t1).pump else { s with txns := s.txns.set line t1 }

def execRspsRspi (a line : Nat) (toI : Bool) (s : State) : Out :=
  fromAgent s a line (fun m => m == .rsp a line toI) (fun s1 => s1.snoopAnswer a line (toI, none))

def execRspsdRspid (a line : Nat) (toI : Bool) (data : Line) (poison : Bool) (s : State) : Out :=
  fromAgent s a line (fun m => match m with | .rspd b l _ _ _ => b == a && l == line | _ => false)
    (fun s1 => s1.snoopAnswer a line (toI, some (data, poison)))

/- Messages at a cache. -/

/-- An agent whose domain is in reset and past its write-back neither answers nor installs. -/
def State.agentGone (s : State) (a : Nat) : Bool :=
  if a < 64 then s.rsts.any (fun r => r.dom == .die (a / 8) && !r.writing) else if a = 64 then s.inReset .warm else s.aux.inReset

def atCache (s : State) (a line : Nat) (p : Msg → Bool) (k : State → State) : Out :=
  if a ≥ 66 || !isLocal (line * 128) then .refused .illFormed
  else
    let s1 := s.took p
    if s.linkHolds (agentDie a) line p then .next s else if s1.agentGone a then .next s1 else .next (k s1)

/-- A snoop: the answer goes to the home. -/
def State.snooped (s : State) (k : SnpK) (a line : Nat) : State :=
  match s.snoop k a line with
  | (s1, none) => s1
  | (s1, some (toI, none)) => s1.send (.rsp a line toI)
  | (s1, some (toI, some (d, p))) => s1.send (.rspd a line toI d p)

def execSnps (a line : Nat) (s : State) : Out :=
  atCache s a line (fun m => m == .snp .s a line) (fun s1 => s1.snooped .s a line)

def execSnpx (a line : Nat) (s : State) : Out :=
  atCache s a line (fun m => m == .snp .x a line) (fun s1 => s1.snooped .x a line)

def execSnpi (a line : Nat) (s : State) : Out :=
  atCache s a line (fun m => m == .snp .i a line) (fun s1 => s1.snooped .i a line)

/-- A grant is installed: CmpAck, then the access that asked for it, then what waited for the line (R203, R212, R215). -/
def State.install (s : State) (a line : Nat) (st : CSt) (d : Line) (p : Bool) : State :=
  let c := s.cline a line
  let s1 := ((s.setCline a line { c with st := st, data := d, poison := p, cause := .none' }).send (.cmpack a line)).runCause a line c.cause
  (s1.flushDue a).pumpHeld.pumpDies

/-- GNTS_GNTE: `excl` is GntE. -/
def execGntsGnte (a line : Nat) (excl : Bool) (data : Line) (poison : Bool) (s : State) : Out :=
  atCache s a line (fun m => match m with | .gnt b l _ _ _ => b == a && l == line | _ => false) (fun s1 =>
    if (s1.cline a line).st = .ISD then s1.install a line (if excl then .E else .S) data poison else s1.perr a)

def execGntm (a line : Nat) (data : Line) (poison : Bool) (s : State) : Out :=
  atCache s a line (fun m => match m with | .gntm b l _ _ => b == a && l == line | _ => false) (fun s1 =>
    if (s1.cline a line).st = .IMD then s1.install a line .M data poison else s1.perr a)

def execGntupg (a line : Nat) (s : State) : Out :=
  atCache s a line (fun m => m == .gntupg a line) (fun s1 =>
    let c := s1.cline a line
    if c.st = .SMA ∨ c.st = .OMA then s1.install a line .M c.data c.poison else s1.perr a)

/-- GNTWB_GNTEV: the eviction-buffer entry is free; a die that waits for it goes on with its reset (R212). -/
def execGntwbGntev (a line : Nat) (s : State) : Out :=
  atCache s a line (fun m => m == .gntwb a line) (fun s1 =>
    if (s1.cline a line).st.inBuffer then ((s1.setCline a line {}).flushDue a).pumpHeld.pumpDies else s1.perr a)

/-- A request that a root port holds has its completion. -/
def State.outTake (s : State) (w : Who) (line : Nat) : State :=
  { s with pci := s.pci.map (fun (e : Nat × PciS) => (e.1, { e.2 with out := eraseFirst (fun o => o == (w, line)) e.2.out })) }

/-- The answer of a non-caching request. -/
def isDat (w : Who) (line : Nat) : Msg → Bool | .dat v l _ _ => v == w && l == line | _ => false

/-- DATNC_CMPNC: the requester gets its data or completion. -/
def execDatncCmpnc (w : Who) (line : Nat) (data : Line) (poison : Bool) (s : State) : Out :=
  if isLocal (line * 128) && s.linkHolds (s.whoDie w) line (isDat w line) then .next s
  else
  let s1 := ((s.outTake w line).took (isDat w line)).ncDone w line
  match w with
  | .op tag => .next (s1.answerLine tag line data poison false)
  | .store sid => .next (match s1.sb.find? sid with | some e => if e.line = line then (s1.sbRemove sid).pumpDies else s1 | none => s1)
  | .tileR id ln => .next (s1.tileArrive id ln data poison false)
  | .tileW id ln => .next (s1.tileAccept id ln false)
  | .desc c ch => if c ≥ 512 ∨ ch ≥ 8 then .refused .illFormed else .next (s1.descArrive c ch line data poison false)
  | .ext n => .next (s1.dbgAnswer n data poison false)

/- Agents that do not answer. -/

/-- An agent leaves a line's sharers. -/
def State.forget (s : State) (l a : Nat) : State :=
  match s.dir.find? l with
  | none => s
  | some e => match e.st with
    | .HS => s.setSharers l (e.sharers.filter (· ≠ a))
    | .HO => s.setDir l .HO e.owner (e.sharers.filter (· ≠ a))
    | .HX => s

/-- HOME_TIMEOUT: the home has waited TIMEOUT for an agent's snoop response or acknowledgement (R213); the agent is lost,
and the CP resets its domain (R214). Phases of the event: 0 SNP, 1 ACK. -/
def execHomeTimeout (line a : Nat) (s : State) : Out :=
  match s.txns.find? line with
  | none => .next s
  | some t =>
    let m := s.homeOf line
    let due : Bool := t.since + s.fld .cohCtrl m 0 0 10 * 1000 ≤ s.now
    if !due || a ≥ 66 then .next s
    else
      let finish (s1 : State) (ack poisoned : Bool) (k : State → State) : Out :=
        let s2 := (s1.setReg .cohToAddr m 0 (BitVec.ofNat 64 (line * 128))).incFld .cohStatus m 0 8 8
        let s3 := s2.post evCohTimeout (9 + m) [(1, m), (8, line * 128), (1, a), (1, ack.toNat), (1, poisoned.toNat)]
        let fresh := !s3.isLost m a
        let s4 := k (s3.markLost a)
        .next (if fresh then (s4.post evCohAgentLost (9 + m) [(1, a), (1, m)]).resetAgent a else s4)
      if t.phase = .snp ∧ t.await.elem a then
        let owner : Bool := t.wasOwner == some a
        finish s false owner (fun s1 => match s1.txns.find? line with
          | none => s1
          | some t1 =>
            let t2 := t1.answer a (true, if owner then some (Config.lostLine line s1.ctr.age, true) else none)
            if t2.await.isEmpty then (s1.answered t2).pump else { s1 with txns := s1.txns.set line t2 })
      else if t.phase = .ack ∧ t.req.a = a then
        let excl : Bool := match s.dir.find? line with | some e => e.st == HSt.HX && e.owner == a | none => false
        finish s true excl (fun s1 =>
          let s2 := if excl then (s1.poisonLine line).delDir line else s1.forget line a
          ({ s2 with txns := s2.txns.del line } : State).pump)
      else .next s

/-- LOST_OWNER_WALK: the next line homed at m that a lost agent owns is poisoned (R214). -/
def execLostOwnerWalk (m : Nat) (s : State) : Out :=
  if m ≥ 4 then .refused .illFormed
  else match List.find? (fun (e : Nat × DirE) => s.homeOf e.1 == m && e.2.st != HSt.HS && s.isLost m e.2.owner && !s.txns.has e.1) s.dir with
    | none => .next s
    | some e => .next ((s.poisonOwned e.1).pump)

/-- CD_CC_FLUSH: every sector of the cluster cache is written back or given up, those in use as soon as they can (R215). -/
def execCdCcFlush (iss : Iss) (k : Nat) (s : State) : Out :=
  if k ≥ 64 then .refused .illFormed else s.atBlock iss .ccCtrl k 0 (fun s => s.flushAgent k)

/-- DIE_RESET_WRITEBACK_TIMEOUT: 100 µs after its write-back began the die is reset with what is left (R212, R238). -/
def execDieResetWritebackTimeout (d : Nat) (s : State) : Out :=
  if d ≥ 8 then .refused .illFormed
  else if s.rsts.any (fun r => r.dom == .die d && r.writing && r.drained && r.since + 100000 ≤ s.now) then .next (s.dieDown d)
  else .next s

end Sys2Proof.Machine
end

