-- ==== Sys2Proof/Machine/FaultQueue.lean ====
section
/-! DEFINITION. The fault queue's responses, timers and read index (R252 to R256). -/

namespace Sys2Proof.Machine

/-- Responses of CD_FQ_RESP (R253). -/
inductive FqAct where
  | retry | done | fault
deriving DecidableEq, Repr

def State.dropStall (s : State) (d : Nat) (x : Stall) : State :=
  let f := s.fq d
  s.setFq d { f with stalled := f.stalled.filter (fun y => y.r ≠ x.r ∨ y.token ≠ x.token ∨ y.what ≠ x.what) }

/-- A stalled requester goes on: it translates again, or a group resumes after its UPCALL. -/
def State.fqGo (s : State) (x : Stall) : State :=
  match x.r with
  | .grp c slot => match s.grp c slot with
    | none => s
    | some g =>
      let s1 := s.setGrp c slot { g with stalled := false }
      if x.upcall then s1.finishLanes (.grp c slot) x.len false x.what else s1
  | .chan c ch =>
    let y := s.chan c ch
    s.setChan c ch { y with stall := y.stall.filter (· ≠ x.what) }
  | .word _ q pkt => { s with launches := s.launches.map (fun (e : Nat × Launch) =>
      if e.2.q = q ∧ e.2.pkt = pkt then (e.1, { e.2 with wordStalled := false }) else e) }

/-- A stalled requester ends: its launch ends, or its completion word stays unwritten (R78, R253, R255). -/
def State.fqEnd (s : State) (x : Stall) (cancel : Bool) : State :=
  match x.r with
  | .grp c slot => match s.grp c slot with
    | none => s
    | some g => s.endLaunch g.lid cancel
  | .chan c ch => s.endLaunch (s.chan c ch).lid cancel
  | .word _ q pkt => { s with launches := s.launches.map (fun (e : Nat × Launch) =>
      if e.2.q = q ∧ e.2.pkt = pkt then (e.1, { e.2 with wordStalled := false, wordSkip := true }) else e) }

/-- A response of the kernel; one that names no stalled requester is stale, and so is one that comes when the deadline has
(R253, R255). -/
def State.fqRespond (s : State) (d token : Nat) (act : FqAct) : State :=
  match (s.fq d).stalled.find? (fun x => x.token == some token) with
  | none => s.setFld .fqStatus d 0 2 1 1
  | some x =>
    if x.deadline ≤ s.now then (((s.dropStall d x).fqEnd x false).fqFull d).setFld .fqStatus d 0 2 1 1
    else
    let s1 := ((s.dropStall d x).fqFull d).monRecord 13 ((s.now - x.since) / 1000)
    match act with
    | .retry => s1.fqGo x
    | .done => s1.fqEnd x true
    | .fault => s1.fqEnd x false

/-- CD_FQ_RESP_RETRY. -/
def execCdFqRespRetry (iss : Iss) (d token : Nat) (s : State) : Out :=
  if d ≥ 8 || token ≥ 2 ^ 32 then .refused .illFormed else s.atBlock iss .fqResp d 0 (fun s => s.fqRespond d token .retry)

/-- CD_FQ_RESP_END. -/
def execCdFqRespEnd (iss : Iss) (d token : Nat) (s : State) : Out :=
  if d ≥ 8 || token ≥ 2 ^ 32 then .refused .illFormed else s.atBlock iss .fqResp d 0 (fun s => s.fqRespond d token .done)

/-- CD_FQ_RESP_FAULT. -/
def execCdFqRespFault (iss : Iss) (d token : Nat) (s : State) : Out :=
  if d ≥ 8 || token ≥ 2 ^ 32 then .refused .illFormed else s.atBlock iss .fqResp d 0 (fun s => s.fqRespond d token .fault)

/-- The read index takes a value between itself and WIDX; another one sets ERR (R256). Slots come free. -/
def State.fqRead (s : State) (d : Nat) (v : Word) : State :=
  if (s.reg .fqRidx d 0).toNat ≤ v.toNat ∧ v.toNat ≤ (s.reg .fqWidx d 0).toNat then (s.setReg .fqRidx d 0 v).fqDrain d 16
  else s.setFld .fqStatus d 0 1 1 1

/-- CD_FQ_RIDX_WRITE. -/
def execCdFqRidxWrite (iss : Iss) (d size : Nat) (value : Word) (s : State) : Out :=
  if d ≥ 8 || !accessWf 0 size then .refused .illFormed
  else s.atBlock iss .fqRidx d 0 (fun s => s.fqRead d (mergeReg (s.reg .fqRidx d 0) 0 size value))

def Requester.die : Requester → Nat
  | .grp c _ => c / 64
  | .chan c _ => c / 64
  | .word d _ _ => d

/-- Core and address space of a requester's translations. -/
def State.stallWho (s : State) (r : Requester) : XWho :=
  match r with
  | .grp c slot => .cd c (s.unitAsid (.grp c slot))
  | .chan c ch => .cd c (s.asidOf (s.chan c ch).lid)
  | .word d q _ => .cd (64 * d) ((s.queue? q).getD {}).asid

/-- The record of a retry that faults again: its detail, level and tier are those of the new walk. -/
def refault (b : List Byte) (np perm : Bool) (lv t : Nat) : List Byte :=
  let det := ofLeBytes ((b.drop 0x12).take 2)
  b.take 0x12 ++ leBytes 2 (det / 4 * 4 + np.toNat + 2 * perm.toNat) ++ (b.drop 0x14).take 6 ++ leBytes 1 lv ++ leBytes 1 t ++ b.drop 0x1C

/-- The record of a waiting requester enters a ring that has room; without room it goes on waiting. -/
def State.fqEnter (s : State) (d : Nat) (x : Stall) (rcd : List Byte) : State :=
  if s.fqRoom d then
    let f := s.fq d
    let y := { x with token := some (s.fqNext d % 2 ^ 32), record := rcd }
    (s.setFq d { f with stalled := f.stalled.map (fun z => if z = x then y else z) }).fqPut d rcd
  else s

/-- A requester without a record tries again: it goes on where it translates, or where what it now meets is no stall (ATTR, R49);
otherwise its record enters where the queue has room. -/
def State.fqRetry (s : State) (d : Nat) (x : Stall) : State :=
  let go (s1 : State) : State := ((s1.dropStall d x).fqGo x).fqFull d
  if s.now < x.since + 1000 then s
  else if x.upcall then s.fqEnter d x x.record
  else
    let code := ofLeBytes ((x.record.drop 0x10).take 2)
    match s.translate (s.stallWho x.r) (if code = 4 then .fetch else if code = 5 then .load else .store) x.va with
    | .wait => s
    | .fault s1 np perm attr lv t => if attr then go s1 else s1.fqEnter d x (refault x.record np perm lv t)
    | .ok s1 .. => go s1
    | .bus s1 _ => go s1
    | .poison s1 _ => go s1

/-- FQ_RETRY_TIMER: a requester that has no record translates again, and writes its record if it faults again (R254). A channel
may wait with a fetch, a read and a write. -/
def execFqRetryTimer (r : Requester) (s : State) : Out :=
  if !r.wf then .refused .illFormed
  else
    let d := Requester.die r
    .next (((s.fq d).stalled.filter (fun x => x.r == r && x.token.isNone)).foldl (fun s1 x => s1.fqRetry d x) s)

/-- FAULT_DEADLINE_EXPIRY (R255). -/
def execFaultDeadlineExpiry (r : Requester) (s : State) : Out :=
  if !r.wf then .refused .illFormed
  else
    let d := Requester.die r
    match (s.fq d).stalled.find? (fun x => x.r == r && x.deadline ≤ s.now) with
    | none => .next s
    | some x => .next (((s.dropStall d x).fqEnd x false).fqFull d)

end Sys2Proof.Machine
end

