-- ==== Sys2Proof/Machine/Links.lean ====
section
/-! DEFINITION. Die-to-die links: paths (R11), flits, replay and credits (R258 to R263), training and the epoch (R264 to
R267), and what a link that goes down ends (R269). -/

namespace Sys2Proof.Machine

def crosses (src a e : Nat) : Bool := (path src a).any (fun x => x == e || linkPartner x == some e)

/-- A non-caching request that crosses a link on its way to its home (R11). -/
def State.ncCrosses (s : State) (e : Nat) (r : HReq) : Bool :=
  (match r.kind with | .rdnc | .wrnc | .atmh | .cmo _ => true | _ => false) &&
  (let x := memLink (s.reqDie r) (s.homeOf r.line); x == e || linkPartner x == some e)

/-- A requester gets a bus error for a line (R267). -/
def State.whoFails (s : State) (w : Who) (l : Nat) : State :=
  match w with
  | .op tag => s.answerLine tag l 0 false true
  | .store sid => s.sbFail sid
  | .tileR id ln => s.tileArrive id ln 0 false true
  | .tileW id ln => s.tileAccept id ln true
  | .desc c ch => s.descArrive c ch l 0 false true
  | .ext n => s.dbgAnswer n 0 false true

/-- Requests across a link that have no response end with a bus error, non-caching requests to local memory among them, and
responses that are held for them are discarded (R234, R267). -/
def State.linkFail (s : State) (e : Nat) : State :=
  let far (m : CmpMem) : Bool := m == .mmio || m == .pcie || m == .remote
  let sts := s.sb.filter (fun x => x.2.sent && far x.2.mem && crosses (unitDie x.2.u) (x.2.line * 128) e)
  let s1 := sts.foldl (fun s1 x => s1.sbFail x.1) s
  let lds := s1.ops.flatMap (fun (o : Nat × PendOp) =>
    (o.2.lines.filter (fun r => r.st ≠ 2 && far r.mem && crosses (unitDie o.2.u) (r.line * 128) e)).map (fun r => (o.1, r.line)))
  let s2 := lds.foldl (fun s2 x => s2.answerLine x.1 x.2 0 false true) s1
  let inNet := s2.net.filterMap (fun m => match m with | .req r => if s2.ncCrosses e r then some (r.w, r.line) else none | _ => none)
  let held := s2.net.filterMap (fun m => match m with
    | .dat w l _ _ => if s2.ncCrosses e { kind := .rdnc, w := w, line := l } then some (w, l) else none | _ => none)
  let atHome := ((s2.hq.flatMap (fun (q : Nat × List HReq) => q.2)) ++ (s2.txns.map (fun (t : Nat × Txn) => t.2.req))).filterMap
    (fun r => if s2.ncCrosses e r then some (r.w, r.line) else none)
  let gone (m : Msg) : Bool := match m with
    | .req r => s2.ncCrosses e r
    | .dat w l _ _ => s2.ncCrosses e { kind := .rdnc, w := w, line := l }
    | _ => false
  let s3 : State := { s2 with net := s2.net.filter (fun m => !gone m) }
  (inNet ++ held ++ atHome).foldl (fun s4 x => (s4.whoFails x.1 x.2).ncDone x.1 x.2) s3

/- Flits (R259). -/

/-- Byte i of a flit. -/
def flitByte (fl : BitVec 2048) (i : Nat) : Nat := (fl.toNat >>> (8 * i)) % 256

/-- The header of a flit: its reserved bits are ignored (R6). -/
def flitHdr (fl : BitVec 2048) : FlitHdr :=
  let w (i : Nat) : Nat := flitByte fl i + 256 * flitByte fl (i + 1)
  { seq := w 0 % 4096, ack := w 2 % 4096, nak := w 2 / 4096 % 2 == 1, epoch := flitByte fl 4,
    vc := flitByte fl 5 % 8, cred := flitByte fl 5 / 8 }

/-- One bit, and one byte, of the CRC-32 of R259: most significant bit first (DESIGN CHOICE, log 44). -/
def crcBit (c : BitVec 32) (b : Bool) : BitVec 32 := if (c.getMsbD 0) != b then (c <<< 1) ^^^ 0x04C11DB7 else c <<< 1
def crcByte (c : BitVec 32) (x : Nat) : BitVec 32 := (upTo 8).foldl (fun c i => crcBit c ((x >>> (7 - i)) % 2 == 1)) c

/-- CRC-32 over a list of bytes. -/
def crc32 (l : List Nat) : BitVec 32 := ~~~(l.foldl crcByte 0xFFFFFFFF)

/-- Bytes 252 to 255 of a flit hold the CRC of the bytes before them, its lowest byte first (DESIGN CHOICE, log 44). -/
def flitCrcOk (fl : BitVec 2048) : Bool :=
  (crc32 ((upTo 252).map (flitByte fl))).toNat == flitByte fl 252 + 256 * flitByte fl 253 + 65536 * flitByte fl 254 + 16777216 * flitByte fl 255

/- Transmission (R260 to R262), shared with Col ports (R280). -/

/-- Channels in their order of priority: Management, Response, Data, Snoop, Request, Fabric (R261). -/
def vcOrder : List Nat := [5, 2, 3, 1, 0, 4]

/-- The channel of the next slot: the first in order that has a message and a credit; Management within 64 flits of its last
turn only where nothing else waits (R261). -/
def LinkS.pick (l : LinkS) : Option Nat :=
  let may (v : Nat) : Bool := l.wait.get 0 v != 0 && l.credits.get 0 v != 0
  vcOrder.find? (fun v => may v && (v != 5 || l.quietMgmt ≥ 63 || !(vcOrder.drop 1).any (fun x => l.wait.get 0 x != 0)))

/-- Slots of a new flit, n at most: each takes a credit (R260). -/
def LinkS.fill (l : LinkS) : Nat → LinkS × List Nat
  | 0 => (l, [])
  | n + 1 => match l.pick with
    | none => (l, [])
    | some v =>
      let (l1, r) := LinkS.fill { l with wait := l.wait.upd 0 v (· - 1), credits := l.credits.upd 0 v (· - 1) } n
      (l1, v :: r)

/-- A new flit of an end, with the channels of its slots, joins the replay buffer (R262). -/
def LinkS.put (l : LinkS) (vs : List Nat) (mod now : Nat) : LinkS :=
  { l with sent := l.sent ++ [l.nextSeq], nextSeq := (l.nextSeq + 1) % mod,
           loads := if vs.isEmpty then l.loads else l.loads.set l.nextSeq vs,
           quietMgmt := if vs.elem 5 then 0 else l.quietMgmt + 1,
           ackAt := if l.sent.isEmpty then now else l.ackAt }

/-- The next flit of an end: what it has to send again comes first, then a new one, which stays in the replay buffer of `cap`
flits until an ACK covers it. A flit has room for three slots of 64 B. None: the buffer is full (R262). -/
def LinkS.sendOne (l : LinkS) (mod cap now : Nat) : Option (Nat × LinkS) :=
  match l.again with
  | q :: r => some (q, { l with again := r })
  | [] =>
    if l.sent.length < cap then
      let (l1, vs) := l.fill 3
      some (l.nextSeq, l1.put vs mod now)
    else none

/-- An end has sent up to the flit of a number: those before it are lost on their way. -/
def LinkS.sendTo (l : LinkS) (seq mod cap now : Nat) : Nat → Option LinkS
  | 0 => none
  | n + 1 => match l.sendOne mod cap now with
    | none => none
    | some (q, l1) => if q = seq then some l1 else LinkS.sendTo l1 seq mod cap now n

/-- Flits up to the one acknowledged leave the replay buffer. -/
def ackUpTo (sent : List Nat) (ack : Nat) : List Nat :=
  if sent.elem ack then (sent.dropWhile (· ≠ ack)).drop 1 else sent

/-- A CRC-clean flit with the expected number: it is accepted, its slots enter the receive buffers, and its ACK, NAK and
credits act. True: it asks for a replay of what is not acknowledged. -/
def LinkS.accept (l : LinkS) (h : FlitHdr) (slots : List Nat) (mod now : Nat) (cap : Nat → Nat) : LinkS × Bool :=
  let left := ackUpTo l.sent h.ack
  let first := (left.head?).getD 0
  let again : Bool := h.nak && !left.isEmpty
  let l1 := { l with
    expect := (h.seq + 1) % mod, dropping := false, nakOut := false, sent := left,
    loads := l.loads.filter (fun e => left.elem e.1),
    again := if again then left else l.again.filter (fun q => left.elem q),
    rx := slots.foldl (fun m v => m.upd 0 v (· + 1)) l.rx,
    ackAt := if left.length < l.sent.length then now else l.ackAt,
    credits := l.credits.upd 0 h.vc (fun n => min (cap h.vc) (n + h.cred)),
    replays := if again then (if first = l.replaySeq then l.replays + 1 else 1) else l.replays,
    replaySeq := if again then first else l.replaySeq }
  (l1, again)

/-- The credits that a flit returns free slots of its sender's receive buffer. -/
def LinkS.returned (l : LinkS) (h : FlitHdr) : LinkS := { l with rx := l.rx.upd 0 h.vc (· - h.cred) }

/-- Any other flit is discarded, and a NAK goes out (R262). -/
def LinkS.discard (l : LinkS) : LinkS := { l with dropping := true, nakOut := true }

/-- Credits that an end advertises on n lane groups (R260). -/
def creditsOf (n vc : Nat) : Nat :=
  let full := match vc with | 0 => 64 | 1 => 32 | 2 => 64 | 3 => 256 | 4 => 128 | 5 => 8 | _ => 0
  ceilDiv (full * n) 4

/-- Payload of a link event: die, port, LNK_STATUS (R269). -/
def State.linkEvent (s : State) (code e : Nat) : State :=
  s.post code (min (e / 32) 13) [(1, e / 32), (1, e % 32), (8, (s.reg .lnkStatus e 0).toNat)]

/-- A link end meets a new epoch: it takes the next one, which the announcing end adopts; both start with nothing to replay,
and open requests end (R267). -/
def State.newEpoch (s : State) (e : Nat) : State :=
  let own := s.fld .lnkStatus e 0 8 8
  let n := if own = 255 then 1 else own + 1
  let one (s1 : State) (i : Nat) : State := (s1.setFld .lnkStatus i 0 8 8 n).setLink i { trained := (s1.link i).trained }
  let s1 := one s e
  (match linkPartner e with | some f => one s1 f | none => s1).linkFail e

/-- A link trains again; where one end announces a new epoch, the other takes part in it (R265 to R267). -/
def State.retrain (s : State) (e : Nat) : State :=
  match linkPartner e with
  | none => s
  | some f =>
    let a := s.fld .lnkStatus e 0 8 8
    let b := s.fld .lnkStatus f 0 8 8
    let s1 := if a = b then s else if b = 0 then s.newEpoch e else if a = 0 then s.newEpoch f else s.newEpoch e
    s1.linkTrain e

/-- A link that carries flits is up. -/
def State.flitsOn (s : State) (e : Nat) : Bool := if e = auxEnd ∨ e = auxFar then s.fld .fwStatus 0 0 1 1 == 1 else s.linkUp e

/-- Counts of a link end, which the UCIe link has no register for. -/
def State.countErr (s : State) (e lo n : Nat) : State := if e = auxEnd ∨ e = auxFar then s else s.incFld .lnkErr e 0 lo n

/-- FLIT_RECEIVE at an end that is up; a link that is not up carries nothing. Its partner has sent the flit. -/
def execFlitReceive (e : Nat) (body : BitVec 2016) (crc : BitVec 32) (s : State) : Out :=
  match flitPartner e with
  | none => .refused .illFormed
  | some f =>
    let fl : BitVec 2048 := crc ++ body
    let h := flitHdr fl
    let aux : Bool := e == auxEnd || e == auxFar
    if !s.flitsOn e then .next s
    else if !flitCrcOk fl then
      let s0 := match (s.link f).sendOne 4096 64 s.now with | some (_, l) => s.setLink f l | none => s
      .next (((s0.countErr e 0 16).wsReport 4).setLink e (s0.link e).discard)
    else if !aux && h.epoch != s.fld .lnkStatus e 0 8 8 then .next ((s.newEpoch e).linkTrain e)
    else match (s.link f).sendTo h.seq 4096 64 s.now 128 with
      | none => .next (s.setLink e (s.link e).discard)
      | some lf =>
        let s0 := s.setLink f lf
        let l := s0.link e
        if h.seq ≠ l.expect then .next (s0.setLink e l.discard)
        else
          let n := if aux then 4 else s0.fld .lnkStatus e 0 2 3
          let (l1, again) := l.accept h (lf.loads.get [] h.seq) 4096 s0.now (creditsOf n)
          let s1 := (s0.setLink f (lf.returned h)).setLink e l1
          if !again then .next s1
          else
            let s2 := (s1.countErr e 16 16).wsReport 5
            .next (if l1.replays ≥ 8 then (s2.setLink e { l1 with replays := 0 }).linkTrain e else s2)

/- Training (R264, R266). -/

/-- A spare of a lane group takes over a failing lane, or the group is bad; whether a repair was added. -/
def addSpare (w : Word) (lane : Nat) : Word × Bool :=
  match (upTo 4).find? (fun k => !bit w (8 * k + 6)) with
  | some k => (setBits (setBit w (8 * k + 6) true) (8 * k) 6 lane, true)
  | none => (setBit w 31 true, false)

/-- Failing lanes of an end, numbered group * 64 + lane: the state and the repairs added. -/
def State.repair (s : State) (e : Nat) : List Nat → State × Nat
  | [] => (s, 0)
  | n :: r =>
    let g := n / 64
    let (w, new) := addSpare (s.reg .lnkRepair e g) (n % 64)
    let (s1, k) := State.repair (s.setReg .lnkRepair e g w) e r
    (s1, k + new.toNat)

/-- The groups that the link tries: good at both ends, lowest first, at most the smaller MAXW. -/
def groupsOf (good pgood n : Nat) : List Nat :=
  ((upTo 6).filter (fun g => (good >>> g) % 2 = 1 ∧ (pgood >>> g) % 2 = 1)).take n

def maskOf (l : List Nat) : Nat := l.foldl (fun m g => m ||| 2 ^ g) 0

/-- Both ends come up on a list of groups. -/
def State.linkGoUp (s : State) (e f : Nat) (gs : List Nat) (fallback : Bool) : State :=
  let ep := let a := s.fld .lnkStatus e 0 8 8
            let b := s.fld .lnkStatus f 0 8 8
            if a = 0 ∧ b = 0 then 1 else max a b
  let one (s1 : State) (i : Nat) : State :=
    let w := s1.reg .lnkStatus i 0
    let w1 := setBits (setBits (setBits (setBits (setBits w 0 2 2) 2 3 gs.length) 5 1 fallback.toNat) 8 8 ep) 22 6 (maskOf gs)
    let l := s1.link i
    let s2 := (s1.setReg .lnkStatus i 0 w1).setLink i
      { l with trained := true, attempts := 0, replays := 0, dropping := false, nakOut := false, ackAt := s1.now, again := l.sent,
               credits := (upTo 6).map (fun vc => (vc, creditsOf gs.length vc)) }
    if l.trained then s2.incFld .lnkErr i 0 32 8 else s2
  one (one s e) f

/-- What the CP does about a link that is down: a compute die behind it is lost, and a Saddle link or an HD to MD link
needs a package warm reset (R269). -/
def State.linkDown (s : State) (e f : Nat) : State :=
  let one (s1 : State) (i : Nat) : State :=
    let l := s1.link i
    let s2 := (s1.setReg .lnkStatus i 0 (setBits (setBits (s1.reg .lnkStatus i 0) 0 6 0) 22 6 0)).setLink i { l with trained := true }
    if l.trained then s2.incFld .lnkErr i 0 32 8 else s2
  let s1 := (one (one s e) f).linkEvent evLinkDown e
  let s2 := s1.linkFail e
  let d := min e f
  if d < 256 then
    let s3 := (upTo 8).foldl (fun s3 k => s3.markLost (8 * (d / 32) + k)) s2
    s3.startDie (d / 32) none
  else if (256 ≤ d ∧ d < 260) ∨ (288 ≤ d ∧ d < 416 ∧ 416 ≤ max e f ∧ max e f < 420) then s2.startWarm none
  else s2

/-- Good groups of an end, less those that its failing lanes have made bad (R264). -/
def State.goodAt (s : State) (e good : Nat) : Nat :=
  let bad := maskOf ((upTo (linkGroups e)).filter (fun g => bit (s.reg .lnkRepair e g) 31))
  let g := good &&& (2 ^ linkGroups e - 1)
  g ^^^ (g &&& bad)

/-- LINK_TRAINING_ATTEMPT: an attempt of a training ends. `good` and `pgood` are the good groups at this end and at the
other, `agree` says that both report the same groups and every test passes, `repairs` lists failing lanes at this end
and at the other. After three attempts the lowest common group alone is tested. A repair that is added after the first training
is reported and posted whatever the attempt comes to (R264, R269). -/
def execLinkTrainingAttempt (e good pgood : Nat) (agree : Bool) (repairs : List Nat × List Nat) (s : State) : Out :=
  match linkPartner e with
  | none => .refused .illFormed
  | some f =>
    if good ≥ 64 ∨ pgood ≥ 64 ∨ (repairs.1 ++ repairs.2).any (fun n => n / 64 ≥ linkGroups e) then .refused .illFormed
    else if s.fld .lnkStatus e 0 0 2 ≠ 1 then .next s
    else
      let first := !(s.link e).trained
      let (s0, k) := s.repair e repairs.1
      let (s1, kp) := s0.repair f repairs.2
      let mine := s1.goodAt e good
      let theirs := s1.goodAt f pgood
      let s2 := (s1.setFld .lnkStatus e 0 16 6 mine).setFld .lnkStatus f 0 16 6 theirs
      let s3 := if first then s2 else s2.wsReport 6 (k + kp)
      let n := min (s3.link e).maxw (s3.link f).maxw
      let ev (s : State) : State := if !first then s.linkEvent evLinkRetrain e else s
      let evRep (s : State) : State := if !first then
          (upTo kp).foldl (fun s1 _ => s1.linkEvent evLinkRetrain f) ((upTo k).foldl (fun s1 _ => s1.linkEvent evLinkRetrain e) s) else s
      let trainings (s : State) : State := if !first then s.wsReport 5 64 else s
      if (s3.link e).attempts ≥ 3 then
        let gs := groupsOf mine theirs 1
        if agree && !gs.isEmpty then
          .next (evRep (ev ((trainings ((s3.linkGoUp e f gs true).wsReport 6 16)).linkEvent evLinkFallback e)))
        else .next (evRep ((trainings s3).linkDown e f))
      else
        let gs := groupsOf mine theirs n
        if agree && !gs.isEmpty then .next (evRep (ev (trainings (s3.linkGoUp e f gs false))))
        else
          let up (s4 : State) (i : Nat) : State := s4.setLink i { s4.link i with attempts := (s4.link i).attempts + 1 }
          .next (evRep (up (up s3 e) f))

/-- LNK_CTRL_RETRAIN; ignored while the link trains (R266). -/
def State.retrainWrite (s : State) (e : Nat) : State := if s.fld .lnkStatus e 0 0 2 = 1 then s else s.retrain e

def execLnkCtrlRetrain (iss : Iss) (e : Nat) (s : State) : Out :=
  if (linkPartner e).isNone then .refused .illFormed else s.atBlock iss .lnkCtrl e 0 (fun s => s.retrainWrite e)

end Sys2Proof.Machine
end

