-- ==== Sys2Proof/Machine/Auxiliary.lean ====
section
/-! DEFINITION. The auxiliary site: the hub firewall's grants and checks, the die's accesses and events, bring-up (R271 to
R277). -/

namespace Sys2Proof.Machine

def stFwBadArg : Nat := 0x0710

/-- Some inbound window grants caching (R272). -/
def State.auxCaches (s : State) : Bool := s.aux.inw.any (fun w => w.2.revoking.isNone && w.2.right 3)

def powerOf2 (n : Nat) : Bool := n != 0 && 2 ^ n.log2 == n

/-- FW_GRANT_IN: a grant into an occupied slot acts as a revoke followed by the grant (R273). -/
def execFwGrantIn (mb : Nat) (s : State) : Out :=
  command mb 0x720 s (aux := true) (k := fun s m =>
    let slot := m.arg 4 1
    let base := m.arg 8 8
    let size := m.arg 0x10 8
    let r := m.arg 0x18 1
    let others := NMap.del s.aux.inw slot
    let overlap : Bool := others.any (fun w => base < w.2.base + w.2.size && w.2.base < base + size)
    if !m.clean [(4, 1), (8, 8), (0x10, 8), (0x18, 1)] || slot ≥ 16 || r ≥ 128 || r / 16 > 4 || !powerOf2 size || size < 2 ^ 12 ||
      size > 2 ^ 40 || base % size != 0 || !localRange base size || overlap then .done s stFwBadArg []
    else
      let s1 : State := { s with aux := { s.aux with inw := others } }
      let s2 := if s.auxCaches && !s1.auxCaches then s1.dropAux true else s1
      let w : FwWin := { base := base, size := size, rights := r % 16, hint := if r / 16 = 0 then 1 else r / 16 }
      .done { s2 with aux := { s2.aux with inw := s2.aux.inw.set slot w } } stOk [])

/-- FW_GRANT_OUT. -/
def execFwGrantOut (mb : Nat) (s : State) : Out :=
  command mb 0x721 s (aux := true) (k := fun s m =>
    let slot := m.arg 4 1
    let base := m.arg 8 8
    let size := m.arg 0x10 8
    let off := m.arg 0x18 8
    let r := m.arg 0x20 1
    if !m.clean [(4, 1), (8, 8), (0x10, 8), (0x18, 8), (0x20, 1)] || slot ≥ 16 || r ≥ 4 || size == 0 ||
      !isAuxWin base || !isAuxWin (base + size - 1) then .done s stFwBadArg []
    else .done { s with aux := { s.aux with outw := s.aux.outw.set slot { base := base, size := size, rights := r, offset := off } } } stOk [])

/-- FW_GRANT_CMD. -/
def execFwGrantCmd (mb : Nat) (s : State) : Out :=
  command mb 0x722 s (aux := true) (k := fun s m =>
    let mask := m.arg 8 2
    let first := m.arg 0xA 2
    if !m.clean [(8, 2), (0xA, 2)] || first < 0xF00 || first + 15 > 0xFFF then .done s stFwBadArg []
    else .done { s with aux := { s.aux with mask := mask, evFirst := some first } } stOk [])

/-- Agent 65 has no transaction in flight. -/
def State.auxQuiet (s : State) : Bool :=
  (s.cacheOf 65).lines.all (fun c => !c.2.st.transient && !c.2.st.inBuffer) && s.unawaited 65

/-- A line lies in a window, whether its grant is in force or not. -/
def FwWin.has (w : FwWin) (l : Nat) : Bool := w.base ≤ l * 128 && (l + 1) * 128 ≤ w.base + w.size

/-- Every home recalls what agent 65 holds, by a transaction for each line (R209, R274): one that the die does not answer
ends by the home timeout (R213). -/
def State.recallAux (s : State) : State :=
  let mine := s.dir.filter (fun e => e.2.holders.elem 65 && !s.txns.has e.1 && !(s.hq.get [] e.1).any (fun r => r.kind == .recall))
  mine.foldl (fun s1 e => s1.accept { kind := .recall, line := e.1 }) s

/-- Caching accesses of agent 65 in a window that no home has begun are cancelled: their lines are as before them (R141,
R274). -/
def State.auxCancel (s : State) (w : FwWin) : State :=
  let ask (r : HReq) : Bool := r.a == 65 && w.has r.line && (match r.kind with | .rds | .rdx | .upg => true | _ => false)
  let ls := s.net.filterMap (fun m => match m with | .req r => if ask r then some r.line else none | _ => none) ++
    (s.hq.flatMap (fun (q : Nat × List HReq) => q.2.filter ask)).map (·.line)
  let s1 : State := { s with net := s.net.filter (fun m => match m with | .req r => !ask r | _ => true),
                             hq := (s.hq.map (fun (q : Nat × List HReq) => (q.1, q.2.filter (fun r => !ask r)))).filter (fun q => !q.2.isEmpty) }
  (ls.foldl (fun s2 l =>
    let c := s2.cline 65 l
    s2.setCline 65 l { c with cause := .none', st := match c.st with | .SMA => .S | .OMA => .O | _ => .I }) s1).pump

/-- A revoke takes the last window with the cache right (R274). -/
def State.lastCache (s : State) (slot : Nat) : Bool :=
  (s.aux.inw.get {} slot).right 3 && !(s.aux.inw.del slot).any (fun w => w.2.revoking.isNone && w.2.right 3)

/-- No directory names agent 65. -/
def State.auxOut (s : State) : Bool := s.dir.all (fun e => !e.2.holders.elem 65)

/-- A revoke is complete: its slot is empty (R274). -/
def State.fwRevoked (s : State) (kind slot : Nat) (mb : Option Nat) : State :=
  match kind with
  | 0 =>
    ({ s with aux := { s.aux with inw := s.aux.inw.del slot } } : State).mbResult? mb stOk
  | 1 => ({ s with aux := { s.aux with outw := s.aux.outw.del slot } } : State).mbResult? mb stOk
  | _ => ({ s with aux := { s.aux with mask := 0, evFirst := none, cmdRevoking := none } } : State).mbResult? mb stOk

/-- FW_REVOKE: the slot's grant ends at once for new accesses; the command answers when the grace is over or nothing is in
flight (R141, R274). -/
def execFwRevoke (mb : Nat) (s : State) : Out :=
  command mb 0x723 s (aux := true) (k := fun s m =>
    let kind := m.arg 4 1
    let slot := m.arg 5 1
    let dl := s.now + m.arg 8 4 * 1000
    if !m.clean [(4, 1), (5, 1), (8, 4)] || kind > 2 || slot ≥ (if kind = 2 then 1 else 16) then .done s stFwBadArg []
    else
      let held : Bool := match kind with | 0 => s.aux.inw.has slot | 1 => s.aux.outw.has slot | _ => s.aux.evFirst.isSome
      if !held then .done s stOk []
      else
        let rv (w : FwWin) : FwWin := { w with revoking := some (dl, some mb) }
        match kind with
        | 0 =>
          let s1 : State := { s with aux := { s.aux with inw := s.aux.inw.upd {} slot rv } }
          .later (if s.lastCache slot then s1.recallAux else s1)
        | 1 => .later { s with aux := { s.aux with outw := s.aux.outw.upd {} slot rv } }
        | _ => .later { s with aux := { s.aux with mask := 0, evFirst := none, cmdRevoking := some (dl, some mb) } })

/-- FW_REVOKE_CANCEL: the grace is over, or nothing is in flight; the last window with the cache right goes when no directory
names agent 65 (R274). -/
def execFwRevokeCancel (kind slot : Nat) (s : State) : Out :=
  if kind > 2 || slot ≥ 16 then .refused .illFormed
  else
    let r : Option (Nat × Option Nat) := match kind with
      | 0 => (s.aux.inw.get {} slot).revoking
      | 1 => (s.aux.outw.get {} slot).revoking
      | _ => s.aux.cmdRevoking
    match r with
    | none => .next s
    | some (dl, mb) =>
      if kind ≠ 0 then .next (s.fwRevoked kind slot mb)
      else
        let s1 := if dl ≤ s.now then s.auxCancel (s.aux.inw.get {} slot) else s
        if s.now < dl ∧ !s.auxQuiet then .next s1
        else if s.lastCache slot && !(s1.auxOut && s1.auxQuiet) then .next s1.recallAux
        else .next (s1.fwRevoked 0 slot mb)

/- The die's own accesses. -/

/-- Type of a violation (R276). -/
def auxType : AuxAcc → Nat | .read => 1 | .write => 2 | _ => 3

def State.auxReply (s : State) (v : Nat) (err : Bool) : State := { s with aux := { s.aux with replies := s.aux.replies ++ [(v, err)] } }

/-- A value of n bytes placed in its line. -/
def auxLine (a n : Nat) (v : BitVec 1024) : LMask × Line := (maskAt (a % 128) n, lineAt (a % 128) n v.toNat)

/-- An atomic of n bytes at the home (R35); the answer holds the old line. A poisoned line is not changed. -/
def State.ncAmo (s : State) (a n op : Nat) (v cmp : Word) (hint : Nat) : MR :=
  match s.ncRead (a / 128) hint with
  | .ok s1 d p =>
    if p then .ok s1 d true
    else
      let mod := 2 ^ (8 * n)
      let old := lineBytes d (a % 128) n
      let w := amoValue (match op with
        | 0 => .add | 1 => .and | 2 => .or | 3 => .xor | 4 => .swap | 5 => .cas | 6 => .min | 7 => .max | 8 => .minu | 9 => .maxu
        | _ => .fadd) (n = 8) old (v.toNat % mod) (cmp.toNat % mod)
      match s1.ncWrite (a / 128) (maskAt (a % 128) n) (lineAt (a % 128) n w) false hint with
      | .ok s2 _ _ => .ok s2 d false
      | r => r
  | r => r

/-- AUX_INBOUND_ACCESS of at most 8 B within a line, or of a whole line: passed inside a window with its right, otherwise
dropped; a read that is dropped gets an error completion (R272). A caching access that misses sends its request, and is
offered again when the grant is installed. -/
def execAuxInboundAccess (k : AuxAcc) (addr size : Nat) (value : BitVec 1024) (s : State) : Out :=
  if !(size == 1 || size == 2 || size == 4 || size == 8 || size == 128) || addr % size ≠ 0 || addr ≥ 2 ^ 56 then .refused .illFormed
  else if s.fld .fwStatus 0 0 1 1 = 0 then .next s
  else
    let right : Nat := match k with | .read => 0 | .write => 1 | .atomic .. => 2 | _ => 3
    let isRead : Bool := match k with | .write | .cstore => false | _ => true
    match List.find? (fun (w : Nat × FwWin) => w.2.covers addr size && w.2.right right) s.aux.inw with
    | none =>
      let s1 := s.fwViolation (auxType k) addr
      .next (if isRead then s1.auxReply 0 true else s1)
    | some (_, w) =>
      let (mask, d) := auxLine addr size value
      let l := addr / 128
      let reply (r : MR) : Out := match r with
        | .wait => .next s
        | .bus => .next (if isRead then s.auxReply 0 true else s)
        | .ok s1 x p => .next (if isRead then s1.auxReply (lineBytes x (addr % 128) size) p else s1)
      match k with
      | .read => reply (s.ncRead l w.hint)
      | .write => reply (s.ncWrite l mask d false w.hint)
      | .atomic op cmp => reply (s.ncAmo addr (if size = 8 then 8 else 4) op (value.setWidth 64) cmp w.hint)
      | .cload =>
        let c := s.cline 65 l
        if c.st.readable then .next (s.auxReply (lineBytes c.data (addr % 128) size) c.poison)
        else if c.st = .I then .next ((s.missLoad 65 l 0 w.hint .none').getD s) else .next s
      | .cstore =>
        let c := s.cline 65 l
        match c.st with
        | .M | .E =>
          .next (s.setCline 65 l { c with st := .M, data := mergeLine c.data d mask, poison := c.poison && !maskFull mask })
        | _ => .next ((s.missStore 65 l 1 w.hint .none').getD s)

/-- AUX_EVENT_POST: a code inside the granted range is posted, any other is discarded and logged (R272). -/
def execAuxEventPost (code : Nat) (payload : List Byte) (s : State) : Out :=
  if code ≥ 2 ^ 16 ∨ payload.length > 48 then .refused .illFormed
  else if s.fld .fwStatus 0 0 1 1 = 0 then .next s
  else match s.aux.evFirst with
    | some f => if f ≤ code ∧ code ≤ f + 15 then .next (s.post code 14 (payload.map (fun b => (1, b.toNat)))) else .next (s.fwViolation 6 code)
    | none => .next (s.fwViolation 6 code)

/- Bring-up and the link. -/

/-- AUX_BRINGUP: HD reads the die's identifier and compares it with the part number's (R271). -/
def execAuxBringup (id : Nat) (s : State) : Out :=
  if id ≥ 2 ^ 16 then .refused .illFormed
  else if s.fld .fwStatus 0 0 0 1 = 0 || !s.aux.inReset then .next s
  else
    let ok : Bool := id == Config.auxId.toNat
    let s1 := ((s.setFld .fwStatus 0 0 8 16 id).setFld .fwStatus 0 0 1 1 ok.toNat).setFld .fwStatus 0 0 2 1 (!ok).toNat
    let s2 := if ok then ({ s1 with aux := { s1.aux with inReset := false } } : State).rejoin 65 else s1
    .next (s2.post evAuxState 13 [(1, ok.toNat), (1, (!ok).toNat), (1, s2.aux.cause)])

/-- AUX_UCIE_LINK_DOWN (R275). -/
def execAuxUcieLinkDown (s : State) : Out :=
  if s.fld .fwStatus 0 0 1 1 = 0 then .next s else .next (s.resetAux 1)

end Sys2Proof.Machine
end

