-- ==== Sys2Proof/Machine/Collective.lean ====
section
/-! DEFINITION. The collective engine (R295 to R299, R318, R319): instances, shards and their owners, contributions, closing,
and the completion record. -/

namespace Sys2Proof.Machine

/- Tables in local memory that commands read and write. -/

/-- n bytes from an address, and whether a line of them is poisoned. None: a line is in use. -/
def State.lineBytesFrom (s : State) (l : Nat) : Nat → Option (State × List Byte × Bool)
  | 0 => some (s, [], false)
  | n + 1 =>
    match s.ncRead l 1 with
    | .ok s1 d p => (State.lineBytesFrom s1 (l + 1) n).map (fun x => (x.1, (upTo 128).map (fun i => lineByte d i) ++ x.2.1, p || x.2.2))
    | _ => none

def State.readBytes (s : State) (a n : Nat) : Option (State × List Byte × Bool) :=
  (s.lineBytesFrom (a / 128) (ceilDiv (a % 128 + n) 128)).map (fun x => (x.1, (x.2.1.drop (a % 128)).take n, x.2.2))

/-- Bytes from an address on, line by line; the last argument bounds the lines. None: a line is in use. -/
def State.writeBytes (s : State) (a : Nat) (b : List Byte) : Nat → Option State
  | 0 => some s
  | n + 1 =>
    if b.isEmpty then some s
    else
      let k := 128 - a % 128
      match s.ncPut a (b.take k) 1 with
      | .ok s1 _ _ => State.writeBytes s1 (a + k) (b.drop k) n
      | _ => none

/- Shards (R296). -/

def CInst.nlines (i : CInst) : Nat := i.bytes / 128

/-- First line of shard r of n. -/
def CInst.first (i : CInst) (n r : Nat) : Nat := r * i.nlines / n
def CInst.lines (i : CInst) (n r : Nat) : List Nat := (upTo (i.first n (r + 1) - i.first n r)).map (fun k => i.first n r + k)
/-- The shard of a line. -/
def CInst.shardOf (i : CInst) (n line : Nat) : Nat := ((line + 1) * n - 1) / max 1 i.nlines

/-- Reduce-scatter and all-reduce. -/
def CInst.reduces (i : CInst) : Bool := i.op == 1 || i.op == 3

/-- The owner of a shard, or the next living rank in ascending order (R298). -/
def CInst.holder (i : CInst) (n r : Nat) : Nat := (((upTo n).map (fun k => (r + k) % n)).find? (fun q => i.live.elem q)).getD r

/-- Where the result lines of a shard come from. -/
def CInst.source (i : CInst) (n r : Nat) : Nat := if i.op = 4 then i.root else if i.op = 2 then r else i.holder n r

def CGrp.n (g : CGrp) : Nat := g.members.length
def CGrp.rank (g : CGrp) (a : Nat) : Option Nat := g.members.idxOf? a
def CGrp.me (g : CGrp) : Nat := (g.rank g.addr).getD 0

/-- The module holds the group's address: otherwise the group is dormant (R320). -/
def State.cgActive (s : State) (g : CGrp) : Bool := s.laddr == some g.addr

/-- Number of the next instance that would open (R320). -/
def CGrp.next (g : CGrp) : Nat :=
  match g.inst with
  | some i => if i.opened then g.first + g.ridx else i.k
  | none => g.first + g.ridx

def State.setCg (s : State) (n : Nat) (g : CGrp) : State := { s with cgs := s.cgs.set n g }

/- Arithmetic (R120). -/

/-- One element of a result from its contributions, in the order that a number names. A shard that closes without any
contribution gives zero, which the mean of none makes the NaN of 0 / 0 (R120; DESIGN CHOICE, log 83: no rule gives a value). -/
def foldElt (fp32 mean : Bool) (count code : Nat) (vs : List Nat) : Nat :=
  let ws := permute vs.length (Config.addOrder code) (if fp32 then vs else vs.map (fun v => v <<< 16))
  let sum := match ws with | [] => 0 | x :: r => r.foldl (fun acc w => (f32.add 0 acc w).1) x
  let y := if mean then (f32.div 0 sum (f32.round 0 false count 0).1).1 else sum
  if fp32 then y else convElt 0 false none y

def foldLine (fp32 mean : Bool) (count code : Nat) (ls : List Line) : Line :=
  let f := if fp32 then 0xB else 0
  let n := 1024 / eltBits f
  BitVec.ofNat 1024 (((upTo n).map (fun k => (foldElt fp32 mean count (code + k) (ls.map (fun l => lineElt f l k))) <<< (k * eltBits f))).sum)

/- Moving data. -/

/-- A line of DST is written; where its home is busy it goes later. -/
def State.dstWrite (s : State) (i : CInst) (count : Nat) (x : Nat × Line × Bool) : State × CInst :=
  let i1 := { i with recv := i.recv.set x.1 count }
  match s.ncWrite (i.dst / 128 + x.1) (BitVec.allOnes 128) x.2.1 x.2.2 1 with
  | .ok s1 _ _ => (s1, i1)
  | _ => (s, { i1 with pend := i1.pend ++ [x] })

def State.dstWrites (s : State) (i : CInst) (count : Nat) (l : List (Nat × Line × Bool)) : State × CInst :=
  l.foldl (fun a x => a.1.dstWrite a.2 count x) (s, i)

/-- Lines waiting for their home are tried again. -/
def State.flushPend (s : State) (i : CInst) : State × CInst :=
  i.pend.foldl (fun a x => a.1.dstWrite a.2 (a.2.recv.get 0 x.1) x) (s, { i with pend := [] })

/-- Lines of SRC, or none where one is in use. -/
def State.srcRead (s : State) (i : CInst) : List Nat → Option (State × List (Nat × Line × Bool))
  | [] => some (s, [])
  | l :: r =>
    match s.ncRead (i.src / 128 + l) 1 with
    | .ok s1 d p => (State.srcRead s1 i r).map (fun x => (x.1, (l, d, p) :: x.2))
    | _ => none

/-- One packet for each line (R284, R297). -/
def State.colSend (s : State) (gid : Nat) (g : CGrp) (i : CInst) (t count : Nat) (l : List (Nat × Line × Bool)) : State :=
  l.foldl (fun s1 x => s1.inject { pktBlank with
    dst := at' g.members 0 t, tc := 2, op := 0x20, offset := (i.k % 8192) * 2 ^ 28 + x.1, group := gid, ccount := count,
    poison := x.2.2, data := (upTo 128).map (fun b => lineByte x.2.1 b) }) s

/-- Lines of a rank's contribution to a shard that this module folds. -/
def CInst.contribute (i : CInst) (n r q count : Nat) (l : List (Nat × Line × Bool)) : CInst :=
  let sh := i.shards.get {} r
  if !i.shards.has r || sh.closed || sh.got.has q || !i.live.elem q then i
  else
    let sh1 := l.foldl (fun (sh : Shard) x =>
      { sh with lines := sh.lines.set (q * 2 ^ 28 + x.1) x.2.1, poison := if x.2.2 then insertN (q * 2 ^ 28 + x.1) sh.poison else sh.poison }) sh
    let whole := (i.lines n r).all (fun x => sh1.lines.has (q * 2 ^ 28 + x))
    { i with shards := i.shards.set r (if whole then { sh1 with got := sh1.got.set q count } else sh1) }

/-- A shard closes with the whole contributions that it has; its owner writes it, and in an all-reduce sends it to every
living member. A stand-in of a reduce-scatter writes nothing (R298). -/
def State.closeShard (s : State) (gid : Nat) (g : CGrp) (i : CInst) (r : Nat) : State × CInst :=
  let sh := i.shards.get {} r
  let ranks := sh.got.map (·.1)
  let count := (sh.got.map (·.2)).sum
  let ls := i.lines g.n r
  let code := s.ctr.free
  let s1 := ({ s with ctr := { s.ctr with free := code + 64 * ls.length } } : State).count 580 0x304 ls.length
  let out := ls.zipIdx.map (fun x =>
    (x.1, foldLine i.fp32 i.mean count (code + 64 * x.2) (ranks.map (fun q => sh.lines.get 0 (q * 2 ^ 28 + x.1))),
     ranks.any (fun q => sh.poison.elem (q * 2 ^ 28 + x.1))))
  let i1 := { i with shards := i.shards.set r { sh with closed := true, lines := [], poison := [] } }
  if i.op = 1 then (if r = g.me then s1.dstWrites i1 count out else (s1, i1))
  else
    let s2 := (i.live.filter (· ≠ g.me)).foldl (fun s2 t => s2.colSend gid g i t count out) s1
    s2.dstWrites i1 count out

/-- A shard goes to a rank: to this module itself at once. Kept while a line of SRC is in use. -/
def State.sendShard (s : State) (gid : Nat) (g : CGrp) (i : CInst) (x : Nat × Nat) : State × CInst :=
  match s.srcRead i (i.lines g.n x.1) with
  | none => (s, { i with send := i.send ++ [x] })
  | some (s1, l) =>
    if x.2 ≠ g.me then (s1.colSend gid g i x.2 1 l, i)
    else if i.reduces then (s1, i.contribute g.n x.1 g.me 1 l)
    else s1.dstWrites i 1 l

/-- What an open instance can do now: lines on their way, shards to send, shards whose living members have all
contributed. -/
def State.cgStep (s : State) (gid : Nat) : State :=
  match s.cgs.find? gid with
  | none => s
  | some g => match g.inst with
    | none => s
    | some i0 =>
      if !i0.opened then s
      else
        let (s1, i1) := s.flushPend i0
        let (s2, i2) := i1.send.foldl (fun a x => a.1.sendShard gid g a.2 x) (s1, { i1 with send := [] })
        let ready := i2.shards.filter (fun (e : Nat × Shard) => !e.2.closed && i2.live.all (fun q => e.2.got.has q))
        let (s3, i3) := ready.foldl (fun a e => a.1.closeShard gid g a.2 e.1) (s2, i2)
        s3.setCg gid { g with inst := some i3 }

def State.cgSteps (s : State) : State := s.cgs.foldl (fun s1 (e : Nat × CGrp) => s1.cgStep e.1) s

/-- Lines of DST that nothing will bring are written poisoned. -/
def State.loseLines (s : State) (i : CInst) (l : List Nat) : State × CInst :=
  s.dstWrites i 0 (l.map (fun x => (x, Config.lostLine (i.dst / 128 + x) s.ctr.age, true)))

/-- A rank is dead while the instance is open (R298). -/
def State.rankDead (s : State) (g : CGrp) (i : CInst) (q : Nat) : State × CInst :=
  let n := g.n
  let full (r : Nat) : Bool := (i.lines n r).all (fun x => i.recv.has x)
  let i1 := { i with live := i.live.filter (· ≠ q), send := i.send.filter (fun x => x.2 ≠ q) }
  match i.op with
  | 2 => if (i.live.elem q) && !full q then s.loseLines { i1 with shardLost := true } (i.lines n q) else (s, i1)
  | 4 =>
    let left := (upTo i.nlines).filter (fun x => !i.recv.has x)
    if q = i.root ∧ !left.isEmpty then s.loseLines { i1 with rootLost := true } left else (s, i1)
  | _ =>
    let moved := (upTo n).filter (fun r => i.holder n r == q && !(i.lines n r).isEmpty && !(i.op == 3 && full r))
    (s, moved.foldl (fun (i2 : CInst) r =>
      let t := i2.holder n r
      { i2 with send := i2.send ++ [(r, t)], shards := if t = g.me then i2.shards.set r { standIn := true } else i2.shards }) i1)

/-- An instance opens: it awaits the members not marked dead (R297, R298, R318). -/
def State.cgOpen (s : State) (gid : Nat) (g : CGrp) (i : CInst) : State :=
  let n := g.n
  let live := (upTo n).filter (fun q => !s.fab.dead.elem (at' g.members 0 q))
  let i1 := { i with opened := true, openedAt := s.now, live := live }
  let some' := (upTo n).filter (fun r => !(i1.lines n r).isEmpty)
  let i2 := match i.op with
    | 2 => { i1 with send := if some'.elem g.me then live.map (fun t => (g.me, t)) else [] }
    | 4 => { i1 with send := if g.me = i.root then live.flatMap (fun t => some'.map (fun r => (r, t))) else [] }
    | _ => { i1 with send := some'.map (fun r => (r, i1.holder n r)),
                     shards := (some'.filter (fun r => i1.holder n r = g.me)).map (fun r => (r, { standIn := r ≠ g.me })) }
  let (s1, i3) := match i.op with
    | 2 => (let lost := some'.filter (fun r => !live.elem r)
            if lost.isEmpty then (s, i2) else s.loseLines { i2 with shardLost := true } (lost.flatMap (fun r => i2.lines n r)))
    | 4 => if live.elem i.root then (s, i2) else s.loseLines { i2 with rootLost := true } (upTo i.nlines)
    | _ => (s, i2)
  (s1.setCg gid { g with inst := some i3 }).cgStep gid

/-- A member of a group is declared dead. -/
def State.colDead (s : State) (a : Nat) : State :=
  s.cgs.foldl (fun s1 (e : Nat × CGrp) =>
    match e.2.rank a, e.2.inst with
    | some q, some i =>
      if i.opened && i.live.elem q then
        let (s2, i1) := s1.rankDead e.2 i q
        (s2.setCg e.1 { e.2 with inst := some i1 }).cgStep e.1
      else s1
    | _, _ => s1) s

/- Records (R296). -/

/-- The instance that a record describes. -/
def instOf (g : CGrp) (k now : Nat) (d : Line) (off : Nat) (poison unlocked : Bool) : CInst :=
  let f (o n : Nat) : Nat := lineBytes d (off + o) n
  let n := f 0x18 8
  let range (a len : Nat) : Bool := a % 128 == 0 && (len == 0 || localRange a len)
  let op := f 0 1
  let i : CInst := { k := k, op := op, fp32 := f 1 1 % 2 == 1, mean := (f 1 1 >>> 1) % 2 == 1, root := f 2 2, src := f 8 8,
                     dst := f 0x10 8, bytes := n, start := f 0x20 8, compl := f 0x30 8 }
  let t0 := if i.start = 0 then now else i.start
  let reads := match op with
    | 2 => range (i.src + 128 * i.first g.n g.me) (128 * (i.lines g.n g.me).length)
    | 4 => g.me != i.root || range i.src n
    | _ => range i.src n
  let writes := match op with
    | 1 => range (i.dst + 128 * i.first g.n g.me) (128 * (i.lines g.n g.me).length)
    | _ => range i.dst n
  let bad := poison || op > 4 || f 1 1 ≥ 4 || (op == 4 && i.root ≥ g.n) || f 4 4 != 0 || f 0x38 8 != 0 || n % 128 != 0 || n > 2 ^ 35 ||
    i.compl % 16 != 0 || !localRange i.compl 16
  { i with deadline := if f 0x28 8 = 0 then t0 + g.defdl * 1000 else f 0x28 8,
           unlocked := unlocked && (i.start != 0 || f 0x28 8 != 0),
           bad := bad || !reads || !writes }

/-- COLLECTIVE_START: the next record of the ring is taken (an empty one is read again, R71), and the instance opens when
fabric time has reached its START. -/
def execCollectiveStart (gid : Nat) (s : State) : Out :=
  if gid ≥ 4096 then .refused .illFormed
  else match s.cgs.find? gid with
    | none => .next s
    | some g =>
      let go (s : State) (g : CGrp) (i : CInst) : State :=
        if !i.opened && !i.bad && !i.unlocked && !i.cancelled && i.start ≤ s.now then s.cgOpen gid g i else s
      if !s.cgActive g || g.destroying.isSome then .next s
      else match g.inst with
      | some i => .next (go s g i)
      | none =>
        if (s.reg .cgDoorbell gid 0).toNat ≤ g.ridx then .next s
        else
          let a := g.ring + 64 * (g.ridx % g.size)
          match s.ncRead (a / 128) 1 with
          | .ok s1 d p =>
            if !p && lineBytes d (a % 128) 1 == 0 then .next s1
            else match s1.ncPut a [0] 1 with
              | .ok s2 _ _ =>
                let i := instOf g (g.first + g.ridx) s.now d (a % 128) p (s.fld .fabTimeStatus 0 0 0 2 == 0)
                let g1 := { g with ridx := g.ridx + 1, inst := some i }
                .next (go (s2.setCg gid g1) g1 i)
              | _ => .next s
          | _ => .next s

/- Packets (R297). -/

/-- A delivered packet has been acted on. -/
def State.takePkt (s : State) (k : Pkt) : State := { s with fab := { s.fab with inbox := eraseFirst (fun x => x == k) s.fab.inbox } }

/-- Lines of a packet's payload. -/
def pktLines (k : Pkt) : List (Nat × Line × Bool) :=
  (upTo (k.data.length / 128)).map (fun j => (k.offset % 2 ^ 28 + j, lineOfBytes ((k.data.drop (128 * j)).take 128), k.poison))

/-- COLLECTIVE_DATA: a contribution, a result, or the data of an all-gather or broadcast. A packet of an instance that has
not opened here, or of a shard whose new holder is not known here, waits; one that is too late is discarded. -/
def execCollectiveData (k : Pkt) (s : State) : Out :=
  if k.data.length > 512 then .refused .illFormed
  else
  let s0 := s.takePkt k
  match s.cgs.find? k.group with
  | none => .next s0
  | some g => match g.rank k.src with
    | none => .next s0
    | some q =>
      let cur := match g.inst with | some i => i.k | none => g.first + g.ridx
      let diff := ((k.offset >>> 28) % 8192 + 8192 - cur % 8192) % 8192
      let i := (g.inst).getD {}
      if diff ≥ 4096 then .next s0
      else if diff ≠ 0 || !(i.opened || i.bad || i.unlocked || i.cancelled) then .next s
      else if !i.opened then .next s0
      else
        let l := pktLines k
        let r := i.shardOf g.n (k.offset % 2 ^ 28)
        let count := max 1 k.ccount
        if k.tc ≠ 2 || !(k.op == 0x20 || k.op == 0x21) || k.data.length % 128 ≠ 0 || l.isEmpty || !l.all (fun x => x.1 < i.nlines && i.shardOf g.n x.1 == r) then
          .next s0
        else if i.reduces ∧ i.shards.has r then
          .next ((s0.setCg k.group { g with inst := some (i.contribute g.n r q count l) }).cgStep k.group)
        else if q ≠ i.source g.n r then .next (if i.reduces then s else s0)
        else if i.op = 1 then .next s0
        else
          let (s1, i1) := s0.dstWrites i (if i.reduces then count else 1) (l.filter (fun x => !i.recv.has x.1))
          .next (s1.setCg k.group { g with inst := some i1 })

/- Ends. -/

/-- Open shards of a kind close with the contributions present. -/
def State.closeAll (s : State) (gid : Nat) (g : CGrp) (i : CInst) (p : Nat → Shard → Bool) : State :=
  let (s1, i1) := (i.shards.filter (fun (e : Nat × Shard) => !e.2.closed && p e.1 e.2)).foldl (fun a e => a.1.closeShard gid g a.2 e.1) (s, i)
  (s1.setCg gid { g with inst := some i1 }).cgStep gid

/-- COLLECTIVE_DEADLINE (R298). Lines of an all-gather or a broadcast that have not come by then are lost (DEDUCED, log 60). -/
def execCollectiveDeadline (gid : Nat) (s : State) : Out :=
  if gid ≥ 4096 then .refused .illFormed
  else match s.cgs.find? gid with
    | none => .next s
    | some g => match g.inst with
      | none => .next s
      | some i =>
        if !i.opened || s.now < i.deadline then .next s
        else if i.reduces then .next (s.closeAll gid g i (fun _ sh => !sh.standIn))
        else
          let left := (upTo i.nlines).filter (fun x => !i.recv.has x)
          if left.isEmpty then .next s
          else
            let (s1, i1) := s.loseLines (if i.op = 2 then { i with shardLost := true } else { i with rootLost := true }) left
            .next (s1.setCg gid { g with inst := some i1 })

/-- STAND_IN_DEADLINE: DEADLINE + DEFDL (R298). -/
def execStandInDeadline (gid shard : Nat) (s : State) : Out :=
  if gid ≥ 4096 then .refused .illFormed
  else match s.cgs.find? gid with
    | none => .next s
    | some g => match g.inst with
      | none => .next s
      | some i =>
        if !i.opened || s.now < i.deadline + g.defdl * 1000 then .next s
        else .next (s.closeAll gid g i (fun r sh => r == shard && sh.standIn))

def stFabNotLocked : Nat := 0x0302
def stCancelled : Nat := 0x0202

/-- Status of an instance (R299). -/
def CInst.status (i : CInst) (n : Nat) : Nat :=
  if i.bad then 0x0323 else if i.unlocked then stFabNotLocked else if i.cancelled then stCancelled
  else if i.rootLost then 0x0322 else if i.shardLost then 0x0321
  else if i.reduces && i.shards.any (fun (e : Nat × Shard) => e.2.closed && (e.2.got.map (·.2)).sum < n) || i.reduces && i.recv.any (fun (e : Nat × Nat) => e.2 < n) then 0x0320
  else 0

/-- Everything that the instance writes at DST is written. -/
def CInst.ended (i : CInst) : Bool :=
  i.pend.isEmpty &&
  (i.bad || i.unlocked || i.cancelled ||
   (i.opened && i.send.isEmpty && i.shards.all (fun (e : Nat × Shard) => e.2.closed) && (i.op == 1 || i.recv.length == i.nlines)))

/-- COLLECTIVE_COMPLETION: the completion record (R299). A group that is being destroyed then goes (R307). -/
def execCollectiveCompletion (gid : Nat) (s : State) : Out :=
  if gid ≥ 4096 then .refused .illFormed
  else match s.cgs.find? gid with
    | none => .next s
    | some g => match g.inst with
      | none => .next s
      | some i =>
        if !i.ended then .next s
        else
          let cs := (i.recv.map (·.2)).filter (fun c => i.reduces || c ≠ 0)
          let lo := match cs with | [] => 0 | c :: r => r.foldl min c
          let b := leBytes 2 (i.status g.n) ++ leBytes 2 lo ++ leBytes 2 (cs.foldl max 0) ++ leBytes 2 0 ++ leBytes 8 i.k
          let done (s0 : State) : State :=
            let s := if i.opened then s0.monRecord 10 ((s0.now - i.openedAt) / 1000) else s0
            match g.destroying with
            | some mb => ({ s with cgs := s.cgs.del gid } : State).mbResult mb stOk
            | none => s.setCg gid { g with inst := none }
          if i.compl % 16 ≠ 0 || !localRange i.compl 16 then .next (done s)
          else match s.ncPut i.compl b 1 with
            | .ok s1 _ _ => .next (done s1)
            | _ => .next s

end Sys2Proof.Machine
end

