-- ==== Sys2Proof/Machine/Watershed.lean ====
section
/-! DEFINITION. The Watershed: samples, score and state (R311 to R314), snapshots (R315 to R317), and group records that
move to a spare (R320). -/

namespace Sys2Proof.Machine

/- Samples (R312 to R314). -/

/-- A device stands behind a sensor: all but the AUX temperature of an empty site (R1, R341). -/
def State.sensorThere (s : State) (id : Nat) : Bool := id != 0x0E || s.fld .fwStatus 0 0 0 1 == 1

/-- Events of input i of a sample: die sensors at or above 95 °C are taken at the instant. -/
def State.wsEvents (s : State) (i : Nat) : Nat :=
  if i = 10 then ((upTo 15).filter (fun d => s.sensorThere d && 9500 ≤ (s.sensor d).toInt)).length else s.ws.c.get 0 i

/-- The three inputs with the largest stress; a lower number goes first. -/
def topInputs (st : List Nat) : List Nat :=
  let rank (i : Nat) : Nat := ((upTo 12).filter (fun j => at' st 0 j > at' st 0 i || (at' st 0 j == at' st 0 i && j < i))).length
  (upTo 3).flatMap (fun k => (upTo 12).filter (fun i => rank i = k))

/-- Averages, stresses and the score of a sample (R312). -/
def State.wsAverage (s : State) : State × List Nat × Nat :=
  let prior : Bool := s.fld .wsStatus 0 0 16 2 == 0
  let one (a : State × List Nat) (i : Nat) : State × List Nat :=
    let x : Int := (s.wsEvents i * 65536 : Nat)
    let f := s.ws.f.get 0 i
    let b := s.ws.b.get 0 i
    let f1 := f + (x - f).fdiv 64
    let b1 := b + (x - b).fdiv 65536
    let base : Int := if prior then (s.fld .wsIn i 0 16 16 : Nat) else b1
    let st := min 65535 ((max 0 (f1 - base)).toNat * s.fld .wsIn i 0 0 16 / 65536)
    let s1 := a.1
    (({ s1 with ws := { s1.ws with f := s1.ws.f.set i f1, b := s1.ws.b.set i b1 } } : State).setFld .wsIn i 0 32 16 st, a.2 ++ [st])
  let (s1, st) := (upTo 12).foldl one (s, [])
  let score := min 65535 st.sum
  (({ s1 with ws := { s1.ws with c := [] } } : State).setFld .wsStatus 0 0 0 16 score, st, score)

/-- WS_SAMPLE: the instant of a sample (R312 to R314). -/
def execWsSample (s : State) : Out :=
  if s.fld .wsCtrl 0 0 0 1 = 0 ∨ s.pwr.phase = .off ∨ s.pwr.phase = .held then .next s
  else
    let old := s.fld .wsStatus 0 0 0 16
    let state := s.fld .wsStatus 0 0 16 2
    let (s1, st, score) := s.wsAverage
    let n := min 65536 (s.fld .wsStatus 0 0 24 17 + 1)
    let hist : Bool := n == 65536 && 600 * 10 ^ 8 ≤ s.ref
    let s2 := (s1.setFld .wsStatus 0 0 24 17 n).setFld .wsStatus 0 0 18 1 hist.toNat
    let alert := s.fld .wsThresh 0 0 0 16
    let secure := s.fld .wsThresh 0 0 16 16
    let clear := s.fld .wsThresh 0 0 32 16
    let top := (topInputs st).map (fun i => (1, i))
    let go (s : State) (v : Nat) : State := s.setFld .wsStatus 0 0 16 2 v
    let history (s : State) : State := s.post evWsHistory 13 [(4, n)]
    let secureNow (s : State) (cause : Nat) : State := s.post evWsSecureNow 13 ([(2, score), (1, cause)] ++ top)
    if state ≠ 2 ∧ score ≥ secure then
      let s3 := secureNow (go ({ s2 with ws := { s2.ws with committed := false } } : State) 2) 0
      .next (if state = 0 ∧ hist then history s3 else s3)
    else if state = 0 ∧ hist then .next (history (go s2 1))
    else if state = 0 ∧ s.fld .wsCtrl 0 0 16 11 * 60 * 10 ^ 8 ≤ s.ref - s.ws.secured then .next (secureNow s2 1)
    else if state ≠ 2 ∧ old < alert ∧ alert ≤ score then .next (s2.post evWsAlert 13 ([(2, score)] ++ top))
    else if state = 2 ∧ score < clear ∧ s.ws.committed then
      let s3 := if hist then go s2 1 else go ({ s2 with ws := { s2.ws with secured := s.ref } } : State) 0
      .next (s3.post evWsClear 13 [(2, score)])
    else .next s2

/- Snapshots (R315 to R317). -/

def stWsBadArg : Nat := 0x0401
def stWsBusy : Nat := 0x0402
def stFabTooLate : Nat := 0x0303

/-- Regions of a list. -/
def regionsOf (b : List Byte) (n : Nat) : List (Nat × Nat) :=
  (upTo n).map (fun i => (ofLeBytes ((b.drop (16 * i)).take 8), ofLeBytes ((b.drop (16 * i + 8)).take 8)))

/-- WS_SNAPSHOT. -/
def execWsSnapshot (mb : Nat) (s : State) : Out :=
  command mb 0x401 s (fun s m =>
    let buddy := m.arg 6 2
    let list := m.arg 8 8
    let n := m.arg 0x10 2
    let start := m.arg 0x18 8
    let dest := m.arg 0x20 8
    let ok : Bool := m.clean [(4, 1), (6, 2), (8, 8), (0x10, 2), (0x18, 8), (0x20, 8), (0x28, 8)] && m.arg 4 1 ≤ 1 &&
      s.laddr.isSome && s.laddr != some buddy && buddy < 2 ^ 14 && buddy % 32 < 24 && 1 ≤ n && n ≤ 256 && localRange list (16 * n) &&
      dest % 128 == 0 && dest + 128 ≤ 2 ^ 41
    if s.ws.snap.isSome then .done s stWsBusy []
    else if !ok || !s.memOk then .done s stWsBadArg []
    else match s.readBytes list (16 * n) with
      | none => .wait
      | some (s1, b, p) =>
        let rs := regionsOf b n
        if p || !rs.all (fun r => r.1 % 128 == 0 && r.2 % 128 == 0 && (r.2 == 0 || localRange r.1 r.2)) ||
          dest + 128 + (rs.map (·.2)).sum > 2 ^ 41 then .done s stWsBadArg []
        else if start ≠ 0 ∧ s.fld .fabTimeStatus 0 0 0 2 = 0 then .done s stFabNotLocked []
        else if start ≠ 0 ∧ start < s.now + 20000 then .done s stFabTooLate []
        else if s.moverJobs ≥ 64 then .done s stMemBusy []
        else
          let sn : Snap := { gen := m.arg 4 1, buddy := buddy, nreg := n, regions := rs.filter (fun r => r.2 ≠ 0), start := start, dest := dest, step := m.arg 0x28 8 }
          .done (({ s1 with ws := { s1.ws with snap := some sn } } : State).setFld .wsStatus 0 0 20 1 1) stOk [])

/-- The commit record (R316). -/
def Snap.record (n : Snap) (valid srcaddr : Nat) : Line :=
  lineOfBytes (leBytes 1 valid ++ leBytes 1 n.gen ++ leBytes 2 srcaddr ++ leBytes 2 n.nreg ++ leBytes 2 0 ++ leBytes 8 n.step ++
    leBytes 8 ((n.regions.map (·.2)).sum) ++ leBytes 8 n.startTime ++ leBytes 8 (if valid = 1 then n.poisoned else 0))

/-- Address of an offset at a module (R171). -/
def remoteAddr (laddr off : Nat) : Nat := 2 ^ 55 + laddr * 2 ^ 41 + off

/-- The commit record leaves for the slot; a buddy that the fabric does not know is a bus error (R168). -/
def State.snapRecord (s : State) (n : Snap) (valid : Nat) : State :=
  let a := remoteAddr n.buddy n.dest
  let s1 : State := { s with ws := { s.ws with snap := some n } }
  if s.remoteKnown a then s1.remoteAccess (.ext 2) 1 (a / 128) (BitVec.allOnes 128) (n.record valid ((s.laddr).getD 0)) 1 0
  else s1.snapFail stWsCopyFailed 0

/-- SNAPSHOT_START: the slot's record is written with VALID = 0; the copy begins when it is there. -/
def execSnapshotStart (s : State) : Out :=
  match s.ws.snap with
  | none => .next s
  | some n => if n.stage = 0 ∧ n.start ≤ s.now then .next (s.snapRecord { n with stage := 1, startTime := s.now } 0) else .next s

/-- SNAPSHOT_COMMIT: every data line is visible at the buddy. -/
def execSnapshotCommit (s : State) : Out :=
  match s.ws.snap with
  | none => .next s
  | some n => if n.stage = 1 ∧ n.copied then .next (s.snapRecord { n with stage := 2 } 1) else .next s

/-- The answer of a commit record's write: the copy begins, or the snapshot is complete. -/
def State.snapAnswer (s : State) (fail : Bool) : State :=
  match s.ws.snap with
  | none => s
  | some n =>
    if fail then s.snapFail stWsCopyFailed 0
    else if n.stage = 1 then
      match n.regions with
      | [] => { s with ws := { s.ws with snap := some { n with copied := true } } }
      | (a, len) :: _ => { s with jobs := s.jobs ++ [{ kind := 2, src := a, dst := remoteAddr n.buddy (n.dest + 128), len := len, hint := 1 }] }
    else
      let s1 : State := { s with ws := { s.ws with snap := none, committed := true, secured := s.ref } }
      ((s1.setFld .wsStatus 0 0 20 1 0).setReg .wsSnapTime 0 0 (BitVec.ofNat 64 s.now)).post evWsSnapshotDone 13
        [(2, stOk), (8, n.step), (4, n.poisoned), (8, 0)]

/- Group records (R320). -/

/-- Bytes of a group's entry. -/
def cgEntry (gid : Nat) (g : CGrp) : List Byte :=
  let size := 64 + 64 * ceilDiv (2 * g.n) 64
  padTo size (padTo 64 (leBytes 2 gid ++ leBytes 2 g.n ++ leBytes 4 g.defdl ++ leBytes 8 g.next ++ leBytes 2 g.size ++ leBytes 2 0 ++ leBytes 4 size) ++
    g.members.flatMap (fun a => leBytes 2 a))

/-- WS_CG_EXPORT. -/
def execWsCgExport (mb : Nat) (s : State) : Out :=
  command mb 0x402 s (fun s m =>
    let filter := m.arg 6 2
    let dest := m.arg 8 8
    let limit := m.arg 0x10 4
    if !m.clean [(6, 2), (8, 8), (0x10, 4)] || dest % 64 ≠ 0 || !(limit == 0 || localRange dest limit) then .done s stWsBadArg []
    else
      let gs := s.cgs.filter (fun (e : Nat × CGrp) => filter == 0xFFFF || e.2.members.elem filter)
      let b := gs.flatMap (fun (e : Nat × CGrp) => cgEntry e.1 e.2)
      let resp := leBytes 2 gs.length ++ leBytes 2 0 ++ leBytes 4 b.length
      if b.length > limit || !s.memOk then .done s stWsBadArg resp
      else match s.writeBytes dest b (b.length / 128 + 2) with
        | none => .wait
        | some s1 => .done s1 stOk resp)

/-- A request ring of a group: a power of two of records from 16 to 4,096, in local memory (R295). -/
def cgRingOk (base size : Nat) : Bool := powerOf2 size && 16 ≤ size && size ≤ 4096 && base % 64 == 0 && localRange base (64 * size)

/-- WS_CG_IMPORT. -/
def execWsCgImport (mb : Nat) (s : State) : Out :=
  command mb 0x403 s (fun s m =>
    let a := m.arg 8 8
    let base := m.arg 0x10 8
    let addr := m.arg 0x20 2
    if !m.clean [(8, 8), (0x10, 8), (0x18, 2), (0x20, 2)] || a % 64 ≠ 0 || !localRange a 64 || !s.memOk then .done s stWsBadArg []
    else match s.readBytes a 64 with
      | none => .wait
      | some (s1, h, p) =>
        let f (o n : Nat) : Nat := ofLeBytes ((h.drop o).take n)
        let gid := f 0 2
        let n := f 2 2
        let size := if m.arg 0x18 2 = 0 then f 0x10 2 else m.arg 0x18 2
        if p || gid ≥ 4096 || n = 0 || n > 12288 || !cgRingOk base size || !localRange (a + 64) (2 * n) then .done s stWsBadArg []
        else match s1.readBytes (a + 64) (2 * n) with
          | none => .wait
          | some (s2, b, p2) =>
            let ms := (upTo n).map (fun i => ofLeBytes ((b.drop (2 * i)).take 2))
            if p2 || ms.any (fun x => x ≥ 2 ^ 14 || x % 32 ≥ 24) then .done s stWsBadArg []
            else if ms.count addr ≠ 1 then .done s 0x0301 []
            else if s.cgs.has gid then .done s 0x0306 []
            else
              let g : CGrp := { members := ms, addr := addr, ring := base, size := size, defdl := f 4 4, first := f 8 8 }
              .done ((s2.setCg gid g).setReg .cgDoorbell gid 0 0) stOk [])

end Sys2Proof.Machine
end

