-- ==== Sys2Proof/Machine/Fabric.lean ====
section
/-! DEFINITION. The Col fabric as shared operations: what a port sends, its state and events (R280, R281), discovery (R282),
lost partners (R303, R304), fabric time (R300, R301), and the end of a fabric-remote request (R293). -/

namespace Sys2Proof.Machine

/- Ports. -/

/-- The HD end of the link to the OE of a port (R9): it carries what the port sends and receives (R11, R269). -/
def oeEnd (p : Nat) : Nat := 421 + p / 4
def State.oeUp (s : State) (p : Nat) : Bool := s.linkUp (oeEnd p)

/-- Credits of a lane (R286). -/
def laneCap (v : Nat) : Nat := max 3 (Config.laneFrames v)

/-- The packet that a port sends next: the first whose lane has a credit for each of its frames. The packets of a lane stay
in order (R284, R286). -/
def nextOut (l : LinkS) : List Pkt → List Nat → Option Pkt
  | [], _ => none
  | k :: r, held =>
    if !held.elem (pktLane k) && pktFrames k ≤ l.credits.get 0 (pktLane k) then some k else nextOut l r (pktLane k :: held)

/-- The frames of a packet take their credits and join the replay buffer (R262, R280). -/
def sentFrames (l : LinkS) (v now : Nat) : Nat → LinkS
  | 0 => l
  | n + 1 => sentFrames (({ l with credits := l.credits.upd 0 v (· - 1) } : LinkS).put [v] 65536 now) v now n

/-- Every port that transmits sends one packet (DESIGN CHOICE, log 4), and its frames are counted. -/
def State.transmit (s : State) : State :=
  (s.fab.ports.filter (fun (e : Nat × ColPort) =>
    !e.2.txq.isEmpty && s.oeUp e.1 && (s.portUpQ e.1 || (s.portState e.1 == 5 && e.2.drainEnd.isSome)))).foldl
    (fun s1 (e : Nat × ColPort) => match nextOut e.2.lnk e.2.txq [] with
      | none => s1
      | some k =>
        if e.2.lnk.sent.length + pktFrames k > 8192 then s1
        else (s1.setPort e.1 { e.2 with txq := eraseFirst (fun x => x == k) e.2.txq,
                                        lnk := sentFrames e.2.lnk (pktLane k) s1.now (pktFrames k) }).count 580 0x301 (pktFrames k)) s

/- Frames as they arrive (R280, R284). -/

/-- The header of a frame: byte 5 names the lane of the credits, whose fourth bit is bit 0 of byte 6 (DESIGN CHOICE, log 44:
the layout has three bits for sixteen lanes). -/
def colHdr (fl : BitVec 2048) : FlitHdr :=
  let w (i : Nat) : Nat := flitByte fl i + 256 * flitByte fl (i + 1)
  { seq := w 0, ack := w 2, nak := flitByte fl 4 % 2 == 1, epoch := 0,
    vc := flitByte fl 5 % 8 + 8 * (flitByte fl 6 % 2), cred := flitByte fl 5 / 8 }

/-- The 61 payload slots of a frame. -/
def colPayload (fl : BitVec 2048) : List Byte := (upTo 244).map (fun i => BitVec.ofNat 8 (flitByte fl (8 + i)))

/-- LEN of a header (R284). -/
def pktLen (b : List Byte) : Nat := ofLeBytes (b.take 8) >>> 53

/-- A packet from its bytes (R284). -/
def pktOf (b : List Byte) : Pkt :=
  let n := ofLeBytes (b.take 32)
  let f (lo w : Nat) : Nat := (n >>> lo) % 2 ^ w
  { dst := f 0 14, src := f 14 14, tc := f 28 3, epoch := f 31 1, op := f 32 8, hops := f 40 3, nm := f 43 1 == 1, via := f 44 9,
    offset := f 64 41, group := f 105 12, ccount := f 117 14, tag := f 131 16, tstamp := f 147 16, status := f 163 8,
    hint := f 171 3, scope := f 174 3, poison := f 177 1 == 1, data := (b.drop 32).take (pktLen b) }

/-- The whole packets at the front of a port's payload, and what is left. A slot of zeros where a packet would begin is idle,
and a reserved LEN discards what has come (DESIGN CHOICE, log 44). -/
def takePkts : Nat → List Byte → List Pkt × List Byte
  | 0, b => ([], b)
  | n + 1, b =>
    if 4 ≤ b.length ∧ ofLeBytes (b.take 4) = 0 then takePkts n (b.drop 4)
    else if b.length < 32 then ([], b)
    else if pktLen b > 512 then ([], [])
    else
      let size := 32 + 4 * ceilDiv (pktLen b) 4
      if b.length < size then ([], b)
      else
        let (ks, r) := takePkts n (b.drop size)
        (pktOf b :: ks, r)

/-- The payload of an accepted frame: packets that are whole wait for PACKET_RECEIVE in the receive buffers of their lanes. -/
def ColPort.load (x : ColPort) (b : List Byte) : ColPort :=
  let all := x.part ++ b
  let (ks, r) := takePkts (all.length / 4 + 1) all
  { x with part := r, arrived := x.arrived ++ ks,
           lnk := { x.lnk with rx := ks.foldl (fun m k => m.upd 0 (pktLane k) (· + pktFrames k)) x.lnk.rx } }

/-- A module acts on the oldest packet that a port holds: its frames leave the receive buffer. -/
def State.takeArrived (s : State) (p : Nat) : State :=
  let x := s.port p
  match x.arrived with
  | [] => s
  | k :: r => s.setPort p { x with arrived := r, lnk := { x.lnk with rx := x.lnk.rx.upd 0 (pktLane k) (· - pktFrames k) } }

/-- A position in the two bytes of R345, laid out as a logical address is (R283; DEDUCED, log 62). -/
def physPos (plain member : Nat) : Nat := plain * 32 + member

/-- A port changes its state: trained wavelengths, the use of the sparing port, and the event (R281, R309, R310). -/
def State.toState (s : State) (p st : Nat) : State :=
  if s.portState p = st then s
  else
    let s1 := (s.setFld .fabPortStatus p 0 0 3 st).setFld .fabPortStatus p 0 32 4 (if st = 2 then 15 else 0)
    let s2 := if st = 2 ∨ st = 6 then s1 else s1.setFld .fabPortStatus p 0 5 2 0
    s2.post evFabPort 13 [(1, p), (1, st), (2, physPos (s2.fld .fabPortStatus p 0 8 9) (s2.fld .fabPortStatus p 0 17 5))]

/- Fabric time (R300, R301). -/

/-- The UP port with the fewest hops to the master, the lowest number first. -/
def State.bestUp (s : State) : Option (Nat × Nat) :=
  (upTo 48).foldl (fun (acc : Option (Nat × Nat)) p =>
    let d := (s.port p).dist
    if !s.portUpQ p || d ≥ 7 then acc
    else match acc with
      | some (e, q) => if d < e then some (d, p) else some (e, q)
      | none => some (d, p)) none

/-- EV_FAB_TIME. -/
def State.timeEvent (s : State) (n : Nat) : State :=
  s.post evFabTime 13 [(1, s.fld .fabTimeStatus 0 0 0 2), (8, s.fab.master.2), (4, n)]

def State.flood (s : State) (k : Pkt) (but : Option Nat) : State :=
  ((upTo 48).filter (fun p => s.portUpQ p && but != some p)).foldl (fun s1 p => s1.sendOn p k) s

/-- PRIO and serial number of the module itself. -/
def State.ownRank (s : State) : Nat × Nat := (s.fld .fabTimeCfg 0 0 0 8, Config.serial.toNat)

/-- A TIME packet: a candidate, sent by a module that is `d` hops from it. -/
def State.timePkt (s : State) (m : Nat × Nat) (d : Nat) : Pkt :=
  { pktBlank with src := (s.laddr).getD 0, tc := 4, op := 0x40, tstamp := s.tstamp, hops := d, data := leBytes 1 m.1 ++ leBytes 8 m.2 }

/-- The best candidate that the module knows, and its distance. -/
def State.timeBest (s : State) : (Nat × Nat) × Nat :=
  if s.fab.masterSet && s.fld .fabTimeStatus 0 0 2 1 = 0 then (s.fab.master, s.fld .fabTimeStatus 0 0 8 3) else (s.ownRank, 0)

/-- The best candidate goes to one port. -/
def State.tellPort (s : State) (p : Nat) : State := s.sendOn p (s.timePkt s.timeBest.1 s.timeBest.2)

/-- The module is the master, and says so on every port (R301). -/
def State.becomeMaster (s : State) : State :=
  let s1 : State := { s with fab := { s.fab with master := s.ownRank, masterSet := true, goodSince := some s.ref, electAt := none } }
  let s2 := ((s1.setFld .fabTimeStatus 0 0 2 1 1).setFld .fabTimeStatus 0 0 8 3 0).setFld .fabTimeStatus 0 0 16 6 63
  s2.flood (s2.timePkt s2.ownRank 0) none

/-- An election ends 1 ms after it began, at most: a module that has heard of no better one is the master (R301). -/
def State.electEnd (s : State) : State :=
  match s.fab.electAt with
  | some t => if t ≤ s.ref then s.becomeMaster else s
  | none => s

/-- The path to the master is chosen again: HOLDOVER where none is left, and a new election, in which the module names
itself (R300, R301). -/
def State.retime (s : State) : State :=
  if s.fld .fabTimeStatus 0 0 2 1 = 1 then s
  else match s.bestUp with
    | some (d, p) =>
      if s.fld .fabTimeStatus 0 0 16 6 = p then s.setFld .fabTimeStatus 0 0 8 3 d
      else
        let s1 := (s.setFld .fabTimeStatus 0 0 8 3 d).setFld .fabTimeStatus 0 0 16 6 p
        { s1 with fab := { s1.fab with goodSince := none, up := none } }
    | none =>
      let s1 := (s.setFld .fabTimeStatus 0 0 8 3 7).setFld .fabTimeStatus 0 0 16 6 63
      let s2 : State := { s1 with fab := { s1.fab with goodSince := none, up := none, masterSet := false,
                                                       electAt := if s.fab.masterSet then some (s.ref + 100000) else s.fab.electAt } }
      let s3 := if s.fab.masterSet then s2.flood (s2.timePkt s2.ownRank 0) none else s2
      if s.fld .fabTimeStatus 0 0 0 2 = 1 then
        (({ s3 with fab := { s3.fab with holdSince := some s3.ref } } : State).setFld .fabTimeStatus 0 0 0 2 2).timeEvent 0
      else s3

/-- The count moves toward the master's by 1 ns in 10 µs at most, which is 100 ppm (R300). -/
def State.slew (s : State) : State :=
  if s.fld .fabTimeStatus 0 0 0 2 ≠ 1 ∨ s.fld .fabTimeStatus 0 0 2 1 = 1 ∨ s.fab.slewLeft = 0 then s
  else if s.fab.slewRoom + 10 < 10000 then { s with fab := { s.fab with slewRoom := s.fab.slewRoom + 10 } }
  else
    let (k, s1) := s.stamp
    if Config.slews k then
      let up : Bool := 0 < s.fab.slewLeft
      { s1 with now := if up then s1.now + 1 else s1.now - 1,
                fab := { s1.fab with slewRoom := 0, slewLeft := s1.fab.slewLeft + (if up then -1 else 1) } }
    else { s1 with fab := { s1.fab with slewRoom := 9990 } }

/-- A port no longer carries traffic. -/
def State.portLeft (s : State) (p : Nat) : State := (s.setPort p { s.port p with dist := 7 }).retime

/- Lost partners (R303, R304). -/

/-- The logical address of a physical position: by the active map in the module's own plain; the module holds no map of
another plain, whose members are taken as mapped to themselves (DEDUCED, log 61). -/
def State.logicalOf (s : State) (plain member : Nat) : Option Nat :=
  if plain = s.plainNo then ((upTo 24).find? (fun lm => s.mapOf s.epoch lm == some member)).map (fun lm => plain * 32 + lm)
  else some (plain * 32 + member)

/-- Plain and member of a port's partner; one that has sent no valid member counts as member 31 (DESIGN CHOICE, log 61). -/
def State.partnerPos (s : State) (p : Nat) : Nat × Nat :=
  (s.fld .fabPortStatus p 0 8 9, if s.fld .fabPortStatus p 0 22 1 = 1 then s.fld .fabPortStatus p 0 17 5 else 31)

/-- A PROBE takes another path than the port: to the own plain a detour, since the port is not UP, and to another plain a
route by a third plain, where a table has one. -/
def State.sendProbe (s : State) (a : Nat) : State :=
  let (s1, k) := s.injected { pktBlank with dst := a, tc := 3, op := 0x32 }
  if a / 32 = s1.plainNo then s1.routePkt k
  else
    let (pick, s2) := s1.stamp
    let l := (s2.viaPlains k.epoch).filter (fun q => q ≠ a / 32)
    match l[Config.viaPick pick % max 1 l.length]? with
    | some v => s2.routePkt { k with nm := true, via := v }
    | none => s2.routePkt k

/-- A port becomes SUSPECT, and a PROBE goes to the partner over another path; one that has no logical address cannot be
asked. -/
def State.suspect (s : State) (p : Nat) : State :=
  let x := s.port p
  let s1 := ((s.toState p 3).setPort p { x with probeAt := some s.now, dist := 7 }).retime
  let pos := s1.partnerPos p
  if pos.2 ≥ 24 then s1
  else match s1.logicalOf pos.1 pos.2 with
    | some a => s1.sendProbe a
    | none => s1

/-- The bytes of a DEAD notice (the manual gives no layout: DESIGN CHOICE, log 62). -/
def noticeBytes (d : DeadN) : List Byte := leBytes 2 d.plain ++ leBytes 1 d.member ++ leBytes 2 d.laddr ++ leBytes 8 d.time ++ leBytes 2 d.declarer

/-- Answers of AMO lanes and lines (R293). A line of an instruction is answered when every request for it is. -/
def State.opAnswer (s : State) (r : RemReq) (tag : Nat) (d : Line) (poison fail : Bool) : State :=
  if r.op ≠ 2 then s.answerLine tag r.line d poison fail
  else match s.ops.find? tag with
    | none => s
    | some p =>
      let wide : Bool := match p.kind with | .amo _ w => w | _ => true
      let old := lineBytes d 0 (if wide then 8 else 4)
      let p1 := { p with accs := p.accs.map (fun a => if a.lane = r.lane ∧ a.pa / 128 = r.line then { a with old := old } else a),
                         lines := p.lines.map (fun l => if l.line = r.line ∧ l.st ≠ 2 then { l with poison := l.poison || poison, err := l.err || fail } else l) }
      let s1 : State := { s with ops := s.ops.set tag p1 }
      if s1.fab.rem.any (fun q => q.w == Who.op tag && q.line == r.line) then s1
      else match p1.lines.find? (fun l => l.line = r.line) with
        | some l => s1.answerLine tag r.line 0 l.poison l.err
        | none => s1

/-- A fabric-remote request ends: its requester gets the data or a bus error, monitor 8 the time, and the next request for
the line leaves (R288, R293, R400). -/
def State.remEnd (s : State) (tag : Nat) (fail poison : Bool) (data : List Byte) : State :=
  match s.fab.rem.find? (fun r => r.tag == tag) with
  | none => s
  | some r =>
    let mine (q : RemReq) : Bool := q.tag == tag || (fail && (match r.w with | .store _ => q.w == r.w | _ => false))
    let s1 := ({ s with fab := { s.fab with rem := s.fab.rem.filter (fun q => !mine q) } } : State).monRecord 8 (s.now - r.started)
    let d := lineOfBytes data
    let s2 := match r.w with
      | .op t => s1.opAnswer r t d poison fail
      | .store sid =>
        if fail then s1.sbFail sid else if s1.fab.rem.any (fun q => q.w == r.w) then s1 else s1.sbRemove sid
      | .tileR id ln => s1.tileArrive id ln d poison fail
      | .tileW id ln => s1.tileAccept id ln fail
      | .desc c ch => s1.descArrive c ch r.line d poison fail
      | .ext 1 => s1.moverAnswer d poison fail
      | .ext 2 => s1.snapAnswer fail
      | .ext n => s1.dbgAnswer n d poison fail
    match s2.fab.rem.find? (fun q => !q.sent && q.dst == r.dst && q.line == r.line) with
    | some q => s2.sendRem q.tag
    | none => s2

/-- What a module does when a DEAD notice is new to it (R304), and when it declares a partner dead itself. -/
def State.applyDead (s : State) (d : DeadN) : State :=
  let f := s.fab
  let s1 : State := { s with fab := { f with
    notices := f.notices ++ [d], dead := if f.dead.elem d.laddr || d.laddr % 32 ≥ 24 then f.dead else f.dead ++ [d.laddr],
    deadPhys := if f.deadPhys.elem (d.plain, d.member) then f.deadPhys else f.deadPhys ++ [(d.plain, d.member)] } }
  let s2 := s1.setFld .fabStatus 0 0 40 14 s1.fab.dead.length
  let s3 := ((f.rem.filter (fun r => r.dst = d.laddr)).map (·.tag)).foldl (fun s3 t => s3.remEnd t true false []) s2
  let s4 := match s3.ws.snap with
    | some n => if n.buddy = d.laddr then s3.snapFail stWsCopyFailed (if n.stage = 1 ∧ n.bytes ≠ 0 then 128 + n.bytes else 0) else s3
    | none => s3
  (s4.colDead d.laddr).post evFabDead 13 [(2, d.laddr), (2, physPos d.plain d.member), (2, d.declarer), (8, d.time)]

/-- A notice is dealt with once, and its first copy is sent on. -/
def State.notice (s : State) (d : DeadN) : State :=
  if s.fab.notices.elem d then s
  else (s.flood { pktBlank with src := (s.laddr).getD 0, tc := 3, op := 0x31, tstamp := s.tstamp, data := noticeBytes d } none).applyDead d

/-- The partner of a port is declared dead. A position that no map names has no logical address: member 31 stands for it. -/
def State.declareDead (s : State) (p : Nat) : State :=
  let pos := s.partnerPos p
  let a := if pos.2 ≥ 24 then none else s.logicalOf pos.1 pos.2
  s.notice { plain := pos.1, member := pos.2, laddr := a.getD (pos.1 * 32 + 31), time := s.now, declarer := (s.laddr).getD 0 }

/- Discovery (R282). -/

/-- UP local ports with a partner that has sent a HELLO. -/
def State.partners (s : State) : List (Nat × ColPort) :=
  s.fab.ports.filter (fun (e : Nat × ColPort) => e.1 < 23 && s.portUpQ e.1 && e.2.known)

/-- ROOT of the module. -/
def State.root (s : State) : Nat := s.partners.foldl (fun r (e : Nat × ColPort) => min r e.2.root) Config.serial.toNat

/-- The member number by the first step that applies. -/
def State.findMember (s : State) : Option Nat :=
  let ps := s.partners
  match ps.find? (fun (e : Nat × ColPort) => e.2.mvalid) with
  | some e => some ((e.2.member + 47 - e.1) % 24)
  | none =>
    let r := s.root
    if r = Config.serial.toNat then some 0
    else match ps.find? (fun (e : Nat × ColPort) => e.2.serial = r) with
      | some e => some (23 - e.1)
      | none => none

/-- A port's partner contradicts the cabling rule or the plain number. -/
def State.miswired (s : State) (p : Nat) (x : ColPort) : Bool :=
  if p < 23 then
    x.plain != s.plainNo || x.pport != 22 - p ||
    (match s.memberNo with | some m => x.mvalid && x.member != (m + p + 1) % 24 | none => false)
  else if p < 47 then x.plain == s.plainNo
  else false

/-- The checks of a port that is up. -/
def State.checkPort (s : State) (p : Nat) : State :=
  let x := s.port p
  if !x.known || !(s.portState p == 2 || s.portState p == 6) then s
  else if s.miswired p x then (if s.portState p = 2 then (s.toState p 6).portLeft p else s) else s.toState p 2

def State.checkPorts (s : State) : State := (upTo 47).foldl (fun s1 p => s1.checkPort p) s

end Sys2Proof.Machine
end

