-- ==== Sys2Proof/Machine/FabricCmds.lean ====
section
/-! DEFINITION. The commands of the Col fabric (R278 to R310): ports, frames, discovery, lost partners, packets, fabric-remote
requests at their target and at their source, fabric time, routing banks, and the fabric commands of mailboxes. -/

namespace Sys2Proof.Machine

/- Ports and frames (R278 to R281). -/

/-- LIGHT_DETECTED on a DARK or DOWN port: it trains from the beginning. -/
def execLightDetected (p : Nat) (s : State) : Out :=
  if p ≥ 48 then .refused .illFormed
  else
    let x := s.port p
    let s1 := s.setPort p { x with light := true }
    if (s.portState p = 0 ∨ s.portState p = 4) && !x.dark then
      .next ((s1.setPort p { x with light := true, lnk := {}, part := [], missed := 0, known := false }).toState p 1)
    else .next s1

/-- A link end comes up: it sends again from the first frame without an ACK, and every lane has its credits (R263, R286). -/
def ColPort.up (x : ColPort) (now : Nat) : ColPort :=
  { x with missed := 0, lnk := { x.lnk with attempts := 0, trained := true, replays := 0, dropping := false, nakOut := false, ackAt := now,
                                            again := x.lnk.sent, credits := (upTo 16).map (fun v => (v, laneCap v)) } }

/-- COL_PORT_TRAINING: an attempt ends; a third failure makes the port DOWN. A port that comes up ends the dead mark
on its partner's position, and tells the partner who the master is (R280, R301, R304). -/
def execColPortTraining (p : Nat) (ok : Bool) (s : State) : Out :=
  if p ≥ 48 then .refused .illFormed
  else if s.portState p ≠ 1 then .next s
  else
    let x := s.port p
    if ok then
      let s1 := s.setPort p (x.up s.now)
      let s2 : State := { s1 with fab := { s1.fab with deadPhys := s1.fab.deadPhys.filter (· ≠ s.partnerPos p) } }
      .next ((s2.toState p 2).tellPort p)
    else
      let n := x.lnk.attempts + 1
      let s1 := s.setPort p { x with lnk := { x.lnk with attempts := if n ≥ 3 then 0 else n } }
      .next (if n ≥ 3 then s1.toState p 4 else s1)

/-- A port trains again, with what it has not seen acknowledged still in its buffer (R263, R280). -/
def State.portRetrain (s : State) (p : Nat) : State :=
  let x := s.port p
  ((s.setPort p { x with lnk := { x.lnk with replays := 0, attempts := 0 } }).toState p 1).portLeft p

/-- A port carries frames: in UP and SUSPECT, and HELLO frames alone when MISWIRED, while the link of its OE is up. -/
def State.framesOn (s : State) (p : Nat) : Bool :=
  s.oeUp p && (s.portState p == 2 || s.portState p == 3 || s.portState p == 6)

/-- COL_FRAME_RECEIVE (R262, R280): eight replays of one frame retrain the port (R263). -/
def execColFrameReceive (p : Nat) (fl : BitVec 2048) (fecOk : Bool) (s : State) : Out :=
  if p ≥ 48 then .refused .illFormed
  else if !s.framesOn p then .next s
  else
    let x := s.port p
    let h := colHdr fl
    if !fecOk then .next (((s.incFld .fabPortErr p 0 0 16).wsReport 7).setPort p { x with lnk := x.lnk.discard })
    else if !flitCrcOk fl || h.seq ≠ x.lnk.expect then .next (s.setPort p { x with lnk := x.lnk.discard })
    else
      let (l1, again) := x.lnk.accept h [] 65536 s.now laneCap
      let x1 : ColPort := { x with lnk := l1 }
      let s1 := (s.setPort p (if s.portState p = 6 then x1 else x1.load (colPayload fl))).count 580 0x302
      if !again then .next s1
      else
        let s2 := (s1.incFld .fabPortErr p 0 16 16).wsReport 8
        .next (if l1.replays ≥ 8 then s2.portRetrain p else s2)

/-- ACK_TIMEOUT: flits outstanding for 2 µs without an ACK train the link again (R263); 1024 + p names Col port p (R280). -/
def execAckTimeout (e : Nat) (s : State) : Out :=
  if 1024 ≤ e ∧ e < 1072 then
    let l := (s.port (e - 1024)).lnk
    if s.framesOn (e - 1024) && !l.sent.isEmpty && l.ackAt + 2000 ≤ s.now then .next (s.portRetrain (e - 1024)) else .next s
  else if (flitPartner e).isNone then .refused .illFormed
  else
    let l := s.link e
    if s.flitsOn e && !l.sent.isEmpty && l.ackAt + 2000 ≤ s.now then .next (s.linkTrain e) else .next s

/-- LOSS_OF_LIGHT (R281, R303). -/
def execLossOfLight (p : Nat) (s : State) : Out :=
  if p ≥ 48 then .refused .illFormed
  else
    let s1 := s.setPort p { s.port p with light := false }
    match s.portState p with
    | 2 => .next (s1.suspect p)
    | 1 | 6 => .next ((s1.toState p 0).portLeft p)
    | _ => .next s1

/-- HEARTBEAT_MISS: three in a row make the port SUSPECT (R303). -/
def execHeartbeatMiss (p : Nat) (s : State) : Out :=
  if p ≥ 48 then .refused .illFormed
  else if !s.portUpQ p then .next s
  else
    let x := s.port p
    let s1 := ((s.incFld .fabPortErr p 0 32 8).wsReport 8).setPort p { x with missed := x.missed + 1 }
    .next (if x.missed + 1 ≥ 3 then s1.suspect p else s1)

/-- The HELLO of a port: what the module knows of itself (R282). -/
def State.helloOf (s : State) (p : Nat) : HelloF :=
  { serial := Config.serial.toNat, plain := s.plainNo, port := p, member := (s.memberNo).getD 0, mvalid := s.memberNo.isSome, root := s.root }

/-- HELLO_TIMER: a HELLO leaves; a MISWIRED port carries nothing else (R282). -/
def execHelloTimer (p : Nat) (s : State) : Out :=
  if p ≥ 48 then .refused .illFormed
  else if !(s.oeUp p && (s.portState p == 2 || s.portState p == 6)) then .next s
  else .next (s.setPort p { s.port p with hellos := (s.port p).hellos + 1, helloOut := some (s.helloOf p) })

/-- The heartbeat of a port: its stamps and its flags (R280, R294). -/
def State.beatOf (s : State) (p : Nat) : BeatOut :=
  { stamp := s.now, echo := (s.port p).echo.1, echoAt := (s.port p).echo.2, inReset := s.inReset .warm, parked := s.fld .pwrStatus 0 0 0 3 == 3 }

/-- HEARTBEAT_TIMER: a heartbeat leaves (R280). -/
def execHeartbeatTimer (p : Nat) (s : State) : Out :=
  if p ≥ 48 then .refused .illFormed
  else if !(s.oeUp p && (s.portState p == 2 || s.portState p == 3)) then .next s
  else .next (s.setPort p { s.port p with beats := (s.port p).beats + 1, beatOut := some (s.beatOf p) })

/-- HEARTBEAT_RECEIVE: the partner's flags and stamp, and on the port toward the master the offset (R280, R300). -/
def execHeartbeatReceive (p : Nat) (h : Heartbeat) (s : State) : Out :=
  if p ≥ 48 ∨ h.offset < -(2 ^ 31) ∨ h.offset ≥ 2 ^ 31 ∨ h.stamp ≥ 2 ^ 64 then .refused .illFormed
  else if !(s.oeUp p && s.portUpQ p) then .next s
  else
    let s1 := (s.setPort p { s.port p with missed := 0, echo := (h.stamp, s.now) }).setFld .fabPortStatus p 0 7 1 (h.inReset || h.parked).toNat
    if s.fld .fabTimeStatus 0 0 16 6 ≠ p then .next s1
    else
      let good : Option Nat := if h.offset.natAbs ≤ 10 then some ((s.fab.goodSince).getD s.ref) else none
      .next (({ s1 with fab := { s1.fab with goodSince := good, up := some (h.stamp, s.ref), slewLeft := h.offset } } : State).setFld
        .fabTimeStatus 0 0 32 32 (BitVec.ofInt 32 h.offset).toNat)

/-- HELLO (R282). -/
def execHello (p : Nat) (h : HelloF) (s : State) : Out :=
  if p ≥ 48 || h.plain ≥ 512 || h.port ≥ 48 || h.member ≥ 24 || h.serial ≥ 2 ^ 64 || h.root ≥ 2 ^ 64 then .refused .illFormed
  else if !(s.oeUp p && (s.portState p == 2 || s.portState p == 6)) then .next s
  else
    let x := { s.port p with serial := h.serial, root := h.root, plain := h.plain, member := h.member, mvalid := h.mvalid, pport := h.port, known := true }
    let s1 := ((s.setPort p x).setFld .fabPortStatus p 0 8 9 h.plain).setFld .fabPortStatus p 0 17 5 h.member
    let s2 := s1.setFld .fabPortStatus p 0 22 1 h.mvalid.toNat
    let s3 := if p = 47 then s2.setFld .fabPortStatus p 0 5 2 (if h.plain = s.plainNo then 1 else 2) else s2
    let s4 := s3.checkPort p
    let s5 := if s4.memberNo.isSome then s4 else
      (match s4.findMember with
       | some m => (s4.setFld .fabId 0 0 25 5 m).setFld .fabId 0 0 30 1 1
       | none => s4)
    .next s5.checkPorts

/- Lost partners (R303, R304). -/

/-- PROBE: answered at once. -/
def execProbe (p : Nat) (k : Pkt) (s : State) : Out :=
  if p ≥ 48 || !k.wf then .refused .illFormed
  else if k.tc ≠ 3 ∨ k.op ≠ 0x32 then .next (s.takePkt k)
  else
    let (s1, a) := (s.takePkt k).injected { pktBlank with dst := k.src, tc := 3, op := 0x33 }
    .next (s1.movePkt a)

/-- PROBE_REPLY to the probe of port p: the port is DOWN, its partner alive. -/
def execProbeReply (p : Nat) (s : State) : Out :=
  if p ≥ 48 then .refused .illFormed
  else if s.portState p = 3 ∧ (s.port p).probeAt.isSome then
    .next ((s.setPort p { s.port p with probeAt := none }).toState p 4)
  else .next s

/-- PROBE_TIMEOUT: no reply in 20 µs. -/
def execProbeTimeout (p : Nat) (s : State) : Out :=
  if p ≥ 48 then .refused .illFormed
  else match (s.port p).probeAt with
    | none => .next s
    | some t =>
      if s.portState p = 3 ∧ t + 20000 ≤ s.now then
        .next (((s.setPort p { s.port p with probeAt := none }).toState p 4).declareDead p)
      else .next s

/-- DEAD_NOTICE (R304). -/
def execDeadNotice (d : DeadN) (s : State) : Out :=
  if d.plain ≥ 512 ∨ d.member ≥ 32 ∨ d.laddr ≥ 2 ^ 14 ∨ d.declarer ≥ 2 ^ 14 ∨ d.time ≥ 2 ^ 64 then .refused .illFormed else .next (s.notice d)

/- Packets (R284 to R289). -/

/-- TC and OP of R285. -/
def pktKnown (k : Pkt) : Bool :=
  match k.tc with
  | 0 => 1 ≤ k.op && k.op ≤ 3
  | 1 => 0x10 ≤ k.op && k.op ≤ 0x12
  | 2 => k.op == 0x20 || k.op == 0x21
  | 3 => 0x30 ≤ k.op && k.op ≤ 0x33
  | 4 => k.op == 0x40
  | _ => false

/-- What becomes of a packet: delivered, forwarded or discarded. DEAD notices and TIME packets go to the module itself, which
floods them. -/
def State.packetIn (s : State) (forward : Bool) (k : Pkt) : State :=
  if !pktKnown k then s.failPkt k fsBadArg
  else if (s.tstamp + 2 ^ 16 - k.tstamp) % 2 ^ 16 * 1024 > s.fab.lifetime * 1000 then
    (if k.tc = 0 then s.failPkt k fsExpired else s.incFld .fabStatus 0 0 8 16)
  else if k.tc = 4 ∨ k.op = 0x31 then s.deliverPkt k
  else
    let s1 := s.routePkt k
    if s1.fab.inbox.length = s.fab.inbox.length && forward then s1.count 580 0x303 else s1

/-- PACKET_RECEIVE: the oldest packet whose frames a port has all accepted. With no port the packet comes from the module. -/
def execPacketReceive (p : Option Nat) (k : Pkt) (s : State) : Out :=
  if !k.wf || (match p with | some q => q ≥ 48 | none => false) then .refused .illFormed
  else match p with
    | none => .next (s.packetIn false k)
    | some q => if (s.port q).arrived.head? = some k then .next ((s.takeArrived q).packetIn true k) else .next s

/- Fabric-remote requests at their target (R293, R294). -/

/-- Whole lines of a write. -/
def writeLines (s : State) (l : Nat) (p : Bool) (data : List Byte) : Nat → Option State
  | 0 => some s
  | n + 1 =>
    match s.ncWrite l (BitVec.allOnes 128) (lineOfBytes (data.take 128)) p 1 with
    | .ok s1 _ _ => writeLines s1 (l + 1) p (data.drop 128) n
    | _ => none

/-- The bytes that a mask places in a line, from a packed payload. -/
def unpack (m : LMask) (b : List Byte) : Line :=
  ((((upTo 128).filter (fun i => m.getLsbD i)).zip b).map (fun x => x.2.toNat <<< (8 * x.1))).foldl (fun acc v => acc ||| BitVec.ofNat 1024 v) 0

/-- The request at the home; a partial write names its bytes by a mask before them (R285). The layout of an AMO's
payload is the model's (DESIGN CHOICE, log 62). -/
def State.serve (s : State) (k : Pkt) : State :=
  let a := k.offset
  let n := k.data.length
  let bad := s.respond k 0x12 fsBadArg false []
  match k.op with
  | 1 =>
    if !localRange (a / 128 * 128) 128 then bad
    else (match s.ncRead (a / 128) k.hint with
      | .ok s1 d p => s1.respond k 0x10 0 p ((upTo 128).map (fun i => lineByte d i))
      | _ => s)
  | 2 =>
    if n ≥ 128 then
      (if n % 128 ≠ 0 || a % 128 ≠ 0 || !localRange a n then bad
       else match writeLines s (a / 128) k.poison k.data (n / 128) with
        | some s1 => s1.respond k 0x11 0 false []
        | none => s)
    else
      let m : LMask := BitVec.ofNat 128 (ofLeBytes (k.data.take 16))
      let cnt := ((upTo 128).filter (fun i => m.getLsbD i)).length
      if n ≠ 16 + cnt || !localRange (a / 128 * 128) 128 then bad
      else (match s.ncWrite (a / 128) m (unpack m (k.data.drop 16)) k.poison 1 with
        | .ok s1 _ _ => s1.respond k 0x11 0 false []
        | _ => s)
  | _ =>
    let f (o n : Nat) : Nat := ofLeBytes ((k.data.drop o).take n)
    let w := if f 1 1 = 1 then 8 else 4
    if n ≠ 24 || f 0 1 > 10 || f 1 1 > 1 || a % w ≠ 0 || !localRange a w then bad
    else (match s.ncAmo a w (f 0 1) (BitVec.ofNat 64 (f 8 8)) (BitVec.ofNat 64 (f 16 8)) k.hint with
      | .ok s1 d p => s1.respond k 0x10 0 p (leBytes 8 (lineBytes d (a % 128) w))
      | _ => s)

/-- A write waits for the writes of its source that arrived before it (R294). -/
def State.writeWaits (s : State) (k : Pkt) : Bool :=
  k.op == 2 && (s.fab.inbox.takeWhile (fun x => x != k)).any (fun x => x.tc == 0 && x.op == 2 && x.src == k.src)

/-- FABRIC_REMOTE_REQUEST; one whose line is in use waits. -/
def execFabricRemoteRequest (k : Pkt) (s : State) : Out :=
  if !k.wf then .refused .illFormed
  else
    let s0 := s.takePkt k
    if k.tc ≠ 0 || !pktKnown k then .next s0
    else if s.inReset .warm then .next (s0.respond k 0x12 fsReset false [])
    else if s.fld .fabCtrl 0 0 0 1 = 0 then .next (s0.respond k 0x12 fsRefused false [])
    else if s.fld .pwrStatus 0 0 0 3 = 3 then .next (s0.respond k 0x12 fsParked false [])
    else if !s.memOk then .next (s0.respond k 0x12 fsBadArg false [])
    else
      let l := k.offset / 128
      if s.writeWaits k || (upTo (max 1 (k.data.length / 128))).any (fun i => s.lineBusy (l + i)) then .next s else .next (s0.serve k)

/- Fabric-remote requests at their source (R293). -/

/-- FABRIC_RESPONSE: an answer to no request that waits is dropped. -/
def execFabricResponse (k : Pkt) (s : State) : Out :=
  if !k.wf then .refused .illFormed
  else
    let s0 := s.takePkt k
    if k.tc ≠ 1 || !pktKnown k || !s.fab.rem.any (fun r => r.tag == k.tag && r.dst == k.src && r.sent) then .next s0
    else .next (s0.remEnd k.tag (k.op == 0x12) k.poison k.data)

/-- FABRIC_REQUEST_TIMEOUT of a load, an atomic, a tile access or a descriptor fetch; a store's own timeout is
WRITE_RESPONSE_TIMEOUT, after which its request is forgotten here (R234). -/
def execFabricRequestTimeout (tag : Nat) (s : State) : Out :=
  match s.fab.rem.find? (fun r => r.tag == tag) with
  | none => .next s
  | some r =>
    if !r.sent ∨ s.now < r.started + s.fld .ordCtrl 0 0 0 10 * 1000 then .next s
    else
      match r.w with
      | .store sid => if s.sb.has sid then .next s else .next (s.remEnd tag true false [])
      | _ => .next (s.remEnd tag true false [])

/- Fabric time (R300 to R302). -/

/-- TIME_PACKET: an announcement of a candidate that arrives on a port; `hops` is the distance of the module that sent it. A
better one than those known is taken and announced on; a module that is better itself is the master, and a sender that
names a worse one is told. -/
def execTimePacket (p prio serial hops : Nat) (s : State) : Out :=
  if p ≥ 48 ∨ prio ≥ 256 ∨ serial ≥ 2 ^ 64 ∨ hops ≥ 8 then .refused .illFormed
  else if !s.portUpQ p then .next s
  else
    let less (a b : Nat × Nat) : Bool := a.1 < b.1 || (a.1 == b.1 && a.2 < b.2)
    let own := s.ownRank
    let cand := (prio, serial)
    let best := if s.fab.masterSet && less s.fab.master own then s.fab.master else own
    if cand = own then .next s
    else if less cand best then
      let ports := s.fab.ports.map (fun (e : Nat × ColPort) => (e.1, { e.2 with dist := 7 }))
      let s0 : State := { s with fab := { s.fab with ports := ports, master := cand, masterSet := true, electAt := none } }
      let s1 := s0.setPort p { s.port p with dist := min 7 (hops + 1) }
      let s2 := (s1.setFld .fabTimeStatus 0 0 2 1 0).retime
      .next (s2.flood (s2.timePkt cand (min 7 (hops + 1))) (some p))
    else if cand = best then .next ((s.setPort p { s.port p with dist := min 7 (hops + 1) }).retime)
    else if best = own ∧ s.fld .fabTimeStatus 0 0 2 1 = 0 then .next s.becomeMaster
    else .next (s.tellPort p)

/-- The value that the count steps to (R300; DESIGN CHOICE, log 49): the count of the port toward the master by its last
heartbeat, carried on by the reference. -/
def State.disciplined (s : State) : Nat :=
  match s.fab.up with
  | some (c, r) => c + 10 * (s.ref - r)
  | none => s.now

/-- FABRIC_TIME_LOCK: the offset has been good for 1 ms; only a module that was UNLOCKED steps its count, to a value within
the ±10 ns of its offset (R300). -/
def execFabricTimeLock (count : Nat) (s : State) : Out :=
  let st := s.fld .fabTimeStatus 0 0 0 2
  let steps : Bool := st == 0 && s.fld .fabTimeStatus 0 0 2 1 == 0
  match s.fab.goodSince with
  | none => .next s
  | some t =>
    if st = 1 ∨ s.ref < t + 100000 then .next s
    else if steps && (count + 10 < s.disciplined || s.disciplined + 10 < count) then .next s
    else
      let s1 : State := if steps then { s with now := count } else s
      let s2 := ({ s1 with fab := { s1.fab with holdSince := none } } : State).setFld .fabTimeStatus 0 0 0 2 1
      .next (s2.timeEvent 0).wakeIdle

/-- HOLDOVER_TIMEOUT: 20 ms in HOLDOVER; what is scheduled is cancelled and counted (R302, R317). -/
def execHoldoverTimeout (s : State) : Out :=
  match s.fab.holdSince with
  | none => .next s
  | some t =>
    if s.fld .fabTimeStatus 0 0 0 2 ≠ 2 ∨ s.ref < t + 2000000 then .next s
    else
      let snap : Bool := match s.ws.snap with | some n => n.stage == 0 && n.start != 0 | none => false
      let cols := s.cgs.filter (fun (e : Nat × CGrp) => match e.2.inst with | some i => !i.opened && !i.unlocked && i.start != 0 | none => false)
      let n := s.pwr.slewPend.isSome.toNat + s.pwr.ldPend.isSome.toNat + s.fab.switchAt.isSome.toNat + snap.toNat + cols.length
      let s1 : State := { s with
        pwr := { s.pwr with slewPend := none, ldPend := none },
        fab := { s.fab with switchAt := none, holdSince := none, goodSince := none },
        cgs := s.cgs.map (fun (e : Nat × CGrp) => match e.2.inst with
          | some i => if !i.opened ∧ i.start ≠ 0 then (e.1, { e.2 with inst := some { i with unlocked := true } }) else e
          | none => e) }
      let s2 := ((s1.setFld .pwrStatus 0 0 13 2 0).setFld .fabRtStatus 0 0 1 1 0).setFld .fabTimeStatus 0 0 0 2 0
      let s3 := if snap then s2.snapFail stFabNotLocked 0 else s2
      let s4 := s3.timeEvent n
      .next (if s.fab.switchAt.isSome then s4.post evFabEpoch 13 [(2, stFabNotLocked)] else s4)

/- Routing banks (R290 to R292). -/

/-- Dead marks that outlast a switch: those of the own plain's members that the new map gives to the same position, and
those of other plains whose own maps, which this module does not hold, do so (R304, R321; log 61). -/
def State.deadKept (s : State) (old new t : Nat) : List Nat :=
  s.fab.dead.filter (fun a => if a / 32 = s.plainNo then s.mapOf old (a % 32) == s.mapOf new (a % 32) else !Config.remapsFar a t)

/-- RT_BANK_FLIP at T (R283, R291, R292). -/
def execRtBankFlip (s : State) : Out :=
  match s.fab.switchAt with
  | none => .next s
  | some t =>
    if s.now < t then .next s
    else
      let old := s.epoch
      let new := 1 - old
      let dead := s.deadKept old new t
      let s1 : State := { s with fab := { s.fab with switchAt := none, heldUntil := some (t + 2 * s.fab.lifetime * 1000),
                                                     lifetime := s.fld .fabCtrl 0 0 1 10, dead := dead } }
      let s2 := ((s1.setFld .fabRtStatus 0 0 0 1 new).setFld .fabRtStatus 0 0 1 1 0).setFld .fabRtStatus 0 0 2 1 1
      let s3 := (s2.incFld .fabRtStatus 0 0 16 16).setFld .fabStatus 0 0 40 14 dead.length
      let mine : Option Nat := match s.memberNo with
        | some m => (upTo 24).find? (fun lm => s.mapOf new lm == some m)
        | none => none
      match mine with
      | some lm => .next ((s3.setFld .fabId 0 0 0 14 (s.plainNo * 32 + lm)).setFld .fabId 0 0 14 1 1)
      | none => .next (s3.setFld .fabId 0 0 14 1 0)

/-- BANK_HELD_EXPIRY. -/
def execBankHeldExpiry (s : State) : Out :=
  match s.fab.heldUntil with
  | none => .next s
  | some t =>
    if s.now < t then .next s
    else
      let s1 := ({ s with fab := { s.fab with heldUntil := none } } : State).setFld .fabRtStatus 0 0 2 1 0
      .next (s1.post evFabEpoch 13 [(1, s.epoch), (8, (s.reg .fabRtAt 0 0).toNat)])

/- Commands (R307). -/

def stFabBadArg : Nat := 0x0301
def stFabBankHeld : Nat := 0x0304
def stFabFlash : Nat := 0x0305
def stFabGroupExists : Nat := 0x0306
def stFabNoGroup : Nat := 0x0307

/-- FAB_CONFIG: both banks' records, or neither (R385). -/
def execFabConfig (mb : Nat) (flashOk : Bool) (s : State) : Out :=
  command mb 0x301 s (fun s m =>
    if !m.clean [(8, 2)] || m.arg 8 2 ≥ 512 then .done s stFabBadArg []
    else if !flashOk then .done s stFabFlash []
    else
      let put (c : BootCfg) : BootCfg := { c with plain := m.arg 8 2 }
      .done { s with sec := { s.sec with cfg := (s.sec.cfg.upd {} 0 put).upd {} 1 put } } stOk [])

/-- A plain-table entry without a route to no member or no port. -/
def plainEntryOk (w : Nat) : Bool := (upTo 4).all (fun r => (w >>> (16 * r)) % 32 < 24 && (w >>> (16 * r + 5)) % 32 ≤ 24)

/-- FAB_RT_WRITE: the inactive bank (R291). -/
def execFabRtWrite (mb : Nat) (s : State) : Out :=
  command mb 0x302 s (fun s m =>
    let kind := m.arg 4 1
    let first := m.arg 8 2
    let n := m.arg 0xA 2
    let a := m.arg 0x10 8
    let size := if kind = 0 then 8 else 1
    let bank := 1 - s.epoch
    if !m.clean [(4, 1), (8, 2), (0xA, 2), (0x10, 8)] || kind > 1 || first + n > (if kind = 0 then 512 else 24) ||
      !(n == 0 || localRange a (size * n)) then .done s stFabBadArg []
    else if s.fab.heldUntil.isSome then .done s stFabBankHeld []
    else if n ≠ 0 ∧ !s.memOk then .done s stFabBadArg []
    else match s.readBytes a (size * n) with
      | none => .wait
      | some (s1, b, p) =>
        let es := (upTo n).map (fun i => ofLeBytes ((b.drop (size * i)).take size))
        if p || !es.all (fun e => if kind = 0 then plainEntryOk e else e % 32 < 24) then .done s stFabBadArg []
        else
          let f := s1.fab
          let f1 := es.zipIdx.foldl (fun (f : FabS) x =>
            if kind = 0 then { f with plain := f.plain.set (bank * 512 + first + x.2) (BitVec.ofNat 64 x.1) }
            else { f with map := f.map.set (bank * 32 + first + x.2) x.1 }) f
          let s2 : State := { s1 with fab := f1 }
          .done (if n = 0 then s2 else s2.setFld .fabRtStatus 0 0 3 1 0) stOk [])

/-- The status of a switch that is refused (R292). -/
def switchRefused (s : State) (t : Nat) : Option Nat :=
  if s.fld .fabTimeStatus 0 0 0 2 ≠ 1 then some stFabNotLocked
  else if t < s.now + 20000 then some stFabTooLate
  else if s.fab.heldUntil.isSome || s.fab.switchAt.isSome then some stFabBankHeld
  else none

/-- FAB_RT_SWITCH (R292); EV_FAB_EPOCH carries the status of a refused one (R309). -/
def execFabRtSwitch (mb : Nat) (s : State) : Out :=
  command mb 0x303 s (fun s m =>
    let t := m.arg 8 8
    if !m.clean [(8, 8)] then .done s stFabBadArg []
    else match switchRefused s t with
      | some st => .done (s.post evFabEpoch 13 [(2, st)]) st []
      | none =>
        .done ((({ s with fab := { s.fab with switchAt := some t } } : State).setFld .fabRtStatus 0 0 1 1 1).setReg .fabRtAt 0 0 (BitVec.ofNat 64 t)) stOk [])

/-- The checks of FAB_PORT_CTRL, and the grace in µs. -/
def portCtrl (s : State) (m : Mbx) : Option Nat :=
  let g := if m.arg 8 4 = 0xFFFFFFFF then s.fld .fabCtrl 0 0 32 20 else m.arg 8 4
  if m.clean [(4, 1), (5, 1), (8, 4)] && m.arg 4 1 < 48 && m.arg 5 1 ≤ 1 && g ≤ 1000000 then some g else none

/-- FAB_PORT_CTRL, disable, and every encoding of it that is refused (R305); it answers when the drain is over. -/
def execFabPortDisable (mb : Nat) (s : State) : Out :=
  command mb 0x304 s (fun s m =>
    match portCtrl s m with
    | none => .done s stFabBadArg []
    | some g =>
      let p := m.arg 4 1
      if (s.port p).drainEnd.isSome then .wait
      else if s.portState p = 5 then .done s stOk []
      else
        let x := s.port p
        .later (((s.setPort p { x with drainEnd := some (s.now + g * 1000), drainMb := some mb, probeAt := none }).toState p 5).portLeft p))
    (own := fun m => m.arg 5 1 ≠ 1)

/-- FAB_PORT_CTRL, enable: the port trains where light arrives. -/
def execFabPortEnable (mb : Nat) (s : State) : Out :=
  command mb 0x304 s (fun s m =>
    match portCtrl s m with
    | none => .done s stFabBadArg []
    | some _ =>
      let p := m.arg 4 1
      let x := s.port p
      if x.drainEnd.isSome then .wait
      else if s.portState p ≠ 5 then .done s stOk []
      else if x.light && !x.dark then .done ((s.setPort p { x with lnk := {}, part := [], missed := 0, known := false }).toState p 1) stOk []
      else .done (s.toState p 0) stOk [])
    (own := fun m => m.arg 5 1 = 1)

/-- FAB_PORT_DRAIN_END: the grace is over, or nothing is queued; a request that remains fails to its source (R305). -/
def execFabPortDrainEnd (p : Nat) (s : State) : Out :=
  if p ≥ 48 then .refused .illFormed
  else
    let x := s.port p
    match x.drainEnd with
    | none => .next s
    | some e =>
      if s.now < e ∧ !x.txq.isEmpty then .next s
      else
        let s1 := s.setPort p { x with txq := [], drainEnd := none, drainMb := none }
        .next ((x.txq.foldl (fun s2 k => s2.failPkt k fsCancelled) s1).mbResult? x.drainMb stOk)

/-- FAB_CG_CREATE (R295). -/
def execFabCgCreate (mb : Nat) (s : State) : Out :=
  command mb 0x310 s (fun s m =>
    let gid := m.arg 4 2
    let a := m.arg 8 8
    let n := m.arg 0x10 2
    let base := m.arg 0x18 8
    let size := m.arg 0x20 2
    if !m.clean [(4, 2), (8, 8), (0x10, 2), (0x18, 8), (0x20, 2), (0x24, 4)] || gid ≥ 4096 || n = 0 || n > 12288 ||
      !localRange a (2 * n) || !cgRingOk base size then .done s stFabBadArg []
    else if s.cgs.has gid then .done s stFabGroupExists []
    else if !s.memOk then .done s stFabBadArg []
    else match s.readBytes a (2 * n) with
      | none => .wait
      | some (s1, b, p) =>
        let ms := (upTo n).map (fun i => ofLeBytes ((b.drop (2 * i)).take 2))
        match s.laddr with
        | none => .done s stFabBadArg []
        | some me =>
          if p || ms.any (fun x => x ≥ 2 ^ 14 || x % 32 ≥ 24) || ms.count me ≠ 1 then .done s stFabBadArg []
          else .done ((s1.setCg gid { members := ms, addr := me, ring := base, size := size, defdl := m.arg 0x24 4 }).setReg .cgDoorbell gid 0 0) stOk [])

/-- FAB_CG_DESTROY: an open instance completes with ST_CANCELLED first. -/
def execFabCgDestroy (mb : Nat) (s : State) : Out :=
  command mb 0x311 s (fun s m =>
    let gid := m.arg 4 2
    match s.cgs.find? gid with
      | none => .done s stFabNoGroup []
      | some g =>
        if !m.clean [(4, 2)] then .done s stFabBadArg []
        else if g.destroying.isSome then .wait
        else match g.inst with
        | none => .done { s with cgs := s.cgs.del gid } stOk []
        | some i => .later (s.setCg gid { g with inst := some { i with cancelled := true, send := [] }, destroying := some mb }))

/-- A store to a group's doorbell: the rules of CD_DQ_DOORBELL (R69, R310); a store of fewer than 8 B is ignored, and so
is every one while the module is parked (R404). -/
def State.cgRing (s : State) (gid size : Nat) (value : Word) : State :=
  let err := s.setFld .fabStatus 0 0 0 1 1
  if size ≠ 8 then s
  else if s.fld .pwrStatus 0 0 0 3 = 3 then err
  else match s.cgs.find? gid with
  | none => err
  | some g =>
    if value.toNat ≤ (s.reg .cgDoorbell gid 0).toNat then s
    else if value.toNat > g.ridx + g.size then err
    else s.setReg .cgDoorbell gid 0 value

/-- FAB_CG_DOORBELL. -/
def execFabCgDoorbell (iss : Iss) (gid size : Nat) (value : Word) (s : State) : Out :=
  if gid ≥ 4096 || !accessWf 0 size then .refused .illFormed else s.atBlock iss .cgDoorbell gid 0 (fun s => s.cgRing gid size value)

end Sys2Proof.Machine
end

