-- ==== Sys2Proof/Machine/Mailbox.lean ====
section
/-! DEFINITION. Mailboxes and their commands (R324 to R331), remote execution (R331), the system and telemetry commands
(R334, R335, R341, R342, R344), and the start and restart of the CP (R349, R350). -/

namespace Sys2Proof.Machine

/- Doorbells (R326, R329, R330, R336, R349, R350, R382). -/

/-- The 64 B of a mailbox's command area. -/
def State.cmdArea (s : State) (mb : Nat) : List Byte := (upTo 8).flatMap (fun j => leBytes 8 (s.reg .mbCmd mb j).toNat)

/-- What the CP holds: everything before READY and during a restart; during package warm reset all but four commands; in
the recovery service all but MB4's own five (R336, R349, R350, R382). -/
def State.cpHolds (s : State) (mb op : Nat) : Bool :=
  if s.fld .secStatus 0 0 0 1 = 1 then !(mb == 4 && (op == 2 || op == 0x701 || op == 0x702 || op == 0x704 || op == 0x705))
  else s.fld .cpStatus 0 0 0 2 != 1 || (s.inReset .warm && !(op == 1 || op == 2 || op == 5 || op == 0x601))

/-- Largest response time of a command, in ns, as its table gives it (R333 and the chapters). A grace that names the
default of an object is taken as the largest one, and SEC_ID_READ, which has no time, as the shortest (DESIGN CHOICE, log 64). -/
def Mbx.bound (m : Mbx) : Nat :=
  let us := 1000
  let ms := 1000000
  let op := m.opcode
  let grace := min (m.arg 8 4) 1000000 * us
  if op = 1 ∨ op = 0x205 ∨ op = 0x505 ∨ op = 0x807 then us
  else if op = 4 ∨ op = 0x201 then 5 * us
  else if op = 6 then at' [50 * us, 50 * us, ms, 100 * us, 10 * ms, 100 * ms, 2000 * ms] 0 (m.arg 4 1)
  else if op = 0x102 then 5 * us + us * (m.arg 0x10 8 / 2 ^ 20)
  else if op = 0x103 ∨ op = 0x301 ∨ op = 0x702 then 50 * ms
  else if op = 0x202 ∨ op = 0x206 then grace + 20 * us
  else if op = 0x302 then 2 * us + 20 * m.arg 0xA 2
  else if op = 0x304 then 2 * us + (if m.arg 5 1 = 1 then 0 else grace)
  else if op = 0x310 then 2 * us + 10 * m.arg 0x10 2
  else if op = 0x402 ∨ op = 0x403 then 2 * us + 10 * 12288
  else if op = 0x501 then (if m.arg 4 1 = 3 then grace + 10 * ms else 2000 * ms)
  else if op = 0x703 then (if m.arg 4 1 = 0 then 30 * ms else 2 * us)
  else if op = 0x705 then 2 * ms + 40 * ms * 32
  else if op = 0x723 then grace + 2 * ms
  else if op = 0x801 ∨ op = 0x802 ∨ op = 0x803 then 2 * us + 10 * 2 ^ 20
  else 2 * us

/-- A management packet of this module (R285); its payload is the command, or the status and the response area of an
answer (DESIGN CHOICE, log 62). -/
def State.mgmtPkt (s : State) (dst tag : Nat) (b : List Byte) : Pkt :=
  { pktBlank with dst := dst, src := (s.laddr).getD 0, tc := 3, op := 0x30, epoch := s.epoch, tag := tag, tstamp := s.tstamp, data := b }

/-- TARGET is known to the fabric and not marked dead (R331). -/
def State.targetOk (s : State) (t : Nat) : Bool := s.remoteKnown (2 ^ 55 + t * 2 ^ 41) && !s.fab.dead.elem t

/-- A remote command leaves, or ends at once. -/
def State.sendRemote (s : State) (mb : Nat) : State :=
  let m := s.mbox mb
  let t := m.ctrl % 2 ^ 14
  if !s.targetOk t then s.mbResult mb stRemoteFailed
  else
    let tag := s.fab.nextTag
    let m1 := { m with remote := some tag, remoteBound := s.now + m.bound + 2 * s.fld .fabCtrl 0 0 1 10 * 1000 }
    let s1 := ({ s with fab := { s.fab with nextTag := (tag + 1) % 2 ^ 16 } } : State).setMbox mb m1
    s1.inject (s1.mgmtPkt t tag m.cmd)

/-- The CP takes a command, or holds it: an opcode that no command has is refused at once (R328). -/
def State.cpAccept (s : State) (mb : Nat) : State :=
  let m := s.mbox mb
  if s.cpHolds mb m.opcode then
    ({ s with cp := { s.cp with heldMb := s.cp.heldMb ++ [mb] } } : State).setMbox mb { m with held := true }
  else
    let s1 := s.setMbox mb { m with held := false }
    if bit (BitVec.ofNat 64 m.ctrl) 14 then s1.sendRemote mb
    else if !assigned m.opcode then s1.mbResult mb stBadOpcode
    else s1

/-- Held doorbells are taken in the order in which they came. -/
def State.runHeld (s : State) : State :=
  s.cp.heldMb.foldl (fun s1 mb => s1.cpAccept mb) { s with cp := { s.cp with heldMb := [] } }

/-- A command arrives at a mailbox that is not busy. -/
def State.mbIssue (s : State) (mb : Nat) (m : Mbx) : State :=
  (((s.setFld .mbStatus mb 0 24 1 1).setFld .mbStatus mb 0 25 1 0).setMbox mb { m with busy := true }).cpAccept mb

/-- A 1 is written to RING (R326, R329). -/
def State.mbRing (s : State) (mb : Nat) : State :=
  if s.fld .mbStatus mb 0 24 1 = 1 then s.setFld .mbStatus mb 0 26 1 1
  else s.mbIssue mb { cmd := s.cmdArea mb, ctrl := (s.reg .mbCtrl mb 0).toNat, deleg := s.cp.deleg }

/-- MB_DOORBELL: MB7 takes no local write (R324). -/
def execMbDoorbell (iss : Iss) (mb size : Nat) (value : Word) (s : State) : Out :=
  if mb ≥ 8 || !accessWf 0 size then .refused .illFormed
  else s.atBlock iss .mbDoorbell mb 0 (fun s => if mb = 7 || !bit value 0 then s else s.mbRing mb)

/-- MB_COMMAND_COMPLETE: the response area, then the status in one write; the notifications (R326, R331, R374, R379). -/
def execMbCommandComplete (mb : Nat) (s : State) : Out :=
  if mb ≥ 8 then .refused .illFormed
  else
    let m := s.mbox mb
    match m.res with
    | none => .next s
    | some (st, resp) =>
      if !m.busy then .next s
      else
        let s1 := (upTo 8).foldl (fun s1 j => s1.setReg .mbRsp mb j (BitVec.ofNat 64 (ofLeBytes ((resp.drop (8 * j)).take 8)))) s
        let w := setBits (setBits (setBits (s1.reg .mbStatus mb 0) 0 16 st) 16 8 m.tag) 24 2 2
        let s2 := (s1.setReg .mbStatus mb 0 w).setMbox mb {}
        let s3 := if m.ctrl / 2 ^ 15 % 2 = 1 then
            (let s3 := s2.post evMbDone 13 [(1, mb), (2, m.opcode), (2, st), (4, m.tag)]
             if mb = 2 ∨ mb = 3 then s3.sendMsix (mb - 2) 1 else s3)
          else s2
        let s4 := if mb = 4 then
            (let b := s3.i3cAlert
             State.alertFrom { s3 with cp := { s3.cp with i3cAlert := s3.cp.i3cAlert ||| 4 } } b)
          else s3
        .next (if mb = 7 then s4.inject (s4.mgmtPkt m.from' m.fromTag (leBytes 2 st ++ padTo 64 resp)) else s4)

/- Remote execution (R331). -/

/-- A management packet that carries a command, or an answer. -/
def isMgmt (n : Nat) (k : Pkt) : Bool := k.tc == 3 && k.op == 0x30 && k.data.length == n

/-- REMOTE_COMMAND_RECEIVE: commands run in the order in which they came; a busy MB7 lets the next one wait. -/
def execRemoteCommandReceive (k : Pkt) (s : State) : Out :=
  if !k.wf then .refused .illFormed
  else if !s.hdOn then .next s
  else if !isMgmt 64 k then .next s
  else if (s.mbox 7).busy || (match s.fab.inbox.find? (isMgmt 64) with | some x => x != k | none => false) then .next s
  else
    let s1 := (upTo 8).foldl (fun s1 j => s1.setReg .mbCmd 7 j (BitVec.ofNat 64 (ofLeBytes ((k.data.drop (8 * j)).take 8)))) (s.takePkt k)
    .next (s1.mbIssue 7 { cmd := k.data, ctrl := (s1.reg .mbCtrl 7 0).toNat % 2 ^ 16 / 2 ^ 15 * 2 ^ 15, deleg := s1.cp.deleg, from' := k.src, fromTag := k.tag })

/-- REMOTE_ANSWER: a late one is dropped. -/
def execRemoteAnswer (k : Pkt) (s : State) : Out :=
  if !k.wf then .refused .illFormed
  else if !isMgmt 66 k then .next s
  else
    let s1 := s.takePkt k
    match List.find? (fun (e : Nat × Mbx) => e.2.busy && e.2.res.isNone && e.2.remote == some k.tag && e.2.ctrl % 2 ^ 14 == k.src) s1.mbs with
    | none => .next s1
    | some e => .next (s1.mbResult e.1 (ofLeBytes (k.data.take 2)) (k.data.drop 2))

/-- REMOTE_COMMAND_TIMEOUT. -/
def execRemoteCommandTimeout (mb : Nat) (s : State) : Out :=
  if mb ≥ 8 then .refused .illFormed
  else
    let m := s.mbox mb
    if m.remote.isSome && m.remoteBound ≤ s.now then .next (s.mbResult mb stRemoteTimeout) else .next s

/- System commands (R334, R335, R344). -/

/-- SYS_NOP: it takes no arguments. -/
def execSysNop (mb : Nat) (s : State) : Out :=
  command mb 1 s (fun s m => if m.clean [] then .done s stOk [] else .done s stBadArg [])

/-- Variant: the characters of the part number, or zero on an empty site (R334). -/
def State.variant (s : State) : Nat := if s.fld .fwStatus 0 0 0 1 = 1 then Config.auxId.toNat else 0

/-- Version of the Utnak that was measured at boot. -/
def State.utnakVersion (s : State) : Nat := (Config.utnakVersion (s.sec.measured.get 0 0)).toNat

/-- SYS_INFO. -/
def execSysInfo (mb : Nat) (s : State) : Out :=
  command mb 2 s (fun s m =>
    if !m.clean [] then .done s stBadArg []
    else
      let fl := s.memOk.toNat + 2 * (decide (s.fld .fabTimeStatus 0 0 0 2 = 1)).toNat + 4 * s.fld .fabId 0 0 14 1 +
        8 * s.fld .wsStatus 0 0 18 1 + 16 * s.cp.attach.toNat
      .done s stOk (leBytes 8 Config.serial.toNat ++ leBytes 2 s.variant ++
        (upTo 4).flatMap (fun i => leBytes 1 (Config.stepping i).toNat) ++ leBytes 2 0 ++ leBytes 4 s.utnakVersion ++ leBytes 4 fl ++
        leBytes 8 (s.reg .fabId 0 0).toNat))

/-- SYS_DELEGATE. -/
def execSysDelegate (mb : Nat) (s : State) : Out :=
  command mb 3 s (fun s m =>
    if !m.clean [(8, 2), (10, 1)] || m.arg 10 1 > 1 then .done s stBadArg []
    else .done { s with cp := { s.cp with deleg := if m.arg 10 1 = 1 then some (m.arg 8 2) else none } } stOk [])

/-- The ring that a mailbox configures. -/
def ownRing (mb : Nat) : Option Nat := if mb = 0 then some 0 else if mb = 2 then some 1 else if mb = 3 then some 2 else none

/-- SYS_EVR_CONFIG: the ring starts again, and its first record carries LOSS. -/
def execSysEvrConfig (mb : Nat) (s : State) : Out :=
  command mb 4 s (fun s m =>
    let r := m.arg 4 1
    let log2 := m.arg 5 1
    let base := m.arg 8 8
    if ownRing mb ≠ some r then .done s stUnauthorised []
    else if !s.memOk then .done s stMemNotReady []
    else if !m.clean [(4, 1), (5, 1), (6, 2), (8, 8), (0x10, 8), (0x18, 1)] || log2 < 6 || log2 > 16 || base % 64 ≠ 0 ||
      !localRange base (64 * 2 ^ log2) || m.arg 0x18 1 > 1 || (r ≠ 0 && m.arg 0x10 8 ≠ 0) then .done s stBadArg []
    else
      let ring : Ring := { base := base, log2 := log2, mask := m.arg 6 2, cores := BitVec.ofNat 64 (m.arg 0x10 8), loss := true }
      let s1 : State := { s with cp := { s.cp with rings := s.cp.rings.set r ring },
                                 wq := s.wq.filter (fun j => !(j.kind == .evrWidx && j.idx == r)) }
      .done (((s1.setReg .evrWidx r 0 0).setReg .evrRidx r 0 0).setFld .evrStatus r 0 0 1 (m.arg 0x18 1)) stOk [])

/-- SYS_EV_FETCH. -/
def execSysEvFetch (mb : Nat) (s : State) : Out :=
  command mb 5 s (fun s m =>
    if !m.clean [] then .done s stBadArg []
    else match s.cp.ring3 with
      | [] => .done s stOk []
      | e :: r => .done { s with cp := { s.cp with ring3 := r } } stOk (evBytes e e.seq e.loss))

/-- HD_EVR_RIDX takes a value between itself and WIDX, modulo 2^32 (R347, R351). -/
def State.evrRead (s : State) (r : Nat) (v : Word) : State :=
  let w := s.fld .evrWidx r 0 0 32
  let old := s.fld .evrRidx r 0 0 32
  let n := bits v 0 32
  if (n + 2 ^ 32 - old) % 2 ^ 32 ≤ (w + 2 ^ 32 - old) % 2 ^ 32 then
    let s1 := s.setFld .evrRidx r 0 0 32 n
    if r ≠ 0 ∧ n = w then { s1 with pci := s1.pci.upd {} (r - 1) (fun x => { x with pba := x.pba / 2 * 2 }) } else s1
  else s.setFld .evrStatus r 0 1 1 1

/-- HD_EVR_RIDX_WRITE. -/
def execHdEvrRidxWrite (iss : Iss) (r size : Nat) (value : Word) (s : State) : Out :=
  if r ≥ 3 || !accessWf 0 size then .refused .illFormed
  else s.atBlock iss .evrRidx r 0 (fun s => s.evrRead r (mergeReg (s.reg .evrRidx r 0) 0 size value))

/-- PD_DQINT_PEND_CLEAR (R340). -/
def execPdDqintPendClear (iss : Iss) (n size : Nat) (value : Word) (s : State) : Out :=
  if n ≥ 64 || !accessWf 0 size then .refused .illFormed
  else s.atBlock iss .dqint n 0 (fun s => if bit value 0 then s.setFld .dqint n 0 0 1 0 else s)

/- Telemetry (R341, R342). -/

/-- Sensors of R341. -/
def sensorListed (id : Nat) : Bool :=
  id ≤ 0x0E || (0x10 ≤ id && id ≤ 0x33) || (0x40 ≤ id && id ≤ 0x4C) || id == 0x50

/-- A sensor as a reader sees it: no device stands behind the AUX temperature on an empty site. -/
def State.sensorSeen (s : State) (id : Nat) : BitVec 32 := if s.sensorThere id then s.sensor id else 0x80000000

/-- TEL_READ. -/
def execTelRead (mb : Nat) (s : State) : Out :=
  command mb 0x601 s (fun s m =>
    let n := m.arg 4 1
    let ids := (upTo n).map (fun i => m.arg (8 + 2 * i) 2)
    if n = 0 || n > 14 || !m.clean [(4, 1), (8, 2 * n)] || !ids.all sensorListed then .done s stBadArg []
    else .done s stOk (ids.flatMap (fun i => leBytes 4 (s.sensorSeen i).toNat)))

/-- TEL_ALERT_SET. -/
def execTelAlertSet (mb : Nat) (s : State) : Out :=
  command mb 0x602 s (fun s m =>
    let high := (BitVec.ofNat 32 (m.arg 8 4)).toInt
    let low := (BitVec.ofNat 32 (m.arg 0xC 4)).toInt
    if !m.clean [(4, 1), (6, 2), (8, 4), (0xC, 4), (0x10, 1)] || m.arg 4 1 ≥ 16 || !sensorListed (m.arg 6 2) || low > high ||
      m.arg 0x10 1 > 1 then .done s stBadArg []
    else
      let a : Alert := { sensor := m.arg 6 2, high := high, low := low, en := m.arg 0x10 1 == 1 }
      .done { s with cp := { s.cp with alerts := s.cp.alerts.set (m.arg 4 1) a } } stOk [])

/-- The hottest die junction among the sensors that have been read, the lowest number first (R372). -/
def State.hottest (s : State) : Nat × Nat :=
  (upTo 15).foldl (fun (acc : Nat × Nat) id =>
    let t := (s.sensor id).toInt.toNat
    if s.sensorThere id && s.cp.sensors.has id && acc.2 < t then (id, t) else acc) (0, 0)

/-- SENSOR_REFRESH: a new value of a sensor; that of SCORE is the Watershed's (R341). -/
def execSensorRefresh (id : Nat) (value : BitVec 32) (s : State) : Out :=
  if !sensorListed id then .refused .illFormed
  else if !s.hdOn then .next s
  else
    let v := if id = 0x50 then BitVec.ofNat 32 (s.fld .wsStatus 0 0 0 16) else value
    let s1 : State := { s with cp := { s.cp with sensors := s.cp.sensors.set id v } }
    let (i, t) := s1.hottest
    .next ((s1.setFld .pwrTherm 0 0 0 16 (min t 65535)).setFld .pwrTherm 0 0 16 8 i)

/-- TEL_ALERT_CHECK: each enabled slot, and the monitor of the hottest junction (R342, R400). -/
def execTelAlertCheck (s : State) : Out :=
  if s.fld .cpStatus 0 0 0 2 ≠ 1 then .next s
  else
    let one (s1 : State) (e : Nat × Alert) : State :=
      let a := e.2
      let w := s1.sensorSeen a.sensor
      let out : Bool := w.toInt > a.high || w.toInt < a.low
      let put (s : State) (b : Bool) : State := { s with cp := { s.cp with alerts := s.cp.alerts.set e.1 { a with armed := b } } }
      if !a.en then s1
      else if !out then put s1 true
      else if !a.armed then s1
      else
        let s2 := (put s1 false).post evTelAlert 13 [(1, e.1), (2, a.sensor), (4, w.toNat)]
        let b := s2.i3cAlert
        ({ s2 with cp := { s2.cp with i3cAlert := s2.cp.i3cAlert ||| 2 } } : State).alertFrom b
    .next ((s.cp.alerts.foldl one s).monRecord 12 (s.hottest.2 / 10))

/- Start and restart of the CP (R349, R350). -/

/-- READY: the version is known, the event posts, and held doorbells run. -/
def State.cpStart (s : State) : State :=
  let w := setBits (setBits (s.reg .cpStatus 0 0) 0 1 1) 16 32 s.utnakVersion
  ((s.setReg .cpStatus 0 0 w).post evCpReady 13 [(4, s.utnakVersion), (4, s.cp.restarts)]).runHeld

/-- CP_READY: the last step of the boot sequence (R368); the recovery service never reaches it (R382). -/
def execCpReady (s : State) : Out :=
  if s.pwr.phase = .boot 7 ∧ s.fld .cpStatus 0 0 0 1 = 0 ∧ s.fld .secStatus 0 0 0 1 = 0 then
    .next (State.cpStart { s with pwr := { s.pwr with phase := .on } })
  else .next s

/-- Whoever would answer a mailbox later answers no more. A group that is being destroyed answers mailbox 8, which is none. -/
def State.forgetMbs (s : State) : State :=
  let win (w : FwWin) : FwWin := { w with revoking := w.revoking.map (fun x => (x.1, none)) }
  { s with
    queues := s.queues.map (fun (e : Nat × Queue) => (e.1, { e.2 with drainMb := none })),
    cores := s.cores.map (fun (e : Nat × CoreS) => (e.1, { e.2 with drainMb := none })),
    fab := { s.fab with ports := s.fab.ports.map (fun (e : Nat × ColPort) => (e.1, { e.2 with drainMb := none })) },
    rsts := s.rsts.map (fun r => { r with mb := none }),
    aux := { s.aux with inw := s.aux.inw.map (fun (e : Nat × FwWin) => (e.1, win e.2)), outw := s.aux.outw.map (fun (e : Nat × FwWin) => (e.1, win e.2)),
                        cmdRevoking := s.aux.cmdRevoking.map (fun x => (x.1, none)) },
    cgs := s.cgs.map (fun (e : Nat × CGrp) => (e.1, { e.2 with destroying := e.2.destroying.map (fun _ => 8) })),
    cp := { s.cp with dbg := none },
    pwr := { s.pwr with parkMb := none } }

/-- CP_WATCHDOG_RESTART: commands in progress end; the data paths go on. Cause 0 the watchdog, 1 an internal error. -/
def execCpWatchdogRestart (cause : Nat) (s : State) : Out :=
  if cause > 1 then .refused .illFormed
  else if s.fld .cpStatus 0 0 0 2 ≠ 1 then .next s
  else
    let s1 := s.forgetMbs.setFld .cpStatus 0 0 1 1 1
    let s2 := (upTo 8).foldl (fun s2 mb => if (s2.mbox mb).held then s2 else s2.mbResult mb stCpRestart) s1
    .next { s2 with cp := { s2.cp with cause := cause } }

/-- Events beyond the 256 queued count as lost in every ring that would have taken them (R346, R350). -/
def State.lostEvents (s : State) (codes : List Nat) : State :=
  let one (s : State) (r : Nat) : State :=
    let ring := s.cp.rings.get {} r
    let n := (codes.filter (fun c => (ring.mask >>> (c / 256)) % 2 = 1)).length
    if n = 0 || s.fld .evrStatus r 0 0 1 = 0 then s
    else ({ s with cp := { s.cp with rings := NMap.set s.cp.rings r { ring with loss := true } } } : State).incFld .evrStatus r 0 16 16 n
  let s1 := (upTo 3).foldl one s
  if codes.isEmpty then s1 else { s1 with cp := { s1.cp with ring3Loss := true } }

/-- CP_RESTART_END. -/
def execCpRestartEnd (s : State) : Out :=
  if s.fld .cpStatus 0 0 1 1 = 0 then .next s
  else
    let n := s.cp.restarts + 1
    let s1 := ({ s with cp := { s.cp with restarts := n, queued := [], queuedLost := [] } } : State).setFld .cpStatus 0 0 1 1 0
    let s2 := (s.cp.queued.foldl (fun s2 e => s2.postNow e) (s1.incFld .cpStatus 0 0 8 8)).lostEvents s.cp.queuedLost
    .next ((s2.post evCpRestart 13 [(4, n), (1, s.cp.cause)]).runHeld)

end Sys2Proof.Machine
end

