-- ==== Sys2Proof/Machine/PciOps.lean ====
section
/-! DEFINITION. PCIe ports as shared operations: what a request through a root port's window comes back with, the disable
of a port and the end of its drain (R376, R377, R390). -/

namespace Sys2Proof.Machine

def State.pciP (s : State) (n : Nat) : PciS := s.pci.get {} n
def State.setPciP (s : State) (n : Nat) (x : PciS) : State := { s with pci := s.pci.set n x }
/-- The port is a root port (R373). -/
def State.isRoot (s : State) (n : Nat) : Bool := s.fld .pciPortStatus n 0 0 1 == 1
/-- The link is in L0. -/
def State.pciUp (s : State) (n : Nat) : Bool := s.fld .pciPortStatus n 0 1 1 == 1

/-- A request through a window ends with a bus error. -/
def State.outFail (s : State) (w : Who) (line : Nat) : State :=
  match w with
  | .op tag => s.answerLine tag line 0 false true
  | .store sid => s.sbFail sid
  | .tileR id ln => s.tileArrive id ln 0 false true
  | .tileW id ln => s.tileAccept id ln true
  | .desc c ch => s.descArrive c ch line 0 false true
  | .ext 1 => s.moverAnswer 0 false true
  | .ext n => s.dbgAnswer n 0 false true

/-- Whether a store's line lies in the window of port n. -/
def inWindow (n line : Nat) : Bool := isPcie (line * 128) && (line * 128 - 0xE00000000000) / 0x80000000000 == n

/-- Every outbound request of a port that is still open ends with a bus error. -/
def State.outCancel (s : State) (n : Nat) : State :=
  let s1 := s.setPciP n { s.pciP n with out := [] }
  let s2 := (s.pciP n).out.foldl (fun s2 o => s2.outFail o.1 o.2) s1
  ((s2.sb.filter (fun (e : Nat × SbE) => e.2.mem == CmpMem.pcie && e.2.sent && inWindow n e.2.line)).map (·.1)).foldl (fun s3 sid => s3.sbFail sid) s2

/-- The link leaves L0: UP, GEN, WIDTH and FLIT read 0, and LDN records it. -/
def State.linkOut (s : State) (n : Nat) : State :=
  if s.pciUp n then s.setReg .pciPortStatus n 0 (setBits (setBits (s.reg .pciPortStatus n 0) 1 9 0) 11 1 1) else s

/-- Requests in flight through a port. -/
def State.outOpen (s : State) (n : Nat) : Bool :=
  !(s.pciP n).out.isEmpty || s.sb.any (fun (e : Nat × SbE) => e.2.mem == CmpMem.pcie && e.2.sent && inWindow n e.2.line)

/-- A drain ends: what is open is cancelled, and the link goes to Detect (R377). -/
def State.drainOver (s : State) (n : Nat) : State :=
  let s1 := ((s.outCancel n).linkOut n).setFld .pciPortStatus n 0 10 1 0
  s1.setPciP n { s1.pciP n with drainEnd := none }

/-- EN takes the value 0 (R377, R390); a root port drives PERSTn_N low (R413). -/
def State.pciDisable (s : State) (n : Nat) : State :=
  if s.fld .pciPortStatus n 0 10 1 = 1 then s.setFld .pciPortStatus n 0 13 1 1
  else if s.fld .pciPortCtrl n 0 0 1 = 0 then s
  else
    let s1 := (s.setFld .pciPortCtrl n 0 0 1 0).setFld .pciPortStatus n 0 10 1 1
    s1.setPciP n { s1.pciP n with drainEnd := some (s1.now + s1.fld .pciPortCtrl n 0 1 20 * 1000), released := false }

/-- EN takes the value 1. -/
def State.pciEnable (s : State) (n : Nat) : State :=
  if s.fld .pciPortStatus n 0 10 1 = 1 then s.setFld .pciPortStatus n 0 13 1 1 else s.setFld .pciPortCtrl n 0 0 1 1

/-- A link-down or a hot reset: a disable with grace 0 after which the port trains again (R377). -/
def State.pciDown (s : State) (n : Nat) : State := if s.pciUp n then s.drainOver n else s

/-- PCI_PORT_DISABLE. -/
def execPciPortDisable (iss : Iss) (n : Nat) (s : State) : Out :=
  if n ≥ 2 then .refused .illFormed else s.atBlock iss .pciPortCtrl n 0 (fun s => s.pciDisable n)

/-- PCI_PORT_ENABLE. -/
def execPciPortEnable (iss : Iss) (n : Nat) (s : State) : Out :=
  if n ≥ 2 then .refused .illFormed else s.atBlock iss .pciPortCtrl n 0 (fun s => s.pciEnable n)

/-- PCIE_DRAIN_END: the grace is over, or no request is open. -/
def execPcieDrainEnd (n : Nat) (s : State) : Out :=
  if n ≥ 2 then .refused .illFormed
  else match (s.pciP n).drainEnd with
    | none => .next s
    | some t => if s.now < t && s.outOpen n then .next s else .next (s.drainOver n)

/-- PCIE_LINK_DOWN: a link-down, or a hot reset received. -/
def execPcieLinkDown (n : Nat) (s : State) : Out :=
  if n ≥ 2 then .refused .illFormed else .next (s.pciDown n)

/-- PCIE_LINK_UP: the port has trained (R373). A disabled port, one that PERSTn_N holds, and one whose common clock was
lost stay in Detect. -/
def execPcieLinkUp (n gen width : Nat) (flit : Bool) (s : State) : Out :=
  if n ≥ 2 || gen = 0 || gen > 7 || !(width == 1 || width == 2 || width == 4 || width == 8) || (6 ≤ gen && !flit) then .refused .illFormed
  else
    let x := s.pciP n
    let go : Bool := s.hdOn && s.fld .pciPortCtrl n 0 0 1 == 1 && !s.pciUp n && !x.noRefclk && (if s.isRoot n then x.released else !x.perst)
    .next (if go then s.setReg .pciPortStatus n 0 (setBits (setBits (setBits (setBits (s.reg .pciPortStatus n 0) 1 1 1) 2 3 gen) 5 4 width) 9 1 flit.toNat) else s)

/-- PERST_CHANGE: in the endpoint role a low level is a hot reset and holds the port (R413). -/
def execPerstChange (n : Nat) (level : Bool) (s : State) : Out :=
  if n ≥ 2 then .refused .illFormed
  else if s.isRoot n || !s.hdOn then .next s
  else if level then .next (s.setPciP n { s.pciP n with perst := false })
  else
    let s1 := s.pciDown n
    .next (s1.setPciP n { s1.pciP n with perst := true })

/-- PERST_RELEASE: a root port drives its line high once EN is 1 and the reference clock is stable (R413). -/
def execPerstRelease (n : Nat) (s : State) : Out :=
  if n ≥ 2 then .refused .illFormed
  else if s.isRoot n && s.hdOn && s.fld .pciPortCtrl n 0 0 1 == 1 && !(s.pciP n).noRefclk then .next (s.setPciP n { s.pciP n with released := true })
  else .next s

/-- COMPLETION_TIMEOUT of a non-posted request through a window, an uncorrectable error of the standard's (R376; UNCORR is PRESUMED,
log 63). -/
def execCompletionTimeout (w : Who) (line : Nat) (s : State) : Out :=
  if !w.wf || (match w with | .tileW _ _ => true | .store _ => true | _ => false) then .refused .illFormed
  else match (upTo 2).find? (fun n => (s.pciP n).out.elem (w, line)) with
    | none => .next s
    | some n => .next (((s.outTake w line).setFld .pciPortStatus n 0 12 1 1).outFail w line)

end Sys2Proof.Machine
end

