-- ==== Sys2Proof/Machine/RegAccess.lean ====
section
/-! DEFINITION. Register accesses as they arrive at their block (R4 to R7, R170, R421): who may reach what, the value of a
load, fields that a load clears, and the fields and effects of a store. -/

namespace Sys2Proof.Machine

/-- Registers of a counter unit (R395). -/
def isPmu : RegKind → Bool
  | .pmuCtrl | .pmuEvsel | .pmuPmc | .pmuFixed | .pmuTag => true
  | _ => false

def State.pmuMayRead (s : State) (iss : Iss) : Bool :=
  match s.issuer iss with
  | some (.core _, l) => l ≠ 0 || s.fld .pmuUserEn 0 0 0 1 == 1
  | some (.grp .., _) => s.fld .pmuUserEn 0 0 1 1 == 1
  | none => true

def State.pmuMayWrite (s : State) (iss : Iss) : Bool :=
  match s.issuer iss with
  | some (.core _, l) => l ≠ 0
  | some (.grp .., _) => false
  | none => true

/- The windows of the auxiliary site (R170, R272). -/

/-- The outbound grant that covers an access with a right: bit 0 R, bit 1 W. -/
def State.auxGranted (s : State) (a n r : Nat) : Option FwWin :=
  if s.fld .fwStatus 0 0 1 1 = 1 then (List.find? (fun (e : Nat × FwWin) => e.2.covers a n && e.2.right r) s.aux.outw).map (·.2) else none

/-- An access that a window passes leaves for the die at the window's offset in the die's own space. -/
def State.auxSend (s : State) (w : FwWin) (write : Bool) (a n v : Nat) : State :=
  { s with aux := { s.aux with sent := s.aux.sent ++ [(write, a - w.base + w.offset, n, v)] } }

/- Loads (R4, R5, R421). -/

/-- The whole register as a load by this issuer sees it. -/
def State.regSeen (s : State) (iss : Iss) (k : RegKind) (i j : Nat) : Word :=
  if isPmu k && !s.pmuMayRead iss then 0
  else match k with
  | .mxSeed => s.seedNow i
  | .dqDoorbell | .dqRidx | .dqStatus => if s.queues.has i then s.reg k i j else 0
  | _ => s.regNow k i j

/-- Bytes of a field that lie wholly in an access of n bytes at byte o. -/
def Fld.inside (f : Fld) (o n : Nat) : Bool := 8 * o ≤ f.lo && f.lo + f.wid ≤ 8 * (o + n)

/-- A load performed at its block: the state, the bytes, and whether it ends with a bus error. -/
def State.regLoad (s : State) (iss : Iss) (addr n : Nat) : State × Word × Bool :=
  if isAuxWin addr then
    (match s.auxGranted addr n 0 with
     | some w =>
       let (t, s1) := (s.auxSend w false addr n 0).stamp
       (s1, BitVec.ofNat 64 (bits (Config.freeWord t) 0 (8 * n)), false)
     | none => (s.fwViolation 4 addr, 0, true))
  else
    let o := addr % 8
    match regAt (addr - o) with
    | none => (s, 0, false)
    | some (k, i, j) =>
      let v := BitVec.ofNat 64 (bits (s.regSeen iss k i j) (8 * o) (8 * n))
      let s1 := ((regFields k).filter (fun f => f.acc == Acc.rc && f.inside o n)).foldl (fun s1 f => s1.setFld k i j f.lo f.wid 0) s
      (s1, v, false)

/- Stores (R4, R7, R421). -/

/-- Fields of a store that keep their value, being out of range together: low bit and width. -/
def State.outOfRange (s : State) (k : RegKind) (i j : Nat) (m : Word) : List (Nat × Nat) :=
  let f (lo n : Nat) : Nat := bits m lo n
  let no (b : Bool) (l : List (Nat × Nat)) : List (Nat × Nat) := if b then [] else l
  let ring (lo sz : Nat) : Bool :=
    8 ≤ f 0 5 && f 0 5 ≤ 20 && localRange (f lo (56 - lo) * 2 ^ lo) (sz * 2 ^ f 0 5)
  let idx (r w : RegKind) : Bool := (s.reg r 0 0).toNat ≤ m.toNat && m.toNat ≤ (s.reg w 0 0).toNat
  match k with
  | .tsChCtrl => no (1 ≤ f 0 7 && f 0 7 ≤ 96) [(0, 7)] ++ no (f 8 16 != 0) [(8, 16)]
  | .tsCfg => no (f 0 20 ≤ 1000000) [(0, 20)]
  | .fqBase => no (localRange (f 16 40 * 2 ^ 16) 0x10000) [(16, 40)]
  | .fqDeadline => no (1 ≤ f 0 20 && f 0 20 ≤ 1000000) [(0, 20)]
  | .lnkCtrl => no (1 ≤ f 0 3 && f 0 3 ≤ linkGroups i) [(0, 3)]
  | .scrubCtrl => no (1 ≤ f 8 10 && f 8 10 ≤ 1000) [(8, 10)]
  | .mscCtrl => no (f 0 4 ≤ 12) [(0, 4)]
  | .seqCptRate => no (f 0 8 != 0) [(0, 8)]
  | .cohCtrl => no (1 ≤ f 0 10 && f 0 10 ≤ 1000) [(0, 10)]
  | .ordCtrl => no (1 ≤ f 0 10 && f 0 10 ≤ 1000) [(0, 10)]
  | .fabCtrl => no (10 ≤ f 1 10 && f 1 10 ≤ 1000) [(1, 10)] ++ no (f 32 20 ≤ 1000000) [(32, 20)]
  | .wsCtrl => no (1 ≤ f 8 8 && f 8 8 ≤ 100) [(8, 8)] ++ no (1 ≤ f 16 11 && f 16 11 ≤ 1440) [(16, 11)]
  | .wsThresh => no (f 32 16 < f 16 16 && f 0 16 ≤ f 16 16) [(0, 16), (16, 16), (32, 16)]
  | .mbCtrl => no (f 14 1 == 0 || i == 0 || i == 2 || i == 3) [(14, 1)]
  | .pciPortCtrl => no (f 1 20 ≤ 1000000) [(1, 20)]
  | .pmuEvsel =>
    let e := f 0 12
    let top := if i < 512 then (1, 0xE) else if i < 576 then (0x101, 0x108) else if i < 580 then (0x201, 0x208) else (0x301, 0x306)
    no (e == 0 || (top.1 ≤ e && e ≤ top.2)) [(0, 64)]
  | .pmuTag => no (6 ≤ f 1 5 && f 1 5 ≤ 20) [(1, 5)]
  | .dctrl => no (1 ≤ f 2 20 && f 2 20 ≤ 1000000) [(2, 20)]
  | .dbase => no (ring 7 128) [(0, 5), (7, 49)]
  | .sbase => no (ring 6 64) [(0, 5), (6, 50)]
  | .dridx => no (idx .dridx .dwidx) [(0, 64)]
  | .sridx => no (idx .sridx .swidx) [(0, 64)]
  | .pmuFixed => no (j == 0 || i < 576) [(0, 64)]
  | _ => []

/-- The ERR bit of a register's group. -/
def State.setErr (s : State) (k : RegKind) (i : Nat) : State :=
  let md (m : RegKind) (lo : Nat) : State := s.setFld m i 0 lo 1 1
  match k with
  | .tsChCtrl | .tsCfg => md .tsCfg 20
  | .fqBase | .fqDeadline | .fqResp => md .fqStatus 1
  | .lnkCtrl => md .lnkStatus 6
  | .scrubCtrl | .mscCtrl => md .memStatus 9
  | .seqCptRate => md .seqStatus 25
  | .cohCtrl => md .cohStatus 0
  | .ordCtrl => s.setFld .ordStatus 0 0 0 1 1
  | .fabCtrl => s.setFld .fabStatus 0 0 0 1 1
  | .wsCtrl | .wsThresh => s.setFld .wsStatus 0 0 19 1 1
  | .mbCtrl => md .mbStatus 27
  | .pciPortCtrl => md .pciPortStatus 13
  | .pmuEvsel | .pmuTag => md .pmuCtrl 1
  | .dctrl | .dbase | .sbase | .dridx | .sridx => s.setFld .dstatus 0 0 0 1 1
  | _ => s

/-- The fields of a register after a store: RW fields take the merged value unless it is out of range, W1C and W1S bits
act where the store covers their byte (R4, R421). -/
def State.storeFields (s : State) (k : RegKind) (i j o n : Nat) (v : Word) : State :=
  let m := mergeReg (s.reg k i j) o n v
  let bad := s.outOfRange k i j m
  let one (s1 : State) (f : Fld) : State :=
    match f.acc with
    | .rw => if bad.any (fun b => b.1 ≤ f.lo && f.lo < b.1 + b.2) then s1 else s1.setFld k i j f.lo f.wid (bits m f.lo f.wid)
    | .w1c => if 8 * o ≤ f.lo && f.lo < 8 * (o + n) && bit v (f.lo - 8 * o) then s1.setFld k i j f.lo f.wid 0 else s1
    | .w1s => if 8 * o ≤ f.lo && f.lo < 8 * (o + n) && bit v (f.lo - 8 * o) then s1.setFld k i j f.lo f.wid 1 else s1
    | _ => s1
  let s1 := (regFields k).foldl one s
  if bad.isEmpty then s1 else s1.setErr k i

/-- A monitor starts again (R400). -/
def State.monClear (s : State) (i : Nat) : State :=
  (upTo 8).foldl (fun s1 j => s1.setReg .monBin i j 0) (s.setReg .monRange i 0 0xFFFFFFFF)

/-- A store performed at its block, and whether it ends with a bus error; none where it waits. -/
def State.regStore (s : State) (iss : Iss) (addr n : Nat) (v : Word) : Option (State × Bool) :=
  let o := addr % 8
  let wo (lo : Nat) : Bool := 8 * o ≤ lo && lo < 8 * (o + n) && bit v (lo - 8 * o)
  if isAuxWin addr then
    (match s.auxGranted addr n 1 with
     | some w => some (s.auxSend w true addr n v.toNat, false)
     | none => some (s.fwViolation 4 addr, true))
  else match regAt (addr - o) with
  | none => some (s, false)
  | some (k, i, j) =>
    let plain := s.storeFields k i j o n v
    let done (s : State) : Option (State × Bool) := some (s, false)
    if isPmu k && !s.pmuMayWrite iss then done s
    else match k with
    | .dqDoorbell => done (s.dqRing i n v)
    | .dqRidx | .dqStatus => done (if s.queues.has i then plain else s)
    | .cgDoorbell => done (s.cgRing i n v)
    | .mxSeed => done (s.writeSeed i (mergeReg (s.seedNow i) o n v))
    | .seqBtcCtrl => done (if wo 0 then s.btcFlush i else s)
    | .mscCtrl =>
      let s1 := if wo 8 then plain.mscFlush i else plain
      done (if wo 9 then s1.mscUnkeep i else s1)
    | .ccCtrl => done (if wo 0 then s.flushAgent i else s)
    | .fqResp =>
      if n < 8 then done s
      else if bits v 32 2 = 0 then done (s.fqRespond i (bits v 0 32) .retry)
      else if bits v 32 2 = 1 then done (s.fqRespond i (bits v 0 32) .done)
      else if bits v 32 2 = 2 then done (s.fqRespond i (bits v 0 32) .fault)
      else done (s.setErr .fqResp i)
    | .fqRidx => done (s.fqRead i (mergeReg (s.reg .fqRidx i 0) o n v))
    | .fqBase => done (plain.fqDrain i 16)
    | .lnkCtrl => done (if wo 3 then plain.retrainWrite i else plain)
    | .memStatus =>
      done (if s.fld .memStatus i 0 8 1 = 1 ∧ plain.fld .memStatus i 0 8 1 = 0 then
        { plain with ueSent := plain.ueSent.filter (fun l => s.homeOf l ≠ i) } else plain)
    | .seqStatus =>
      done (if s.fld .seqStatus i 0 24 1 = 1 ∧ plain.fld .seqStatus i 0 24 1 = 0 then
        { plain with seq := { plain.seq with reported := plain.seq.reported.filter (fun l => s.homeOf l ≠ i) } } else plain)
    | .mbCmd => done (if i = 7 then s else if s.fld .mbStatus i 0 24 1 = 1 then s.setFld .mbStatus i 0 26 1 1 else plain)
    | .mbCtrl => done (if i = 7 then s else if s.fld .mbStatus i 0 24 1 = 1 then s.setFld .mbStatus i 0 26 1 1 else plain)
    | .mbStatus => done (if i = 7 then s else plain)
    | .mbDoorbell => done (if i ≠ 7 ∧ wo 0 then s.mbRing i else s)
    | .evrRidx => done (s.evrRead i (mergeReg (s.reg .evrRidx i 0) o n v))
    | .pciPortCtrl =>
      if s.fld .pciPortStatus i 0 10 1 = 1 then done (s.setErr .pciPortCtrl i)
      else
        let s1 := plain.setFld .pciPortCtrl i 0 0 1 (s.fld .pciPortCtrl i 0 0 1)
        done (if plain.fld .pciPortCtrl i 0 0 1 = 1 then s1.pciEnable i else s1.pciDisable i)
    | .pmuEvsel => done (if 512 ≤ i ∧ i < 576 then plain else plain.setFld .pmuEvsel i j 12 3 0)
    | .pmuTag => done (if plain.fld .pmuTag i 0 6 24 = 0 then plain.setFld .pmuTag i 0 6 24 1 else plain)
    | .dctrl => done (if s.fld .dctrl 0 0 0 1 = 0 ∧ plain.fld .dctrl 0 0 0 1 = 1 then
        { plain with pmu := { plain.pmu with tick := 0, last := s.now, interval := plain.fld .dctrl 0 0 2 20 } } else plain)
    | .dsel => done (if j = 9 then (plain.setFld .dsel i 9 5 11 0).setFld .dsel i 9 32 32 0 else plain)
    | .monCtrl => done (if wo 1 then plain.monClear i else plain)
    | _ => done plain

/- The commands. -/

/-- REGISTER_WRITE. -/
def execRegisterWrite (iss : Iss) (addr size : Nat) (value : Word) (s : State) : Out :=
  if !isMmio addr || !accessWf addr size then .refused .illFormed
  else match s.reach iss addr with
    | .wait => .next s
    | .bus => .next (s.wrote iss true)
    | .ok => match s.regStore iss addr size value with
      | none => .next s
      | some (s1, err) => .next (s1.wrote iss err)

/-- REGISTER_READ_CLEAR: a load of a register; RC fields that it covers read and clear (R5). -/
def execRegisterReadClear (iss : Iss) (addr size : Nat) (s : State) : Out :=
  if !isMmio addr || !accessWf addr size then .refused .illFormed
  else match s.reach iss addr with
    | .wait => .next s
    | .bus => .next (s.wasRead iss addr 0 true)
    | .ok =>
      let (s1, v, err) := s.regLoad iss addr size
      .next (s1.wasRead iss addr v err)

/-- PMU_COUNTER_WRITE: the written value plus the events of that clock (R392); counter `idx` 0-7 is PMC, 8-13 a fixed one. -/
def execPmuCounterWrite (iss : Iss) (unit idx size : Nat) (value : Word) (events : Nat) (s : State) : Out :=
  if unit ≥ 581 || idx ≥ 14 || !accessWf 0 size then .refused .illFormed
  else
    let k : RegKind := if idx < 8 then .pmuPmc else .pmuFixed
    let j := if idx < 8 then idx else idx - 8
    s.atBlock iss k unit j (fun s =>
      if !s.pmuMayWrite iss || (576 ≤ unit && 9 ≤ idx) then s
      else s.setReg k unit j (mergeReg (s.reg k unit j) 0 size value + BitVec.ofNat 64 (if s.pmuOn unit then events else 0)))

/-- HD_MON_CLEAR. -/
def execHdMonClear (iss : Iss) (i : Nat) (s : State) : Out :=
  if i ≥ 16 then .refused .illFormed else s.atBlock iss .monCtrl i 0 (fun s => s.monClear i)

end Sys2Proof.Machine
end

