-- ==== Sys2Proof/Machine/Pcie.lean ====
section
/-! DEFINITION. Requests that arrive at a PCIe port (R374 to R377): the BARs of an endpoint, DMA at a root port. -/

namespace Sys2Proof.Machine

/-- A completion to the link partner. -/
def State.cplTo (s : State) (n : Nat) (b : List Byte) (st : Nat) : State :=
  s.setPciP n { s.pciP n with cpl := (s.pciP n).cpl ++ [(b, st)] }

def cplUr : Nat := 1
def cplCa : Nat := 2
def cplEp : Nat := 3

/-- Where an inbound request goes: 0 the mailbox page, 1 the MSI-X table, 2 the pending bits, 3 nothing in BAR0, 4 local
memory, 5 doorbell pages. None: outside a BAR, or at a root port at or above 2^41 (R374, R376). -/
def State.target (s : State) (n bar addr len : Nat) : Option Nat :=
  if s.isRoot n then (if addr + len ≤ 2 ^ 41 then some 4 else none)
  else if bar = 2 then (if addr + len ≤ 2 ^ 41 then some 4 else none)
  else if bar = 4 then (if addr + len ≤ 2 ^ 24 then some 5 else none)
  else if addr + len > 0x10000 then none
  else if addr + len ≤ 0x4000 then some 0
  else if 0x8000 ≤ addr ∧ addr + len ≤ 0x8200 then some 1
  else if 0xC000 ≤ addr ∧ addr + len ≤ 0xC008 then some 2
  else some 3

/-- The parts of a byte range, one for each aligned 8 B word it touches; the last argument bounds them. -/
def wordsOf (a n : Nat) : Nat → List (Nat × Nat)
  | 0 => []
  | k + 1 => if n = 0 then [] else let m := min n (8 - a % 8); (a, m) :: wordsOf (a + m) (n - m) k

/-- A byte range of registers is read, word by word (R421). -/
def State.devRead (s : State) (a n : Nat) : State × List Byte × Bool :=
  (wordsOf a n (n + 1)).foldl (fun acc w =>
    let (s1, v, e) := acc.1.regLoad .ext w.1 w.2
    (s1, acc.2.1 ++ leBytes w.2 v.toNat, acc.2.2 || e)) (s, [], false)

/-- A byte range of registers is written. None: it waits. -/
def State.devWrite (s : State) (a : Nat) (b : List Byte) : Option (State × Bool) :=
  (wordsOf a b.length (b.length + 1)).foldl (fun acc w => match acc with
    | none => none
    | some (s1, e) => (s1.regStore .ext w.1 w.2 (BitVec.ofNat 64 (ofLeBytes ((b.drop (w.1 - a)).take w.2)))).map (fun x => (x.1, e || x.2)))
    (some (s, false))

/-- Address in the MMIO region of a BAR's registers. -/
def barAddr (n t addr : Nat) : Nat := if t = 5 then 0xF00040000000 + addr else 0xF00034000000 + 0x8000 + 0x4000 * n + addr

/-- Bytes of the MSI-X structures: the table, or the pending bits. -/
def State.msixBytes (s : State) (n t addr len : Nat) : List Byte :=
  let all := if t = 1 then (upTo 64).flatMap (fun w => leBytes 8 (s.msixWord n w).toNat) else leBytes 8 (s.pciP n).pba
  (all.drop (addr % 0x4000)).take len

/-- A pending vector whose mask is clear is sent. -/
def State.msixPend (s : State) (n : Nat) : State :=
  (upTo 32).foldl (fun s1 v =>
    if ((s1.pciP n).pba >>> v) % 2 = 1 && !bit (s1.msixWord n (2 * v + 1)) 32 then
      (s1.setPciP n { s1.pciP n with pba := (s1.pciP n).pba - 2 ^ v }).sendMsix n v else s1) s

/-- The MSI-X table is written. -/
def State.msixWrite (s : State) (n addr : Nat) (b : List Byte) : State :=
  let put (s1 : State) (w : Nat × Nat) : State :=
    let i := (w.1 - 0x8000) / 8
    let v := mergeReg (s1.msixWord n i) (w.1 % 8) w.2 (BitVec.ofNat 64 (ofLeBytes ((b.drop (w.1 - addr)).take w.2)))
    s1.setPciP n { s1.pciP n with tab := (s1.pciP n).tab.set i v }
  ((wordsOf addr b.length (b.length + 1)).foldl put s).msixPend n

/-- The port takes requests; a disabled one refuses them while it drains. -/
def State.pciTakes (s : State) (n : Nat) : Bool := s.fld .pciPortCtrl n 0 0 1 == 1

/-- Memory answers (R375, R404). -/
def State.memReady (s : State) : Bool := s.memOk && !s.inReset .warm

/-- Lines of a byte range in use. -/
def State.rangeBusy (s : State) (a n : Nat) : Bool := (upTo (ceilDiv (a % 128 + n) 128)).any (fun i => s.lineBusy (a / 128 + i))

/-- Whole and partial lines of a posted write, each indivisible (R232); the last argument bounds them. -/
def State.putBytes (s : State) (a : Nat) (b : List Byte) (p : Bool) : Nat → Option State
  | 0 => some s
  | k + 1 =>
    if b.isEmpty then some s
    else
      let m := min b.length (128 - a % 128)
      match s.ncWrite (a / 128) (maskAt (a % 128) m) (lineAt (a % 128) m (ofLeBytes (b.take m))) p 1 with
      | .ok s1 _ _ => State.putBytes s1 (a + m) (b.drop m) p k
      | _ => none

/-- A posted write is performed: one that is refused changes nothing, and nothing answers it. None: it waits for a line. -/
def State.postWrite (s : State) (n : Nat) (w : Posted) : Option State :=
  if !s.pciTakes n then some s
  else match s.target n w.bar w.addr w.data.length with
    | some 4 => if !s.memReady || !localRange w.addr w.data.length then some s
                else if s.rangeBusy w.addr w.data.length then none else s.putBytes w.addr w.data w.ep 6
    | some 1 => some (s.msixWrite n w.addr w.data)
    | some t => if t = 0 ∨ t = 5 then (s.devWrite (barAddr n t w.addr) w.data).map (·.1) else some s
    | none => some s

/-- Posted writes of a port leave in the order in which they arrived, up to the first that waits; the last argument bounds
them. -/
def State.pumpPosted (s : State) (n : Nat) : Nat → State
  | 0 => s
  | k + 1 => match (s.pciP n).posted with
    | [] => s
    | w :: r => match (s.setPciP n { s.pciP n with posted := r }).postWrite n w with
      | some s1 => s1.pumpPosted n k
      | none => s

/-- The posted writes of both ports. -/
def State.pumpPeers (s : State) : State :=
  (upTo 2).foldl (fun s1 n => s1.pumpPosted n (s1.pciP n).posted.length) s

/-- PCIE_MEMORY_WRITE of up to 512 B. It waits behind the earlier writes of its peer, but one with relaxed ordering that is
ready is performed at once (R232). -/
def execPcieMemoryWrite (n bar addr : Nat) (data : List Byte) (attr : TlpAttr) (s : State) : Out :=
  let len := data.length
  if n ≥ 2 || !(bar == 0 || bar == 2 || bar == 4) || addr ≥ 2 ^ 64 || len = 0 || len > 512 then .refused .illFormed
  else if !s.pciUp n then .next s
  else
    let s1 := s.count 580 0x305
    let w : Posted := { bar := bar, addr := addr, data := data, ep := attr.ep }
    let wait (s2 : State) : State := s2.setPciP n { s2.pciP n with posted := (s2.pciP n).posted ++ [w] }
    if attr.relaxed || (s1.pciP n).posted.isEmpty then
      (match s1.postWrite n w with
       | some s2 => .next s2
       | none => .next (wait s1))
    else .next ((wait s1).pumpPosted n ((s1.pciP n).posted.length + 1))

/-- PCIE_MEMORY_READ of up to 4,096 B; it does not pass the posted writes that arrived before it. -/
def execPcieMemoryRead (n bar addr len : Nat) (s : State) : Out :=
  if n ≥ 2 || !(bar == 0 || bar == 2 || bar == 4) || addr ≥ 2 ^ 64 || len = 0 || len > 4096 then .refused .illFormed
  else if !s.pciUp n then .next s
  else if !(s.pciP n).posted.isEmpty then .next s
  else
    let s1 := s.count 580 0x305
    if !s.pciTakes n then .next (s1.cplTo n [] cplCa)
    else match s.target n bar addr len with
      | none => .next (s1.cplTo n [] cplUr)
      | some 4 =>
        if !s.memReady then .next (s1.cplTo n [] cplCa)
        else if !localRange addr len then .next (s1.cplTo n [] cplUr)
        else if s.rangeBusy addr len then .next s
        else (match s1.readBytes addr len with
          | none => .next s
          | some (s2, b, p) => .next (s2.cplTo n b (if p then cplEp else 0)))
      | some 3 => .next (s1.cplTo n (List.replicate len 0) 0)
      | some t =>
        if t = 0 ∨ t = 5 then
          (let (s2, b, e) := s1.devRead (barAddr n t addr) len
           .next (s2.cplTo n b (if e then cplUr else 0)))
        else .next (s1.cplTo n (s.msixBytes n t addr len) 0)

/-- PCIE_ATOMICOP on local memory: FetchAdd adds op1, Swap stores op1, CAS compares with op1 and stores op2 (R373, R375). -/
def execPcieAtomicop (n : Nat) (k : PcieAtom) (addr : Nat) (wide : Bool) (op1 op2 : Word) (s : State) : Out :=
  let w := if wide then 8 else 4
  if n ≥ 2 || addr ≥ 2 ^ 64 || addr % w ≠ 0 then .refused .illFormed
  else if !s.pciUp n || !(s.pciP n).posted.isEmpty then .next s
  else
    let s1 := s.count 580 0x305
    if !s.pciTakes n then .next (s1.cplTo n [] cplCa)
    else match s.target n 2 addr w with
      | none => .next (s1.cplTo n [] cplUr)
      | some _ =>
        if !s.memReady then .next (s1.cplTo n [] cplCa)
        else if !localRange addr w then .next (s1.cplTo n [] cplUr)
        else
          let r := match k with
            | .fetchAdd => s1.ncAmo addr w 0 op1 0 1
            | .swap => s1.ncAmo addr w 4 op1 0 1
            | .cas => s1.ncAmo addr w 5 op2 op1 1
          (match r with
           | .ok s2 d p => .next (s2.cplTo n (leBytes w (lineBytes d (addr % 128) w)) (if p then cplEp else 0))
           | _ => .next s)

end Sys2Proof.Machine
end

