-- ==== Sys2Proof/Machine/Sideband.lean ====
section
/-! DEFINITION. The side-band of J1 (R378, R379), the test access port of J14 (R417, R418), and the debug commands (R343, R404). -/

namespace Sys2Proof.Machine

/- I3C (R378, R379). -/

def mbPage (mb : Nat) : Nat := 0xF00034000000 + 0x4000 * mb

/-- One byte of a private write. -/
def State.i3cPut (s : State) (p : Nat) (b : Byte) : State :=
  if p < 0x40 then
    (match s.regStore .ext (mbPage 4 + p) 1 (b.zeroExtend 64) with | some (s1, _) => s1 | none => s)
  else if p = 0x80 ∧ b = 1 then s.mbRing 4
  else if p = 0x8B ∧ b = 2 then s.setFld .mbStatus 4 0 25 1 0
  else s

/-- The target is present and has its dynamic address. -/
def State.i3cOn (s : State) : Bool := s.hdOn && s.cp.i3cDyn.isSome

/-- I3C_PRIVATE_WRITE: the pointer, and the bytes from it onward. -/
def execI3cPrivateWrite (b : List Byte) (s : State) : Out :=
  if !s.i3cOn then .next s
  else match b with
    | [] => .next s
    | p :: r =>
      let go (s1 : State) (x : Byte) : State :=
        let s2 := s1.i3cPut s1.cp.i3cPtr x
        { s2 with cp := { s2.cp with i3cPtr := (s2.cp.i3cPtr + 1) % 256 } }
      .next (r.foldl go { s with cp := { s.cp with i3cPtr := p.toNat } })

/-- One byte of a private read. -/
def State.i3cGet (s : State) (p : Nat) : Byte :=
  if 0x40 ≤ p ∧ p < 0x80 then (BitVec.ofNat 8 (s.fld .mbRsp 4 ((p - 0x40) / 8) (8 * (p % 8)) 8))
  else if 0x88 ≤ p ∧ p < 0x90 then (BitVec.ofNat 8 (s.fld .mbStatus 4 0 (8 * (p % 8)) 8))
  else if p = 0x90 then BitVec.ofNat 8 s.i3cAlert
  else 0xFF

/-- I3C_PRIVATE_READ: bytes from the pointer onward, which a read leaves where it is (DEDUCED, log 66); a read of ALERT
clears its bits 1 and 2. -/
def execI3cPrivateRead (n : Nat) (s : State) : Out :=
  if n = 0 ∨ n > 256 then .refused .illFormed
  else if !s.i3cOn then .next s
  else
    let ps := (upTo n).map (fun i => (s.cp.i3cPtr + i) % 256)
    .next { s with cp := { s.cp with i3cOut := ps.map (fun p => s.i3cGet p), i3cAlert := if ps.elem 0x90 then 0 else s.cp.i3cAlert } }

/-- I3C_CCC. The characteristics that the GET codes return are the target's own (R378 gives no values). -/
def execI3cCcc (k : Ccc) (arg : Nat) (s : State) : Out :=
  if arg ≥ 256 then .refused .illFormed
  else if !s.hdOn then .next s
  else
    let get (i : Nat) : State := if s.cp.i3cDyn.isSome then { s with cp := { s.cp with i3cOut := leBytes 8 (Config.i3cChar i).toNat } } else s
    match k with
    | .rstdaa => .next { s with cp := { s.cp with i3cDyn := none } }
    | .entdaa | .setdasa => .next (if s.cp.i3cDyn.isNone && arg < 128 then { s with cp := { s.cp with i3cDyn := some arg } } else s)
    | .enec => .next (if s.cp.i3cDyn.isSome && arg % 2 = 1 then { s with cp := { s.cp with i3cIbi := true } } else s)
    | .disec => .next (if s.cp.i3cDyn.isSome && arg % 2 = 1 then { s with cp := { s.cp with i3cIbi := false } } else s)
    | .getpid => .next (get 0)
    | .getbcr => .next (get 1)
    | .getdcr => .next (get 2)
    | .getstatus => .next (get 3)
    | .getmwl => .next (get 4)
    | .getmrl => .next (get 5)
    | .other => .next s

/- J14 (R418). -/

/-- JTAG_MBACCESS: one 64-bit access to MB6; a read leaves its value for the next Capture-DR. With no debugger present a
write is ignored and a read is zero. -/
def execJtagMbaccess (dr : BitVec 72) (s : State) : Out :=
  let i := dr.toNat / 2 ^ 64 % 32
  if !s.hdOn then .next s
  else if !s.cp.prsnt then .next (if dr.getLsbD 69 then s else { s with cp := { s.cp with jtag := 0 } })
  else if dr.getLsbD 69 then
    (if i > 18 then .next s
     else match s.regStore .ext (mbPage 6 + 8 * i) 8 (dr.truncate 64) with
      | some (s1, _) => .next s1
      | none => .next s)
  else if i > 18 then .next { s with cp := { s.cp with jtag := 0 } }
  else
    let (s1, v, _) := s.regLoad .ext (mbPage 6 + 8 * i) 8
    .next { s1 with cp := { s1.cp with jtag := v } }

/- Debug commands (R343, R404). -/

def stDbgDetached : Nat := 0x0F01
def stDbgAccess : Nat := 0x0F02
def stPwrState : Nat := 0x0503

/-- A group that DBGTRAP halted goes on after it. -/
def State.dbgGo (s : State) (c slot : Nat) : State :=
  match s.grp c slot with
  | none => s
  | some g =>
    let ls := (upTo g.width).filter (fun i => (g.lane i).wait = .dbg && !(g.lane i).exited)
    if ls.isEmpty then s
    else
      let g1 := ls.foldl (fun g1 i => g1.setLane i { g1.lane i with wait := .run }) { g with opLanes := ls }
      (s.setGrp c slot g1).finishLanes (.grp c slot) g.dbgLen false ls.length

/-- Slots of a core with a group. -/
def State.residents (s : State) (c : Nat) : List Nat := (upTo 64).filter (fun sl => (s.grp c sl).isSome)

/-- A halt of a unit ends. -/
def State.unhalt (s : State) (kind t : Nat) : State :=
  if kind = 0 then s.setCore t { s.core t with halted := false }
  else (s.residents t).foldl (fun s1 sl => s1.dbgGo t sl) (s.setCoreS t { s.coreS t with halted := false })

/-- DBG_ATTACH; a detach resumes every halted unit. -/
def execDbgAttach (mb : Nat) (s : State) : Out :=
  command mb 0xF01 s (fun s m =>
    if !m.clean [(4, 1)] || m.arg 4 1 > 1 then .done s stBadArg []
    else
      let s1 : State := { s with cp := { s.cp with attach := m.arg 4 1 == 1 } }
      if m.arg 4 1 = 1 then .done s1 stOk []
      else
        let cs := ((s1.grps.map (fun (e : Nat × Group) => e.1 / 64)) ++ (s1.cores.map (fun (e : Nat × CoreS) => e.1))).eraseDups
        let s2 := (s1.pd.map (fun (e : Nat × PCore) => e.1)).foldl (fun s2 n => s2.unhalt 0 n) s1
        .done (cs.foldl (fun s3 c => s3.unhalt 1 c) s2) stOk [])

/-- KIND and TARGET name a unit. -/
def dbgTarget (m : Mbx) : Bool := m.clean [(4, 1), (6, 2)] && m.arg 4 1 ≤ 1 && m.arg 6 2 < (if m.arg 4 1 = 0 then 64 else 512)

/-- The instructions in flight of a unit are over. -/
def State.haltBoundary (s : State) (kind t : Nat) : Bool :=
  if kind = 0 then (s.core t).op.isNone && (s.core t).barrier.isNone
  else (s.residents t).all (fun sl => match s.grp t sl with | some g => g.op.isNone && g.barrier.isNone | none => true)

/-- DBG_HALT: no instruction starts any more; the answer comes when those in flight are over. The pc that the event shows
of a compute-die core, which has one for each lane, is a free value (DESIGN CHOICE, log 67). -/
def execDbgHalt (mb : Nat) (s : State) : Out :=
  command mb 0xF02 s (fun s m =>
    let kind := m.arg 4 1
    let t := m.arg 6 2
    if !dbgTarget m then .done s stBadArg []
    else if !s.cp.attach then .done s stDbgDetached []
    else if s.fld .pwrStatus 0 0 0 3 = 3 then .done s stPwrState []
    else
      let s1 := if kind = 0 then s.setCore t { s.core t with halted := true } else s.setCoreS t { s.coreS t with halted := true }
      if !s1.haltBoundary kind t then .gone s1
      else
        let (k, s2) := s1.stamp
        let pc := if kind = 0 then (s2.core t).thr.pc.toNat else (Config.freeWord k).toNat
        .done (s2.post evDbgHalt (if kind = 0 then 8 else t / 64) [(1, kind), (2, t), (8, pc)]) stOk [])

/-- DBG_RESUME. -/
def execDbgResume (mb : Nat) (s : State) : Out :=
  command mb 0xF03 s (fun s m =>
    if !dbgTarget m then .done s stBadArg []
    else if s.fld .pwrStatus 0 0 0 3 = 3 then .done s stPwrState []
    else .done (s.unhalt (m.arg 4 1) (m.arg 6 2)) stOk [])

/-- A debugger's access beyond the module's own answers, numbered so that no other answer is taken for it. -/
def State.dbgAsk (s : State) (off len : Nat) : State × Who :=
  let (t, s1) := s.newTag
  ({ s1 with cp := { s1.cp with dbg := some (t + 4, off, len) } }, .ext (t + 4))

/-- DBG_READ. -/
def execDbgRead (mb : Nat) (s : State) : Out :=
  command mb 0xF04 s (fun s m =>
    let a := m.arg 8 8
    let n := m.arg 0x10 1
    let bad : CmdRes := .done s stDbgAccess []
    if !m.clean [(8, 8), (0x10, 1)] || n = 0 || n > 64 || a ≥ 2 ^ 56 || a % 128 + n > 128 then .done s stBadArg []
    else match s.memKind a true with
    | .cached | .nc =>
      (match s.ncRead (a / 128) 1 with
       | .wait => .wait
       | .bus => bad
       | .ok s1 d p => if p then .done s1 stDbgAccess [] else .done s1 stOk (leBytes n (lineBytes d (a % 128) n)))
    | .mmio =>
      (match s.reach .ext a with
       | .ok => let (s1, b, e) := s.devRead a n; if e then .done s1 stDbgAccess [] else .done s1 stOk b
       | _ => bad)
    | .pcie =>
      if s.pcieUp (pciePort (a / 128)) then
        (let (s1, w) := s.dbgAsk (a % 128) n
         .later (({ s1 with pci := s1.pci.upd {} (pciePort (a / 128)) (fun y => { y with out := y.out ++ [(w, a / 128)] }) } : State).count 580 0x305))
      else bad
    | .remote =>
      if s.remoteKnown a then (let (s1, w) := s.dbgAsk (a % 128) n; .later (s1.remoteAccess w 0 (a / 128) 0 0 1 0)) else bad
    | .unmapped => bad)

/-- DBG_WRITE. -/
def execDbgWrite (mb : Nat) (s : State) : Out :=
  command mb 0xF05 s (fun s m =>
    let a := m.arg 8 8
    let n := m.arg 0x10 1
    let b := m.bytes 0x18 n
    let bad : CmdRes := .done s stDbgAccess []
    if !m.clean [(8, 8), (0x10, 1), (0x18, 40)] || n = 0 || n > 40 || a ≥ 2 ^ 56 || a % 128 + n > 128 then .done s stBadArg []
    else match s.memKind a true with
    | .cached | .nc =>
      (match s.ncPut a b 1 with
       | .wait => .wait
       | .bus => bad
       | .ok s1 _ _ => .done s1 stOk [])
    | .mmio =>
      (match s.reach .ext a with
       | .ok => (match s.devWrite a b with
          | none => .wait
          | some (s1, e) => .done s1 (if e then stDbgAccess else stOk) [])
       | _ => bad)
    | .pcie => 
      if s.pcieUp (pciePort (a / 128)) then
        .done (s.pcieWrite (pciePort (a / 128)) (a / 128) (maskAt (a % 128) n) (lineAt (a % 128) n (ofLeBytes b)) false) stOk []
      else bad
    | .remote =>
      if s.remoteKnown a then
        (let (s1, w) := s.dbgAsk 0 0
         .later (s1.remoteAccess w 1 (a / 128) (maskAt (a % 128) n) (lineAt (a % 128) n (ofLeBytes b)) 1 0))
      else bad
    | .unmapped => bad)

end Sys2Proof.Machine
end

