-- ==== Sys2Proof/Machine/Security.lean ====
section
/-! DEFINITION. The security root (R380 to R389): images and their verification, staging and activation, attestation,
identity. -/

namespace Sys2Proof.Machine

def stSecBadArg : Nat := 0x0701
def stSecSig : Nat := 0x0702
def stSecRollback : Nat := 0x0703
def stSecBusy : Nat := 0x0704
def stSecState : Nat := 0x0705
def stSecExhausted : Nat := 0x0706
def stSecFlash : Nat := 0x0707

/- Images (R381, R382). -/

/-- Image of component c in bank b. -/
def State.image (s : State) (b c : Nat) : Image := s.sec.img.get {} (3 * b + c)
def State.setImage (s : State) (b c : Nat) (i : Image) : State := { s with sec := { s.sec with img := s.sec.img.set (3 * b + c) i } }
def State.rollback (s : State) (c : Nat) : Nat := s.sec.rb.get 0 c

/-- An image is accepted; component 2 is not signed. -/
def State.accepts (s : State) (b c : Nat) : Bool := (s.image b c).ok && (c == 2 || s.rollback c ≤ (s.image b c).svn)

/-- A staged image: what verifying it gives, and the image. -/
def State.verify (s : State) (c : Nat) (b : List Byte) : Nat × Image :=
  let i : Image := { ok := true, svn := (Config.imageSvn b).toNat, len := b.length, hash := Config.sha256 (ofLeBytes b) b.length }
  if c = 2 then (stOk, { i with svn := 0 })
  else if !Config.imageOk b c then (stSecSig, { i with ok := false })
  else if i.svn < s.rollback c then (stSecRollback, { i with ok := false })
  else (stOk, i)

/-- A staged image that has arrived whole: verified, and a boot configuration record takes effect in its bank (R385). -/
def State.stageImage (s : State) (g : Stage) (b : List Byte) : State × Nat :=
  let (st, i) := s.verify g.comp b
  let s1 := s.setImage g.bank g.comp i
  let f (k n : Nat) : Nat := Config.recordField b k % n
  let s2 : State := if g.comp = 2 then
      { s1 with sec := { s1.sec with cfg := s1.sec.cfg.set g.bank { roles := f 0 4, sris := f 1 4, hp := f 2 49, sp := f 3 65, plain := f 4 512 } } }
    else s1
  (s2, st)

/-- Fields of HD_SEC_STATUS that follow the fuses and the boot (R390). -/
def State.secShow (s : State) : State :=
  s.setReg .secStatus 0 0 (setBits (setBits (setBits (setBits (s.reg .secStatus 0 0) 1 1 s.sec.running) 8 13 s.sec.fuse) 21 6 (s.rollback 0)) 27 6 (s.rollback 1))

/-- The attestation counter advances one bit, and bottom leaf 0 is next (R387). -/
def State.attAdvance (s : State) (cause : Nat) : State :=
  if s.sec.fuse ≥ 4096 then s
  else
    let n := s.sec.fuse + 1
    let s1 := ({ s with sec := { s.sec with fuse := n, flashTop := some n, leaf := 0 } } : State).secShow
    s1.post evSecAttest 13 [(4, n), (1, cause), (4, 4096 - n)]

/-- SHA-256 of a boot configuration record as the verifier read it (R385). -/
def BootCfg.hash (c : BootCfg) (i : Image) : BitVec 256 :=
  Config.sha256 (i.hash.toNat * 2 ^ 48 + c.roles + c.sris * 2 ^ 8 + c.hp * 2 ^ 16 + c.sp * 2 ^ 24 + c.plain * 2 ^ 32) 38

/-- Bank of the boot configuration record: the running one, unless its record has been erased. -/
def State.cfgBank (s : State) : Nat := if (s.image s.sec.running 2).ok then s.sec.running else 1 - s.sec.running

/-- The boot configuration that the module runs with. -/
def State.bootCfg (s : State) : BootCfg := s.sec.cfg.get {} s.cfgBank

/-- The verifier at a boot (R382, R387). `ok` says what flash gives: the attestation record first, then the images of bank
A and of bank B; what it does not name reads well. -/
def State.secBoot (s : State) (ok : List Bool) : State :=
  let reads (i : Nat) : Bool := (ok[i]?).getD true
  let good (b c : Nat) : Bool := s.accepts b c && reads (1 + 3 * b + c)
  let pick (c : Nat) : Option Nat := if good s.sec.sel c then some s.sec.sel else if good (1 - s.sec.sel) c then some (1 - s.sec.sel) else none
  let s1 : State := match pick 0 with
    | none => ({ s with sec := { s.sec with running := s.sec.sel, measured := [] } } : State).setFld .secStatus 0 0 0 1 1
    | some b =>
      let m0 : NMap (BitVec 256) := [(0, (s.image b 0).hash)]
      let m1 := match pick 1 with | some b1 => m0 ++ [(1, (s.image b1 1).hash)] | none => m0
      let s0 : State := { s with sec := { s.sec with running := b } }
      { s0 with sec := { s0.sec with measured := m1 ++ [(2, s0.bootCfg.hash (s.image s0.cfgBank 2))] } }
  let s2 := s1.secShow
  if reads 0 && s2.sec.flashTop == some s2.sec.fuse then s2 else s2.attAdvance 0


/- Staging (R383, R384). -/

/-- SEC_FW_STAGE: the image goes into the bank that is not selected for boot. -/
def execSecFwStage (mb : Nat) (s : State) : Out :=
  command mb 0x701 s (fun s m =>
    let c := m.arg 4 1
    let src := m.arg 8 8
    let n := m.arg 0x10 4
    if !m.clean [(4, 1), (8, 8), (0x10, 4)] || c > 2 || n > 2 ^ 25 || !(src == 0 || localRange src n) then .done s stSecBadArg []
    else if s.sec.stage.isSome then .done s stSecBusy []
    else if src ≠ 0 ∧ s.fld .secStatus 0 0 0 1 = 1 then .done s stSecState []
    else
      let b := 1 - s.sec.sel
      let s1 := s.setImage b c { s.image b c with ok := false }
      .done { s1 with sec := { s1.sec with stage := some { comp := c, bank := b, len := n, mb := mb, streamed := src == 0, last := s.ref, src := src } } } stOk [])

/-- SEC_FW_CHUNK; the last chunk's status is that of the verification. -/
def execSecFwChunk (mb : Nat) (s : State) : Out :=
  command mb 0x705 s (fun s m =>
    let n := m.arg 4 1
    if !m.clean [(4, 1), (8, 4), (0x10, n)] || n = 0 || n > 48 then .done s stSecBadArg []
    else match s.sec.stage with
    | none => .done s stSecState []
    | some g =>
      if !g.streamed || g.mb ≠ mb || g.res.isSome || m.arg 8 4 ≠ g.got.length then .done s stSecState []
      else if g.got.length + n > g.len then .done s stSecBadArg []
      else
        let g1 := { g with got := g.got ++ m.bytes 0x10 n, last := s.ref }
        if g1.got.length < g.len then .done { s with sec := { s.sec with stage := some g1 } } stOk []
        else
          let (s1, st) := s.stageImage g1 g1.got
          .done { s1 with sec := { s1.sec with stage := some { g1 with got := [], res := some st } } } st [])

/-- The stage is over, and its event posts while Utnak runs. -/
def State.stageOver (s : State) (g : Stage) (st : Nat) : State :=
  let s1 : State := { s with sec := { s.sec with stage := none } }
  if s1.fld .secStatus 0 0 0 1 = 1 then s1
  else s1.post evSecFw 13 [(1, g.comp), (1, g.bank), (2, st), (1, (s1.image g.bank g.comp).svn)]

/-- STAGE_VERIFY_DONE: after the response of its command. An image that memory does not give whole fails. -/
def execStageVerifyDone (s : State) : Out :=
  match s.sec.stage with
  | none => .next s
  | some g =>
    let m := s.mbox g.mb
    if m.busy && (m.opcode == 0x701 || m.opcode == 0x705) then .next s
    else if g.streamed then
      (match g.res with
       | none => .next s
       | some st => .next (s.stageOver g st))
    else if !s.memOk then .next (s.stageOver g stSecSig)
    else match s.readBytes g.src g.len with
      | none => .next s
      | some (s1, b, p) =>
        if p then .next (s1.stageOver g stSecSig)
        else
          let (s2, st) := s1.stageImage g b
          .next (s2.stageOver g st)

/-- STAGE_ABANDON: 10 s without a chunk. -/
def execStageAbandon (s : State) : Out :=
  match s.sec.stage with
  | none => .next s
  | some g =>
    if g.streamed && g.res.isNone && g.last + 10 ^ 9 ≤ s.ref then .next { s with sec := { s.sec with stage := none } } else .next s

/-- SEC_FW_ACTIVATE. -/
def execSecFwActivate (mb : Nat) (flashOk : Bool) (s : State) : Out :=
  command mb 0x702 s (fun s m =>
    let b := m.arg 4 1
    let commit := m.arg 5 1
    if !m.clean [(4, 1), (5, 1)] || b > 1 || commit > 1 then .done s stSecBadArg []
    else if commit = 1 ∧ b ≠ s.sec.running then .done s stSecState []
    else if !(s.accepts b 0 && s.accepts b 1 && s.accepts b 2) then .done s stSecSig []
    else if !flashOk then .done s stSecFlash []
    else
      let up (r : NMap Nat) (c : Nat) : NMap Nat := r.upd 0 c (fun v => max v (s.image b c).svn)
      let s1 : State := { s with sec := { s.sec with sel := b, rb := if commit = 1 then up (up s.sec.rb 0) 1 else s.sec.rb } }
      .done s1.secShow stOk [])

/- Identity and attestation (R380, R386 to R388). -/

/-- Identity record of a die; none is fitted on an empty auxiliary site. -/
def State.idRecord (s : State) (d : Nat) : List Byte :=
  if d = 14 ∧ s.fld .fwStatus 0 0 0 1 = 0 then List.replicate 9 0 else leBytes 9 (Config.dieId d).toNat

/-- DIE numbers of R380. -/
def idDies : List Nat := upTo 15 ++ (upTo 12).map (· + 16)

/-- SEC_ID_READ. -/
def execSecIdRead (mb : Nat) (s : State) : Out :=
  command mb 0x704 s (fun s m =>
    if !m.clean [(4, 1)] || !idDies.elem (m.arg 4 1) then .done s stSecBadArg []
    else .done s stOk (padTo 16 (s.idRecord (m.arg 4 1)) ++ leBytes 8 Config.serial.toNat))
    (aux := (s.mbox mb).arg 4 1 == 14)

/-- Bytes 0x00 to 0xC7 of a report. -/
def State.reportBody (s : State) (nonce : List Byte) : List Byte :=
  let hash (c : Nat) : List Byte := leBytes 32 (s.sec.measured.get 0 c).toNat
  let ids := idDies.flatMap (fun d => s.idRecord d)
  let time := s.now % 2 ^ 63 + (if s.fld .fabTimeStatus 0 0 0 2 = 0 then 2 ^ 63 else 0)
  leBytes 4 1 ++ leBytes 4 3548 ++ nonce ++ leBytes 8 Config.serial.toNat ++ padTo 8 (leBytes 2 s.variant) ++ leBytes 8 time ++
  hash 0 ++ hash 1 ++ hash 2 ++ leBytes 1 (s.rollback 0) ++ leBytes 1 (s.rollback 1) ++ padTo 6 (leBytes 1 s.sec.running) ++
  leBytes 32 (Config.sha256 (ofLeBytes ids) ids.length).toNat

/-- SEC_ATTEST, CREATE, and an OP that none of its rows has: the record of the next leaf is in flash before the signature is
released; a write that fails leaves the leaf unused. -/
def execSecAttestCreate (mb : Nat) (flashOk : Bool) (s : State) : Out :=
  command mb 0x703 s (fun s m =>
    if m.arg 4 1 ≠ 0 || !m.clean [(4, 1), (8, 32)] then .done s stSecBadArg []
    else if s.sec.fuse ≥ 4096 then .done s stSecExhausted []
    else if !flashOk then .done s stSecFlash []
    else
      let body := s.reportBody (m.bytes 8 32)
      let sig := (upTo 3348).map (fun i => Config.hssSig (s.sec.fuse * 2 ^ 20 + s.sec.leaf) body i)
      let s1 : State := { s with sec := { s.sec with reports := s.sec.reports.set mb (body ++ sig), leaf := s.sec.leaf + 1 } }
      .done (if s1.sec.leaf = 2 ^ 20 then s1.attAdvance 1 else s1) stOk (leBytes 4 3548))
    (own := fun m => m.arg 4 1 ≠ 1 && m.arg 4 1 ≠ 2)

/-- SEC_ATTEST, READ. -/
def execSecAttestRead (mb : Nat) (s : State) : Out :=
  command mb 0x703 s (fun s m =>
    let o := m.arg 8 4
    if !m.clean [(4, 1), (8, 4)] || o % 64 ≠ 0 then .done s stSecBadArg []
    else match s.sec.reports.find? mb with
      | none => .done s stSecState []
      | some r => .done s stOk ((r.drop o).take 64))
    (own := fun m => m.arg 4 1 = 1)

/-- SEC_ATTEST, PUBKEY. -/
def execSecAttestPubkey (mb : Nat) (s : State) : Out :=
  command mb 0x703 s (fun s m =>
    if !m.clean [(4, 1)] then .done s stSecBadArg []
    else .done s stOk ((upTo 60).map (fun i => Config.hssPub i)))
    (own := fun m => m.arg 4 1 = 2)

end Sys2Proof.Machine
end

