-- ==== Sys2Proof/Machine/ResetCmds.lean ====
section
/-! DEFINITION. SYS_RESET and the end of a reset (R336, R366), the boot sequence (R367, R368), and a power-down's settling of
memory (R239, R354). -/

namespace Sys2Proof.Machine

/- SYS_RESET (R336, R366). -/

/-- TARGET of a kind. -/
def resetTarget (kind t : Nat) : Bool :=
  match kind with
  | 0 => t < 64
  | 1 => t < 512
  | 2 => t < 8
  | 3 => t < 14 * 32 && (linkPartner t).isSome
  | 4 => t < 48
  | 5 | 6 | 7 => t == 0
  | _ => false

def State.addRst (s : State) (d : RDom) (mb : Nat) : State := { s with rsts := s.rsts ++ [{ dom := d, since := s.ref, mb := some mb }] }

/-- A Col port is dark while it is reset; a disabled port stays disabled (R416). -/
def State.resetPort (s : State) (p : Nat) : State :=
  let s1 := s.setPort p { s.port p with dark := true, lnk := {}, missed := 0, known := false, probeAt := none }
  if s1.portState p = 5 then s1 else (s1.toState p 0).portLeft p

/-- SYS_RESET: the response comes when the domain has left reset; module cold reset has none. -/
def execSysReset (mb : Nat) (s : State) : Out :=
  command mb 6 s (fun s m =>
    let kind := m.arg 4 1
    let t := m.arg 6 2
    if !m.clean [(4, 1), (6, 2)] || !resetTarget kind t then .done s stBadArg []
    else match kind with
    | 0 => .later ((s.resetPcore t).addRst (.pcore t) mb)
    | 1 => .later ((s.resetCcore t).addRst (.ccore t) mb)
    | 2 => .later (s.startDie t (some mb))
    | 3 => .later ((s.retrain t).addRst (.link t) mb)
    | 4 => .later ((s.resetPort t).addRst (.port t) mb)
    | 5 => .later ((s.resetAux 2).addRst .aux mb)
    | 6 => .later (s.startWarm (some mb))
    | _ => .gone (s.coldReset (.boot 1)))
    (aux := (s.mbox mb).arg 4 1 == 5)

/-- Processor cores run: the boot sequence is over and the monitor has verified (R382). -/
def State.coresFree (s : State) : Bool := s.pwr.phase == .on && s.sec.measured.has 1

/-- The resets of a domain are over, and whoever asked gets the response. -/
def State.endRsts (s : State) (d : RDom) : State :=
  let s1 : State := { s with rsts := s.rsts.filter (fun r => r.dom ≠ d) }
  (s.rsts.filter (fun r => r.dom = d)).foldl (fun s2 r => s2.mbResult? r.mb stOk) s1

/-- RESET_COMPLETE: a domain leaves reset once what it waits for is over. Other resets inside the package wait for a package
warm reset. -/
def execResetComplete (d : RDom) (s : State) : Out :=
  if !s.rsts.any (fun r => r.dom == d) then .next s
  else
    let drained (p : Agent → Bool) : Bool := s.sb.all (fun (e : Nat × SbE) => !p e.2.u)
    let up : Bool := !s.inReset .warm
    match d with
    | .pcore n =>
      if up && drained (fun u => u == .core n) then
        .next ((s.setCore n { s.core n with held := !s.coresFree }).endRsts d)
      else .next s
    | .ccore c => if up && drained (grpOn (fun x => x == c)) then .next (s.endRsts d) else .next s
    | .die x =>
      let agents := (upTo 8).map (fun k => 8 * x + k)
      if up && s.rsts.all (fun r => r.dom != d || !r.writing) && agents.all (fun a => s.unawaited a) then
        let s1 := agents.foldl (fun s1 a => s1.rejoin a) s
        .next (((upTo 4).foldl (fun s2 p => s2.retrain (32 * x + p)) s1).endRsts d)
      else .next s
    | .link e => if up && s.fld .lnkStatus e 0 0 2 ≠ 1 then .next (s.endRsts d) else .next s
    | .port p =>
      if s.rsts.all (fun r => r.dom != d || r.since + 1000 ≤ s.ref) then
        let x := s.port p
        let s1 := s.setPort p { x with dark := false }
        .next ((if s1.portState p ≠ 5 ∧ x.light then s1.toState p 1 else s1).endRsts d)
      else .next s
    | .aux => if s.fld .fwStatus 0 0 1 2 ≠ 0 then .next (s.endRsts d) else .next s
    | .warm => if s.pwr.phase = .on then .next (s.endRsts d).runHeld else .next s
    | .cold => .next s

/- The boot sequence (R368). -/

/-- Ends of the die-to-die links, one for each link; the optical engines' are the last twelve. -/
def dieLinks (oe : Bool) : List Nat :=
  ((upTo 8).flatMap (fun d => (upTo 4).map (fun p => 32 * d + p))) ++ (upTo 5).map (fun p => 256 + p) ++ (upTo 4).map (fun p => 416 + p) ++
  (if oe then (upTo 12).map (fun k => 421 + k) else [])

/-- The split of the boot configuration takes effect; memory whose layout changes loses its contents (R177, R187). -/
def State.applySplit (s : State) : State :=
  let c := s.bootCfg
  let hp := if s.pwr.keepSplit then s.pwr.hp else c.hp
  let sp := if s.pwr.keepSplit then s.pwr.sp else c.sp
  let s1 : State := if hp = s.pwr.hp ∧ sp = s.pwr.sp then s else { s with mem := [], poison := [], pwr := { s.pwr with hp := hp, sp := sp } }
  (upTo 4).foldl (fun s2 m => (s2.setFld .memSplit m 0 0 6 hp).setFld .memSplit m 0 8 7 sp) s1

/-- What Utnak takes from the boot configuration at its start: the plain, and each port's role and clock (R278, R373). -/
def State.configure (s : State) : State :=
  let c := s.bootCfg
  let role (s1 : State) (n : Nat) : State :=
    let root := (c.roles >>> n) % 2
    let x : PciS := { s1.pciP n with perst := (s1.pciP n).perst && root == 0, released := false, noRefclk := (c.sris >>> n) % 2 == 0 && !s1.pwr.refclk }
    (s1.setFld .pciPortStatus n 0 0 1 root).setPciP n x
  (upTo 2).foldl role (s.setFld .fabId 0 0 16 9 c.plain)

/-- P-Run, or P-Cap while a cap is set (R362). -/
def State.runState (s : State) : Nat := if s.fld .pwrLimits 0 0 16 12 = 0 then 0 else 1

/-- The power state changes, with its event (R364). -/
def State.toPower (s : State) (st cause : Nat) : State :=
  let old := s.fld .pwrStatus 0 0 0 3
  if old = st then s else (s.setFld .pwrStatus 0 0 0 3 st).post evPwrState 13 [(1, old), (1, st), (1, cause)]

def State.toPhase (s : State) (p : PwrPhase) : State := { s with pwr := { s.pwr with phase := p } }

/-- Processor cores leave reset at level M, unless no bank holds a monitor that verifies (R42, R382). -/
def State.freeCores (s : State) : State :=
  if s.sec.measured.has 1 then (upTo 64).foldl (fun s1 n => s1.setCore n { s1.core n with held := false }) s else s

/-- BOOT_STEP: the next step; the recovery service goes no further than step 3, and a package warm reset runs steps 4 to 7. -/
def execBootStep (ok : List Bool) (s : State) : Out :=
  match s.pwr.phase with
  | .boot 1 => .next (s.toPhase (.boot 2))
  | .boot 2 =>
    let s1 : State := { s with pwr := { s.pwr with phase := .boot 3, pwrgd := true } }
    .next (s1.secBoot ok)
  | .boot 3 =>
    if s.fld .secStatus 0 0 0 1 = 1 then .next s
    else
      let s1 := s.configure
      .next (((upTo 48).filter (fun p => (s1.port p).light)).foldl (fun s2 p => s2.toState p 1) (s1.toPhase (.boot 4)))
  | .boot 4 => .next (s.applySplit.toPhase (.boot 5))
  | .boot 5 =>
    let s1 := (dieLinks true).foldl (fun s1 e => s1.linkTrain e) s
    .next { s1 with pwr := { s1.pwr with phase := .boot 6, poweredAt := s1.ref } }
  | .boot 6 => .next (s.freeCores.toPhase (.boot 7))
  | .boot 7 => .next ((s.toPhase .on).cpStart)
  | .warm 4 => .next (s.applySplit.toPhase (.warm 5))
  | .warm 5 => .next (((dieLinks false).foldl (fun s1 e => s1.retrain e) s).toPhase (.warm 6))
  | .warm 6 => .next (s.freeCores.toPhase (.warm 7))
  | .warm 7 =>
    let s1 : State := { s with pwr := { s.pwr with phase := .on, keepSplit := false } }
    .next (if s1.fld .pwrStatus 0 0 0 3 = 3 then s1.toPower s1.runState 0 else s1)
  | _ => .next s

/- Power down (R239, R354, R362). -/

def CSt.dirty : CSt → Bool
  | .M | .O | .OMA => true
  | _ => false

/-- The newest data of a line: a cache that owns it dirty, a message or a transaction that carries it, or memory. -/
def State.newest (s : State) (l : Nat) : Line × Bool :=
  match List.find? (fun (e : Nat × Cache) => (e.2.lines.get {} l).st.dirty) s.caches with
  | some e => let c := e.2.lines.get {} l; (c.data, c.poison)
  | none =>
    let evicts (r : HReq) : Bool := r.kind == .wbd && r.line == l && ((s.cline r.a l).st == CSt.MIA || (s.cline r.a l).st == CSt.OIA)
    let inNet := s.net.findSome? (fun m => match m with
      | .gntm _ k d p => if k = l then some (d, p) else none
      | .rspd _ k _ d p => if k = l then some (d, p) else none
      | .req r => if evicts r then some (r.data, r.poison) else none
      | _ => none)
    match inNet with
    | some x => x
    | none =>
      match s.txns.find? l with
      | some t => if evicts t.req then (t.req.data, t.req.poison) else (t.d).getD (s.memPeek l)
      | none => match (s.hq.get [] l).find? evicts with
        | some r => (r.data, r.poison)
        | none => s.memPeek l

/-- Lines that something above the arrays may hold. -/
def State.heldLines (s : State) : List Nat :=
  (s.caches.flatMap (fun (e : Nat × Cache) => e.2.lines.map (·.1)) ++ s.txns.map (·.1) ++ s.hq.map (·.1) ++ s.msc.map (·.1) ++
   (s.sb.filter (fun (e : Nat × SbE) => e.2.mem == CmpMem.cached || e.2.mem == CmpMem.nc)).map (fun (e : Nat × SbE) => e.2.line)).eraseDups

/-- Buffered stores of a line, performed in their order; not one whose answer is on its way. -/
def State.withStores (s : State) (l : Nat) (x : Line × Bool) : Line × Bool :=
  let done (sid : Nat) : Msg → Bool | .stor k _ => k == sid | .dat w _ _ _ => w == .store sid | _ => false
  (s.sb.filter (fun (e : Nat × SbE) => e.2.line = l && (e.2.mem == CmpMem.cached || e.2.mem == CmpMem.nc) && !s.net.any (done e.1))).foldl
    (fun acc e => (mergeLine acc.1 e.2.data e.2.mask, acc.2 && !maskFull e.2.mask)) x

/-- Every buffered store is performed, every dirty line written back, and the arrays hold the newest data (R239). Which of
the requests on their way come first is open; the model performs buffered stores last (DESIGN CHOICE, log 68). -/
def State.settleMem (s : State) : State :=
  let put (m : List Host.Cell × List Nat) (l : Nat) : List Host.Cell × List Nat :=
    let (d, p) := s.withStores l (s.newest l)
    (Memory.setLine m.1 l d, setPoison m.2 l p)
  let (mem, poison) := ((s.heldLines).filter (fun l => isLocal (l * 128))).foldl put (s.mem, s.poison)
  { s with mem := mem, poison := poison, msc := [] }

/-- A buffered store to a register, a PCIe window or another module is performed, or ends with a bus error, which is counted
(R239). A request to another module that has no answer yet counts as failed (DESIGN CHOICE, log 68). -/
def State.settleStore (s : State) (sid : Nat) (e : SbE) : State :=
  let orphan (s1 : State) : State := s1.incFld .ordStatus 0 0 24 16
  match e.mem with
  | .cached | .nc => s
  | .unmapped | .remote => orphan s
  | .pcie => if e.sent then s else if s.pcieUp (pciePort e.line) then s.pcieWrite (pciePort e.line) e.line e.mask e.data false else orphan s
  | .mmio =>
    if s.net.any (fun m => match m with | .stor k _ => k == sid | _ => false) then s
    else
      let idx := (upTo 128).filter (fun i => e.mask.getLsbD i)
      let o := (idx.head?).getD 0
      let v : Word := BitVec.ofNat 64 (lineBytes e.data o idx.length)
      match s.reach (.store sid) (e.line * 128 + o), s.regStore (.store sid) (e.line * 128 + o) idx.length v with
      | .ok, some (s1, err) => if err then orphan s1 else s1
      | _, _ => orphan s

/-- Nothing is in flight any more, memory holds everything, and the records that waited are written. -/
def State.quiet (s : State) : State :=
  let s0 := s.sb.foldl (fun s1 (e : Nat × SbE) => s1.settleStore e.1 e.2) s
  let s1 := s0.settleMem
  ({ s1 with caches := [], dir := [], txns := [], hq := [], net := [], ncOut := [], held := [], sb := [] } : State).pumpRec.settleMem

/-- Orderly power-down: everything stops, memory settles and enters self-refresh, and the other rails go (R354). Events that
nothing but HD holds go with it. Old and new state of the event, new 4 for Off. -/
def State.powerDown (s : State) (supply : Bool) (cause : Nat) : State :=
  let s1 := s.post evPwrState 13 [(1, s.fld .pwrStatus 0 0 0 3), (1, 4), (1, cause)]
  let s2 := s1.quiet
  let s3 := s2.coldReset (.down supply)
  { s3 with mem := s2.mem, poison := s2.poison, pwr := { s3.pwr with hp := s.pwr.hp, sp := s.pwr.sp } }

/-- The module has power and is not down (R354). -/
def State.running (s : State) : Bool :=
  match s.pwr.phase with
  | .boot _ | .warm _ | .on => true
  | _ => false

end Sys2Proof.Machine
end

