-- ==== Sys2Proof/Machine/Power.lean ====
section
/-! DEFINITION. Power (R352 to R372): the input supply, throttling and the shaping of the draw, power states and their
commands, temperature, and the start and end of power. -/

namespace Sys2Proof.Machine

def stPwrRange : Nat := 0x0501
def stPwrBusy : Nat := 0x0502

/- Throttling (R355, R356, R369). -/

/-- Sensors whose heat follows traffic: MD, HD, optical engines, HBM stacks. -/
def sharedSensor (id : Nat) : Bool := (9 ≤ id && id ≤ 13) || (0x10 ≤ id && id ≤ 0x17) || (0x28 ≤ id && id ≤ 0x33)
def isHbmSensor (id : Nat) : Bool := 0x10 ≤ id && id ≤ 0x17

/-- Highest level that the shared sensors ask for. -/
def State.sharedTherm (s : State) : Nat := ((s.pwr.therm.filter (fun (e : Nat × Nat) => sharedSensor e.1)).map (·.2)).foldl max 0

/-- Level that stress asks of a die. A report of a compute die or of PD throttles that die; any other die has no level of
its own (R355), and its report throttles all of them, as its heat does (R369; DEDUCED, log 79). -/
def State.stressAsk (s : State) (d : Nat) : Nat :=
  max (s.pwr.stressThr.get 0 d) (((s.pwr.stressThr.filter (fun (e : Nat × Nat) => 9 ≤ e.1)).map (·.2)).foldl max 0)

/-- Active causes become `c` (bits 0 current, 1 cap, 2 slew, 3 temperature, 4 stress): the registers show the highest level
asked, and a cause that becomes active posts its event, at most once in 10 ms (R356). `die` is the one it names. -/
def State.throttle (s : State) (c die : Nat) : State :=
  let old := s.fld .pwrStatus 0 0 8 5
  let shared := s.sharedTherm
  let s1 := (upTo 8).foldl (fun s1 d => s1.setFld .pwrThrottle 0 0 (8 * d) 6 (max (max s1.pwr.curThr (s1.stressAsk d)) (max (s1.pwr.therm.get 0 d) shared))) s
  let s2 := s1.setFld .pwrPdfreq 0 0 0 6 (min s1.pwr.curFreq (32 - min 24 (max (s1.stressAsk 8) (max (s1.pwr.therm.get 0 8) shared))))
  let s3 := s2.setFld .pwrStatus 0 0 8 5 c
  let tell (s : State) (b : Nat) : State :=
    let due : Bool := match s.pwr.thrEvAt.find? b with | some t => t + 1000000 ≤ s.ref | none => true
    if !due then s
    else
      let v := if die = 8 then s.fld .pwrPdfreq 0 0 0 6 else s.fld .pwrThrottle 0 0 (8 * (die % 8)) 6
      ({ s with pwr := { s.pwr with thrEvAt := s.pwr.thrEvAt.set b s.ref } } : State).post evPwrThrottle 13 [(1, b), (1, die), (1, v)]
  ((upTo 5).filter (fun b => (c >>> b) % 2 = 1 && (old >>> b) % 2 = 0)).foldl tell s3

/-- Bit 3 of the causes. -/
def State.thermCause (s : State) : Nat := if s.pwr.therm.isEmpty then 0 else 8

/- The sample of every 1 µs (R353, R357 to R359). -/

/-- POWER_SAMPLE: `current` is the input current in mA that the work asks for, `mw` the input power in mW, averaged over
1 ms, and `idle` says that the idle engines can supply what filler needs. Levels are the controller's choice: free values. -/
def execPowerSample (current mw : Nat) (idle : Bool) (s : State) : Out :=
  if current ≥ 2 ^ 20 ∨ mw ≥ 4096000 then .refused .illFormed
  else if !s.running then .next s
  else
    let cold : Bool := s.fld .pwrStatus 0 0 3 1 == 1
    let slew := if cold then 20 else s.fld .pwrLimits 0 0 0 8
    let cap := s.fld .pwrLimits 0 0 16 12
    let floor := s.fld .pwrLimits 0 0 32 12
    let last := s.pwr.lastCur
    let beyond : Bool := current > 75000
    let capped : Bool := cap ≠ 0 && mw > cap * 1000
    let rising : Bool := current > last + slew
    let stress : Bool := !s.pwr.stress.isEmpty
    let draw : Bool := s.fld .pwrLimits 0 0 44 1 == 1 && !cold && s.fld .pwrStatus 0 0 0 3 ≤ 1
    let low : Bool := mw < floor * 1000
    let falling : Bool := current + slew < last
    let yields : Bool := beyond || capped || stress || s.thermCause ≠ 0 || (cap ≠ 0 && cap < floor)
    let fill : Bool := draw && (low || falling) && !yields
    let short : Bool := draw && low && (!idle || (cap ≠ 0 && cap < floor))
    let top := min current (min 75000 (last + slew))
    let cur := if fill && falling && idle then max top (last - slew) else top
    let (k, s1) := s.stamp
    let asks : Bool := beyond || capped || rising
    let thr := if asks then 1 + (Config.freeWord k).toNat % 63 else 0
    let freq := if asks then 8 + (Config.freeWord k).toNat / 2 ^ 32 % 25 else 32
    let strs : NMap Nat := s.pwr.stress.foldl (fun m d => m.set d (1 + (Config.freeWord (k + (d + 1) * 2 ^ 32)).toNat % 63)) []
    let c := beyond.toNat + 2 * capped.toNat + 4 * rising.toNat + s.thermCause + 16 * stress.toNat
    let die := match s.pwr.stress.find? (fun d => d ≤ 8) with | some d => d | none => 0
    let s2 := ({ s1 with pwr := { s1.pwr with lastCur := cur, curThr := thr, curFreq := freq, stress := [], stressThr := strs } } : State).throttle c die
    let s3 := (s2.setFld .pwrStatus 0 0 4 1 fill.toNat).setFld .pwrStatus 0 0 5 1 short.toNat
    let s4 := (s3.setFld .pwrInput 0 0 16 16 (cur / 10)).setFld .pwrInput 0 0 32 12 (mw / 1000)
    let s5 := if s4.cp.sensors.has 0x40 then s4.setFld .pwrInput 0 0 0 16 (s4.sensor 0x40).toNat else s4
    let s6 := if c = 0 then s5 else s5.incFld .pwrSupply 0 0 32 32
    .next (s6.monRecord 11 (cur / 10))

/-- Pending settings whose instant has come take effect (R359, R360). -/
def State.settings (s : State) : State :=
  let s1 : State := match s.pwr.slewPend with
    | some (v, t) => if t ≤ s.now then
        ((({ s with pwr := { s.pwr with slewPend := none } } : State).setFld .pwrLimits 0 0 0 8 v).setFld .pwrStatus 0 0 13 1 0) else s
    | none => s
  match s1.pwr.ldPend with
  | some (en, f, t) => if t ≤ s1.now then
      ((({ s1 with pwr := { s1.pwr with ldPend := none } } : State).setFld .pwrLimits 0 0 32 12 f).setFld .pwrLimits 0 0 44 1 en.toNat).setFld .pwrStatus 0 0 14 1 0 else s1
  | none => s1

/-- PWR_SETTING_EFFECT: not during cold ramp, which stores settings. -/
def execPwrSettingEffect (s : State) : Out := if s.fld .pwrStatus 0 0 3 1 = 1 then .next s else .next s.settings

/-- COLD_RAMP_END: 1 s after step 5 of the boot sequence (R360, R368). -/
def execColdRampEnd (s : State) : Out :=
  let powered : Bool := match s.pwr.phase with | .boot n => 6 ≤ n | .warm _ | .on => true | _ => false
  if s.fld .pwrStatus 0 0 3 1 = 0 || !powered || s.ref < s.pwr.poweredAt + 10 ^ 8 then .next s
  else .next (s.setFld .pwrStatus 0 0 3 1 0).settings

/- Commands (R359, R363). -/

/-- Refusals of an AT (R359). -/
def State.atBad (s : State) (t : Nat) : Option Nat :=
  if t = 0 then none
  else if s.fld .fabTimeStatus 0 0 0 2 = 0 then some stFabNotLocked
  else if t < s.now + 20000 then some stFabTooLate
  else none

/-- PWR_SLEW. -/
def execPwrSlew (mb : Nat) (s : State) : Out :=
  command mb 0x503 s (fun s m =>
    let v := m.arg 8 2
    let t := m.arg 0x10 8
    if !m.clean [(8, 2), (0x10, 8)] || v < 5 || v > 200 then .done s stPwrRange []
    else match s.atBad t with
    | some st => .done s st []
    | none =>
      let s1 := ({ s with pwr := { s.pwr with slewPend := some (v, t) } } : State).setFld .pwrStatus 0 0 13 1 1
      .done (if t = 0 ∧ s.fld .pwrStatus 0 0 3 1 = 0 then s1.settings else s1) stOk [])

/-- PWR_LEVEL_DRAW. -/
def execPwrLevelDraw (mb : Nat) (s : State) : Out :=
  command mb 0x504 s (fun s m =>
    let f := m.arg 8 2
    let t := m.arg 0x10 8
    if !m.clean [(4, 1), (8, 2), (0x10, 8)] || m.arg 4 1 > 1 || f > 3000 then .done s stPwrRange []
    else match s.atBad t with
    | some st => .done s st []
    | none =>
      let s1 := ({ s with pwr := { s.pwr with ldPend := some (m.arg 4 1 == 1, f, t) } } : State).setFld .pwrStatus 0 0 14 1 1
      .done (if t = 0 ∧ s.fld .pwrStatus 0 0 3 1 = 0 then s1.settings else s1) stOk [])

/-- PWR_CAP. -/
def execPwrCap (mb : Nat) (s : State) : Out :=
  command mb 0x502 s (fun s m =>
    let v := m.arg 8 2
    if !m.clean [(8, 2)] || !(v == 0 || (1200 ≤ v && v ≤ 3000)) then .done s stPwrRange []
    else
      let s1 := s.setFld .pwrLimits 0 0 16 12 v
      .done (if s1.fld .pwrStatus 0 0 0 3 ≤ 1 then s1.toPower s1.runState 0 else s1) stOk [])

/-- PWR_QUERY. -/
def execPwrQuery (mb : Nat) (s : State) : Out :=
  command mb 0x505 s (fun s m =>
    if !m.clean [] then .done s stPwrRange []
    else
      let w (k : RegKind) : List Byte := leBytes 8 (s.reg k 0 0).toNat
      .done s stOk (w .pwrStatus ++ w .pwrInput ++ w .pwrLimits ++ leBytes 8 (match s.pwr.slewPend with | some x => x.2 | none => 0) ++
        leBytes 8 (match s.pwr.ldPend with | some x => x.2.2 | none => 0)))

/-- Work that forbids P-Park (R363, R404). -/
def State.parkBusy (s : State) : Bool :=
  s.queues.any (fun (e : Nat × Queue) => s.fld .dqStatus e.1 0 0 1 == 1 || s.fld .dqStatus e.1 0 2 1 == 1) ||
  s.cgs.any (fun (e : Nat × CGrp) => e.2.inst.isSome || e.2.ridx < (s.reg .cgDoorbell e.1 0).toNat) ||
  s.ws.snap.isSome || s.jobs.any (fun j => j.kind == 0)

/-- Every compute-die core is disabled with a grace (R141, R362). -/
def State.parkCores (s : State) (t : Nat) : State :=
  (upTo 512).foldl (fun s1 c => s1.setCoreS c { s1.coreS c with disabled := true, drainEnd := if (s1.teamsOn c).isEmpty then none else some t, drainMb := none }) s

/-- Once every core is empty, memory settles and enters self-refresh; PD and the compute dies are power-gated (R362). The
processor cores run until then (DEDUCED, log 70). -/
def State.parkStep (s : State) : State :=
  match s.pwr.park with
  | none => s
  | some _ =>
    if s.cores.any (fun (e : Nat × CoreS) => e.2.drainEnd.isSome) || !s.teams.isEmpty then s
    else
      let s1 := (s.toPower 3 0).quiet.coresDown
      let s2 := (upTo 4).foldl (fun s2 m => s2.setFld .memStatus m 0 0 6 0) s1
      State.mbResult? { s2 with pwr := { s2.pwr with park := none, parkMb := none } } s.pwr.parkMb stOk

/-- PWR_STATE. -/
def execPwrState (mb : Nat) (s : State) : Out :=
  command mb 0x501 s (fun s m =>
    let st := m.arg 4 1
    let g := m.arg 8 4
    let now := s.fld .pwrStatus 0 0 0 3
    if !m.clean [(4, 1), (8, 4)] || !(st == 0 || st == 2 || st == 3 || st == 4) || g > 1000000 then .done s stPwrRange []
    else if s.pwr.park.isSome then .wait
    else if st = 3 && s.parkBusy then .done s stPwrBusy []
    else if st = now then .done s stPwrState []
    else if st = 2 ∧ now = 3 then .done s stPwrState []
    else match st with
    | 4 => .gone (s.powerDown false 0)
    | 3 =>
      let t := s.now + g * 1000
      let s1 := s.parkCores t
      .later { s1 with pwr := { s1.pwr with park := some t, parkMb := some mb } }
    | 2 => .done (s.toPower 2 0) stOk []
    | _ =>
      if now = 3 then .later (State.startWarm { s with pwr := { s.pwr with keepSplit := true } } (some mb))
      else .done (s.toPower s.runState 0) stOk [])

/- Temperature and regulators (R270, R369, R370). -/

/-- THERMAL_THROTTLE_STEP: one step up at or above the limit, one step back below it by 1 °C (for HBM DEDUCED, log 71). -/
def execThermalThrottleStep (id : Nat) (s : State) : Out :=
  if !sensorListed id then .refused .illFormed
  else if !s.running || !s.cp.sensors.has id || !(id ≤ 8 || sharedSensor id) then .next s
  else
    let t := (s.sensor id).toInt
    let limit : Int := if isHbmSensor id then 9500 else 10000
    let n := s.pwr.therm.get 0 id
    let since := s.pwr.thermAt.find? id
    let due (d : Nat) : Bool := match since with | some x => x + d ≤ s.ref | none => true
    let top := if id = 8 then 24 else 63
    let die := if id ≤ 8 then id else 0
    let go (n1 : Nat) : State :=
      { s with pwr := { s.pwr with therm := if n1 = 0 then s.pwr.therm.del id else s.pwr.therm.set id n1, thermAt := s.pwr.thermAt.set id s.ref } }
    let causes (s : State) : State := s.throttle (s.fld .pwrStatus 0 0 8 5 / 16 * 16 + s.fld .pwrStatus 0 0 8 3 + s.thermCause) die
    if t ≥ limit ∧ due 1000 then
      let s1 := go (min top (n + 1))
      let s2 := if n = 0 then (s1.incFld .pwrTherm 0 0 24 8).post evPwrThermal 13 [(2, id), (4, (s.sensor id).toNat), (1, 0)] else s1
      .next (causes s2)
    else if t < limit - 100 ∧ n ≠ 0 ∧ due 10000 then .next (causes (go (n - 1)))
    else .next s

/-- THERMAL_SHUTDOWN. -/
def execThermalShutdown (id : Nat) (s : State) : Out :=
  if !sensorListed id then .refused .illFormed
  else
    let limit : Int := if isHbmSensor id then 10500 else 11000
    let die : Bool := id ≤ 14 || sharedSensor id
    if !s.running || !s.sensorThere id || !s.cp.sensors.has id || !die || (s.sensor id).toInt < limit then .next s
    else .next ((s.post evPwrThermal 13 [(2, id), (4, (s.sensor id).toNat), (1, 1)]).powerDown false 2)

/-- REGULATOR_STRESS: a stress report, dies numbered as in R380; the next sample throttles. -/
def execRegulatorStress (die : Nat) (s : State) : Out :=
  if !(die ≤ 13 || (16 ≤ die && die < 28)) then .refused .illFormed
  else if !s.running then .next s
  else
    let s1 := s.wsReport 9
    .next { s1 with pwr := { s1.pwr with stress := s1.pwr.stress.filter (· ≠ die) ++ [die] } }

/-- REFCLK_LOSS: the oscillator takes over, and ports on the common clock go down (R365, R377). -/
def execRefclkLoss (s : State) : Out :=
  if !s.running then .next { s with pwr := { s.pwr with refclk := false } }
  else
    let s1 := ({ s with pwr := { s.pwr with refclk := false } } : State).setFld .pwrStatus 0 0 6 1 1
    .next (((upTo 2).filter (fun n => (s.bootCfg.sris >>> n) % 2 = 0)).foldl (fun s2 n =>
      let s3 := s2.pciDown n
      s3.setPciP n { s3.pciP n with noRefclk := true }) s1)

/- The input supply (R352, R354). -/

def State.supplyEvent (s : State) (kind mv t : Nat) : State := s.post evPwrSupply 13 [(1, kind), (4, mv), (4, t / 100)]

/-- Milliseconds outside 40 to 56 V, rounded up; the last one of a disturbance was inside. -/
def outsideMs (t : Nat) : Nat := max 1 (ceilDiv (t - 100000) 100000)

/-- SAG_START. -/
def execSagStart (mv : Nat) (s : State) : Out :=
  if !s.running || mv < 36000 || mv ≥ 40000 then .next s
  else
    let x := match s.pwr.sag with | some (t, v) => (t, min v mv) | none => (s.ref, mv)
    .next (({ s with pwr := { s.pwr with sag := some x } } : State).setFld .pwrInput 0 0 0 16 mv)

/-- SAG_END. -/
def execSagEnd (s : State) : Out :=
  match s.pwr.sag with
  | none => .next s
  | some (t, v) =>
    let d := s.ref - t
    if d < 100000 then .next s
    else .next (((({ s with pwr := { s.pwr with sag := none } } : State).incFld .pwrSupply 0 0 0 16).wsReport 11 (outsideMs d)).supplyEvent 0 v d)

/-- SAG_TIMEOUT: 10 ms below 40 V. -/
def execSagTimeout (s : State) : Out :=
  match s.pwr.sag with
  | none => .next s
  | some (t, v) => if s.ref < t + 1000000 then .next s else .next ((s.supplyEvent 2 v (s.ref - t)).powerDown true 1)

/-- SURGE_START. Above 65 V the module may be damaged. -/
def execSurgeStart (mv : Nat) (s : State) : Out :=
  if mv > 65000 then .fault .damaged
  else if !s.running || mv ≤ 56000 then .next s
  else
    let x := match s.pwr.surge with | some (t, v) => (t, max v mv) | none => (s.ref, mv)
    .next (({ s with pwr := { s.pwr with surge := some x } } : State).setFld .pwrInput 0 0 0 16 mv)

/-- SURGE_END. -/
def execSurgeEnd (s : State) : Out :=
  match s.pwr.surge with
  | none => .next s
  | some (t, v) =>
    let d := s.ref - t
    if d < 100000 then .next s
    else .next (((({ s with pwr := { s.pwr with surge := none } } : State).incFld .pwrSupply 0 0 16 16).wsReport 11 (outsideMs d)).supplyEvent 1 v d)

/-- SURGE_TIMEOUT: 100 ms above 56 V, or above 60 V; then the input switch opens. -/
def execSurgeTimeout (mv : Nat) (s : State) : Out :=
  if mv > 65000 then .fault .damaged
  else if !s.running then .next s
  else
    let (t, v) := match s.pwr.surge with | some x => x | none => (s.ref, mv)
    if mv > 60000 || (s.pwr.surge.isSome && t + 10000000 ≤ s.ref) then
      let s1 := (s.supplyEvent 2 (max v mv) (s.ref - t)).powerDown true 1
      .next { s1 with pwr := { s1.pwr with switchOpen := true } }
    else .next s

/-- INPUT_UNDERVOLTAGE. -/
def execInputUndervoltage (mv : Nat) (s : State) : Out :=
  if !s.running || mv ≥ 36000 then .next s
  else
    let t := match s.pwr.sag with | some x => s.ref - x.1 | none => 0
    .next ((s.supplyEvent 2 mv t).powerDown true 1)

/-- INPUT_COLLAPSE: below 28 V nothing is kept. -/
def execInputCollapse (mv : Nat) (s : State) : Out :=
  if s.pwr.phase = .off ∨ mv ≥ 28000 then .next s else .next (s.coldReset .off)

/-- POWER_DOWN_RESUME: memory is kept, if the power-down came from the supply (R354, R367). -/
def execPowerDownResume (mv : Nat) (s : State) : Out :=
  if s.pwr.phase ≠ .down true ∨ mv < 40000 ∨ mv > 56000 then .next s
  else
    let s1 := s.coldReset (.boot 1)
    .next (({ s1 with mem := s.mem, poison := s.poison, pwr := { s1.pwr with hp := s.pwr.hp, sp := s.pwr.sp } } : State).setFld .pwrInput 0 0 0 16 mv)

/-- POWER_UP: the moment t0, with the input at 40 V or more and RESET_N high (R368, R412). -/
def execPowerUp (mv : Nat) (refclk : Bool) (s : State) : Out :=
  if mv > 65000 then .fault .damaged
  else if mv < 40000 || !(s.pwr.phase == .off || s.pwr.phase == .held) then .next s
  else .next ((State.coldReset { s with pwr := { s.pwr with refclk := refclk } } (.boot 1)).setFld .pwrInput 0 0 0 16 mv)

/-- RESET_N_ASSERT: module cold reset, in which the module stays until POWER_UP (R411, R412). -/
def execResetNAssert (s : State) : Out := if s.pwr.phase = .off then .next s else .next (s.coldReset .held)

/- Monitors (R400). -/

/-- MONITOR_SAMPLE: requests at each memory-side die, and the deepest transmit queue of a Col port. -/
def execMonitorSample (s : State) : Out :=
  if !s.hdOn then .next s
  else
    let depth (m : Nat) : Nat :=
      ((s.hq.filter (fun (e : Nat × List HReq) => s.homeOf e.1 = m)).map (fun (e : Nat × List HReq) => e.2.length)).sum +
      (s.txns.filter (fun (e : Nat × Txn) => s.homeOf e.1 = m)).length
    let s1 := (upTo 4).foldl (fun s1 m => s1.monRecord (4 + m) (depth m)) s
    .next (s1.monRecord 9 (((upTo 48).map (fun p => s.queuedFrames p)).foldl max 0))

end Sys2Proof.Machine
end

