-- ==== Sys2Proof/Machine/Pmu.lean ====
section
/-! DEFINITION. Dumps of the counter units (R397, R398, R404 f). -/

namespace Sys2Proof.Machine

/-- Units that HD_PMU_DSEL selects, in rising order: cores, memory-side dies, HD, and monitors at 584 (R401). -/
def State.dumpSel (s : State) : List Nat :=
  let on (w b : Nat) : Bool := bit (s.reg .dsel 0 w) b
  (upTo 576).filter (fun u => on (u / 64) (u % 64)) ++
  ((upTo 5).filter (fun b => on 9 b)).map (576 + ·) ++ ((upTo 16).filter (fun i => on 9 (16 + i))).map (584 + ·)

/-- The 112 B of a unit's counters, or of a monitor. -/
def State.dumpData (s : State) (u : Nat) : List Byte :=
  let w (k : RegKind) (i j : Nat) : List Byte := leBytes 8 (s.reg k i j).toNat
  if u < 584 then (upTo 6).flatMap (w .pmuFixed u) ++ (upTo 8).flatMap (w .pmuPmc u)
  else w .monRange (u - 584) 0 ++ (upTo 8).flatMap (w .monBin (u - 584)) ++ leBytes 40 0

/-- A dump record: LOSS and MISSED stand in the first one only (DEDUCED, log 72). -/
def State.dumpRecord (s : State) (first : Bool) (u : Nat) : List Byte :=
  let flags := (first && s.pmu.loss).toNat + 2 * (first && s.pmu.missed).toNat + 4 * (s.fld .fabTimeStatus 0 0 0 2 == 0).toNat
  leBytes 4 s.pmu.tick ++ leBytes 2 u ++ leBytes 2 flags ++ leBytes 8 s.now ++ s.dumpData u

/-- The ring has room for n more records. -/
def State.dumpRoom (s : State) (n : Nat) : Bool :=
  (s.reg .dwidx 0 0).toNat + n - (s.reg .dridx 0 0).toNat ≤ 2 ^ s.fld .dbase 0 0 0 5

/-- PMU_DUMP_TICK: a multiple of INTERVAL has been reached since the latest tick. -/
def execPmuDumpTick (s : State) : Out :=
  let p := 1000 * max 1 s.pmu.interval
  if s.fld .dctrl 0 0 0 1 = 0 ∨ s.now / p ≤ s.pmu.last / p then .next s
  else
    let s1 : State := { s with pmu := { s.pmu with tick := s.pmu.tick + 1, last := s.now, interval := s.fld .dctrl 0 0 2 20 } }
    let units := s1.dumpSel
    if s1.dumpBusy || s1.fld .pwrStatus 0 0 0 3 = 3 then
      let s2 : State := { s1 with pmu := { s1.pmu with missed := true } }
      .next (s2.incFld .dstatus 0 0 32 16)
    else if !s1.memOk || !s1.dumpRoom units.length then
      let s2 : State := { s1 with pmu := { s1.pmu with loss := true } }
      .next (s2.incFld .dstatus 0 0 16 16)
    else match units with
      | [] => .next s1
      | u :: r =>
        .next { s1 with pmu := { s1.pmu with loss := false, missed := false,
                                             out := s1.dumpRecord true u :: r.map (s1.dumpRecord false) } }

/-- DUMP_COMPLETE: the records reach the ring, each before HD_PMU_DWIDX passes it. -/
def execDumpComplete (s : State) : Out :=
  let base := s.fld .dbase 0 0 7 49 * 128
  let size := 2 ^ s.fld .dbase 0 0 0 5
  let n := (s.reg .dwidx 0 0).toNat + s.recordsOut .dwidx 0
  let jobs := s.pmu.out.zipIdx.map (fun (e : List Byte × Nat) => (⟨.dwidx, 0, base + 128 * ((n + e.2) % size), e.1⟩ : WrJob))
  let s1 : State := { s with pmu := { s.pmu with out := [] } }
  .next (jobs.foldl (fun s2 j => s2.putRecord j) s1)

end Sys2Proof.Machine
end

