-- ==== Sys2Proof/Machine/Clock.lean ====
section
/-! DEFINITION. The passing of time: one period of the 100 MHz reference. -/

namespace Sys2Proof.Machine

/-- Clocks of a counter unit in 10 ns: 800 MHz, the processor cores' frequency in steps of 100 MHz, 1.6 GHz, 1.2 GHz
(R365, R391). -/
def unitClocks (s : State) (u : Nat) : Nat :=
  if u < 512 then 8 else if u < 576 then s.fld .pwrPdfreq 0 0 0 6 else if u < 580 then 16 else 12

/-- CYCLES of every unit that counts (R391). -/
def State.countCycles (s : State) : State :=
  ((upTo 581).filter (fun u => s.pmuOn u)).foldl (fun s1 u => s1.countFixed u 0 (unitClocks s u)) s

/-- Issue ports of a compute-die core that no resident group has (R56). -/
def State.emptyPorts (s : State) (c : Nat) : Nat :=
  ((upTo 4).filter (fun p => (upTo 16).all (fun i => (s.grp c (4 * i + p)).isNone))).length

/-- The slots of a core's clocks that no instruction took: each is FRONT or BACK, and a port with no group has FRONT
only (R393). What else decides between them, which cause of R394 a BACK slot has, and what only predictors, the fetch
and the private caches of PD show are timing: free values (DESIGN CHOICE, log 14). -/
def State.idleSlots (s : State) (u : Nat) : State :=
  let n := 4 * unitClocks s u
  let used := s.pmu.used.get 0 u
  let rest := n - used
  let (k, s0) := s.stamp
  let draw (i m : Nat) : Nat := (Config.freeWord (k + i * 2 ^ 32)).toNat % (m + 1)
  let least := if u < 512 then min rest (unitClocks s u * s.emptyPorts u) else 0
  let front := least + draw 0 (rest - least)
  let back := rest - front
  let s1 : State := { s0 with pmu := { s0.pmu with used := if used ≤ n then s0.pmu.used.del u else s0.pmu.used.set u (used - n) } }
  let s2 := (s1.countFixed u 4 front).countFixed u 5 back
  if u < 512 then
    ((upTo 5).foldl (fun (acc : State × Nat) i => let x := draw (1 + i) acc.2; (acc.1.count u (0x005 + i) x, acc.2 - x)) (s2, back)).1
  else
    let s3 := (s2.count u 0x107 (draw 1 front)).count u 0x108 (draw 2 back)
    (upTo 4).foldl (fun s4 i => s4.count u (0x101 + i) (draw (3 + i) n)) s3

/-- The slots of every core that counts. -/
def State.countSlots (s : State) : State :=
  ((upTo 576).filter (fun u => s.pmuOn u)).foldl (fun s1 u => s1.idleSlots u) s

/-- 10 ns pass: fabric time and the module's own time go on, the clocks count, and records on their way are written
where their lines are free (DESIGN CHOICE, log 4). Without power nothing moves. -/
def tick (s : State) : State :=
  match s.pwr.phase with
  | .off | .held | .down _ => s
  | _ =>
    let s1 := { s with now := s.now + 10, ref := s.ref + 1, cdClk := s.cdClk + 8, pdClk := s.pdClk + s.fld .pwrPdfreq 0 0 0 6 }
    s1.slew.electEnd.countCycles.countSlots.wakeIdle.pumpRec.pumpPeers.transmit.cgSteps.parkStep

end Sys2Proof.Machine
end

