-- ==== Sys2Proof/Machine/Control.lean ====
section
/-! DEFINITION. Control transfers and the user system instructions (R40, R41, R49). -/

namespace Sys2Proof.Machine

/-- BR and BRN (R40). -/
def execBrBrn (u : Agent) (iw : IWord) (s : State) : Out :=
  transfer u iw s (fun op => match op with
    | .br p sense off => some (fun _ t => (t, if t.getP p != sense then some (t.pc + wordOfInt (off * 4)) else none))
    | _ => none)

/-- JAL (R40). -/
def execJal (u : Agent) (iw : IWord) (s : State) : Out :=
  transfer u iw s (fun op => match op with
    | .jal rd off => some (fun nextPc t => (t.setG rd nextPc, some (t.pc + wordOfInt (off * 4))))
    | _ => none)

/-- Bits [1:0] cleared. -/
def align4 (w : Word) : Word := w &&& ~~~(3 : Word)

/-- JALR reads gs1 before it writes gd (R40). -/
def execJalr (u : Agent) (iw : IWord) (s : State) : Out :=
  transfer u iw s (fun op => match op with
    | .jalr rd a imm => some (fun nextPc t => (t.setG rd nextPc, some (align4 (t.getG a + wordOfInt imm))))
    | _ => none)

/-- UPCALL: a trap whose code follows the level, or a service record with g9 of the reported lane (R49, R250, R251).
What the tinfo register then holds is stated nowhere: a free value. -/
def execUpcall (u : Agent) (iw : IWord) (s : State) : Out :=
  issue u iw s (fun op => match op with | .upcall => true | _ => false) (fun s1 x _ =>
    match x.u with
    | .core n =>
      let (k, s2) := s1.stamp
      some (.next (s2.raise x 0 (9 + s2.lvl n) 0 (Config.freeWord k) 0 0))
    | .grp c slot =>
      let lane := (x.act.head?).getD 0
      let arg := match s1.grp c slot with
        | some g => if g.gn > 9 then ((s1.thr x.u lane).getG 9).toNat else 0
        | none => 0
      let s2 := match s1.grp c slot with | some g => s1.setGrp c slot { g with opLanes := x.all } | none => s1
      some (.next ((s2.untag x.u true).groupStall c slot lane 0x0009 0 x.pc.toNat 0 0 0 arg true x.act.length x.len)))

/-- DBGTRAP: a trap; a group halts for debug, or takes a group fault where no debugger is attached (R49, R343). -/
def execDbgtrap (u : Agent) (iw : IWord) (s : State) : Out :=
  issue u iw s (fun op => match op with | .dbgtrap => true | _ => false) (fun s1 x _ =>
    match x.u with
    | .core _ =>
      let (k, s2) := s1.stamp
      some (.next (s2.raise x 0 0x000C 0 (Config.freeWord k) 0 0))
    | .grp c slot =>
      if !s1.cp.attach then some (.next (s1.raise x ((x.act.head?).getD 0) 0x000C 0 x.pc 0 0))
      else match s1.grp c slot with
        | none => some (.next s1)
        | some g =>
          let g1 := x.all.foldl (fun g1 i => g1.setLane i { g1.lane i with wait := .dbg }) g
          some (.next ((s1.setGrp c slot { g1 with dbgLen := x.len }).post evDbgHalt (c / 64) [(1, 1), (2, c), (8, x.pc.toNat)])))

/-- RDCLK (R41). -/
def execRdclk (u : Agent) (iw : IWord) (s : State) : Out :=
  scalar u iw s (fun op => match op with
    | .rdclk rd => some (fun _ t => t.setG rd (BitVec.ofNat 64 (s.rdclk u))) | _ => none)

/-- RDFT (R41). -/
def execRdft (u : Agent) (iw : IWord) (s : State) : Out :=
  scalar u iw s (fun op => match op with
    | .rdft rd => some (fun _ t => t.setG rd (BitVec.ofNat 64 s.now)) | _ => none)

/-- RDFPC (R41). -/
def execRdfpc (u : Agent) (iw : IWord) (s : State) : Out :=
  scalar u iw s (fun op => match op with
    | .rdfpc rd => some (fun _ t => t.setG rd (t.fpc.zeroExtend 64)) | _ => none)

/-- WRFPC: reserved bits are ignored (R20, R41). -/
def execWrfpc (u : Agent) (iw : IWord) (s : State) : Out :=
  scalar u iw s (fun op => match op with
    | .wrfpc a => some (fun _ t => { t with fpc := (t.getG a).truncate 32 &&& 0x1F3 }) | _ => none)

/-- PAUSE: the path set yields (R41, R60). -/
def execPause (u : Agent) (iw : IWord) (s : State) : Out :=
  issue u iw s (fun op => match op with | .pause => true | _ => false) (fun s1 x _ =>
    some (.next (s1.advance x (fun _ => none) true)))

end Sys2Proof.Machine
end

