-- ==== Sys2Proof/Machine/Floating.lean ====
section
/-! DEFINITION. The scalar floating-point instructions (R18, R20, R30). -/

namespace Sys2Proof.Machine

/-- A rounded result and its flags are written (R18, R20). -/
def Thr.putF (t : Thr) (d : Bool) (fd : Nat) (r : Nat × Nat) : Thr := (t.setFd d fd r.1).raise r.2

/-- FADD, FSUB, FMUL, FDIV. -/
def arithOp (f : Nat) (fm : FFmt) (rm x y : Nat) : Nat × Nat :=
  match f with
  | 0 => fm.add rm x y | 1 => fm.sub rm x y | 2 => fm.mul rm x y | _ => fm.div rm x y

/-- Sign operations: 0 FCOPYSIGN, 1 FNEG, 2 FABS, 3 FMULSIGN. -/
def signOp (f : Nat) (fm : FFmt) (x y : Nat) : Nat :=
  let m := x % 2 ^ (fm.eb + fm.mb)
  let sx := (x >>> (fm.eb + fm.mb)) % 2
  let sy := (y >>> (fm.eb + fm.mb)) % 2
  let sg := match f with | 0 => sy | 1 => 1 - sx | 2 => 0 | _ => (sx + sy) % 2
  m + sg * 2 ^ (fm.eb + fm.mb)

/-- FADD, FSUB, FMUL, FDIV (R30). -/
def execFaddFsubFmulFdiv (u : Agent) (iw : IWord) (s : State) : Out :=
  scalar u iw s (fun op => match op with
    | .farith f d fd a b => some (fun _ t => t.putF d fd (arithOp f (fmtOf d) t.rm (t.getFd d a) (t.getFd d b))) | _ => none)

/-- FSQRT (R30). -/
def execFsqrt (u : Agent) (iw : IWord) (s : State) : Out :=
  scalar u iw s (fun op => match op with
    | .fsqrt d fd a => some (fun _ t => t.putF d fd ((fmtOf d).sqrt t.rm (t.getFd d a))) | _ => none)

/-- FMIN and FMAX (R30). -/
def execFminFmax (u : Agent) (iw : IWord) (s : State) : Out :=
  scalar u iw s (fun op => match op with
    | .fminmax f d fd a b => some (fun _ t => t.putF d fd ((fmtOf d).minmax (f == 1) (t.getFd d a) (t.getFd d b))) | _ => none)

/-- FCOPYSIGN, FNEG, FABS, FMULSIGN (R30). -/
def execFsign (u : Agent) (iw : IWord) (s : State) : Out :=
  scalar u iw s (fun op => match op with
    | .fsign f d fd a b => some (fun _ t => t.setFd d fd (signOp f (fmtOf d) (t.getFd d a) (t.getFd d b))) | _ => none)

/-- FWIDEN and FNARROW: d names the source (R30). -/
def execFwidenFnarrow (u : Agent) (iw : IWord) (s : State) : Out :=
  scalar u iw s (fun op => match op with
    | .fcvt d fd a => some (fun _ t => t.putF (!d) fd ((fmtOf d).conv (fmtOf (!d)) t.rm (t.getFd d a))) | _ => none)

/-- FTOI and FTOU (R30). -/
def execFtoiFtou (u : Agent) (iw : IWord) (s : State) : Out :=
  scalar u iw s (fun op => match op with
    | .ftoi uns d rd a => some (fun _ t =>
        let r := (fmtOf d).toInt uns t.rm (t.getFd d a)
        (t.setG rd (BitVec.ofNat 64 r.1)).raise r.2) | _ => none)

/-- ITOF and UTOF (R30). -/
def execItofUtof (u : Agent) (iw : IWord) (s : State) : Out :=
  scalar u iw s (fun op => match op with
    | .itof uns d fd a => some (fun _ t => t.putF d fd ((fmtOf d).ofInt uns t.rm (t.getG a).toNat)) | _ => none)

/-- MOVF.G and MOVG.F (R30). -/
def execMovfgMovgf (u : Agent) (iw : IWord) (s : State) : Out :=
  scalar u iw s (fun op => match op with
    | .mov toG d rd a => some (fun _ t =>
        if toG then t.setG rd (BitVec.ofNat 64 (t.getFd d a)) else t.setFd d rd (t.getG a).toNat) | _ => none)

/-- FKIND (R30). -/
def execFkind (u : Agent) (iw : IWord) (s : State) : Out :=
  scalar u iw s (fun op => match op with
    | .fkind d rd a => some (fun _ t => t.setG rd (BitVec.ofNat 64 ((fmtOf d).kind (t.getFd d a)))) | _ => none)

/-- FMA and FNMA (R30). -/
def execFmaFnma (u : Agent) (iw : IWord) (s : State) : Out :=
  scalar u iw s (fun op => match op with
    | .fma neg false d fd a b c => some (fun _ t =>
        t.putF d fd ((fmtOf d).fma t.rm neg false (t.getFd d a) (t.getFd d b) (t.getFd d c))) | _ => none)

/-- FMS and FNMS (R30). -/
def execFmsFnms (u : Agent) (iw : IWord) (s : State) : Out :=
  scalar u iw s (fun op => match op with
    | .fma neg true d fd a b c => some (fun _ t =>
        t.putF d fd ((fmtOf d).fma t.rm neg true (t.getFd d a) (t.getFd d b) (t.getFd d c))) | _ => none)

/-- FCMP (R30). -/
def execFcmp (u : Agent) (iw : IWord) (s : State) : Out :=
  scalar u iw s (fun op => match op with
    | .fcmp d c pd a b => some (fun _ t =>
        let r := (fmtOf d).compare c (t.getFd d a) (t.getFd d b)
        (t.setP pd r.1).raise r.2) | _ => none)

end Sys2Proof.Machine
end

