-- ==== Sys2Proof/Machine/GroupOps.lean ====
section
/-! DEFINITION. Lane exchanges, votes, folds and barriers of a group (R62 to R65). -/

namespace Sys2Proof.Machine

/-- Segment width; none where the segment is wider than the group (R62). -/
def segWidth (w seg : Nat) : Option Nat := if seg = 0 then some w else if 2 ^ seg ≤ w then some (2 ^ seg) else none

/-- A group instruction over segments: every lane reads its sources before any lane writes (R63). `f` gives the new
thread of an active lane from the width, the segment width, the active lanes and the old threads. -/
def segOp (u : Agent) (iw : IWord) (s : State) (row : Op → Bool)
    (f : Op → Nat → Nat → List Nat → (Nat → Thr) → Nat → Thr) (seg : Op → Nat) : Out :=
  issue u iw s row (fun s1 x op =>
    match x.u with
    | .core _ => some (.refused .wordsOfAnotherRow)
    | .grp c slot =>
      match s1.grp c slot with
      | none => some (.next s1)
      | some g =>
        match segWidth g.width (seg op) with
        | none => some (.next (s1.raiseWord x 1))
        | some sw =>
          let g1 := x.act.foldl (fun g1 i => g1.setThr i (f op g.width sw x.act (fun j => (g.lane j).thr) i)) g
          some (.next (((s1.setGrp c slot g1).noteF x.u op.fDst).next x)))

/-- Source lane of an exchange: none where lane i keeps or zeroes; `edge` 0 KEEP, 1 ZERO, 2 WRAP. -/
def xlSource (k edge sw d : Nat) (i idx : Nat) : Nat ⊕ Bool :=
  let b := i - i % sw
  let j : Int := match k with
    | 0 => ((b + idx : Nat) : Int)
    | 1 => ((i + d : Nat) : Int)
    | 2 => (i : Int) - (d : Int)
    | 3 => ((i ^^^ d : Nat) : Int)
    | _ => ((b + d : Nat) : Int)
  if (b : Int) ≤ j ∧ j < ((b + sw : Nat) : Int) then .inl j.toNat
  else if edge = 2 then .inl (b + ((j - (b : Int)) % (sw : Int)).toNat)
  else .inr (edge == 0)

/-- The exchange in one lane (R62). -/
def xlLane (op : Op) (_w sw : Nat) (act : List Nat) (old : Nat → Thr) (i : Nat) : Thr :=
  match op with
  | .xl k fl edge _ d rd a b =>
    let t := old i
    let src (j : Nat) : Word := if fl then (old j).getF a else (old j).getG a
    let v : Word := match xlSource k edge sw d i ((t.getG b).toNat % 64) with
      | .inl j => if act.elem j then src j else 0
      | .inr keep => if keep then src i else 0
    if fl then t.setF rd v else t.setG rd v
  | _ => old i

def xlSeg : Op → Nat | .xl _ _ _ seg _ _ _ _ => seg | _ => 0

/-- XL.R (R62). -/
def execXlR (u : Agent) (iw : IWord) (s : State) : Out :=
  segOp u iw s (fun op => match op with | .xl k .. => k = 0 | _ => false) xlLane xlSeg

/-- XL.FWD (R62). -/
def execXlFwd (u : Agent) (iw : IWord) (s : State) : Out :=
  segOp u iw s (fun op => match op with | .xl k .. => k = 1 | _ => false) xlLane xlSeg

/-- XL.BWD (R62). -/
def execXlBwd (u : Agent) (iw : IWord) (s : State) : Out :=
  segOp u iw s (fun op => match op with | .xl k .. => k = 2 | _ => false) xlLane xlSeg

/-- XL.FLIP (R62). -/
def execXlFlip (u : Agent) (iw : IWord) (s : State) : Out :=
  segOp u iw s (fun op => match op with | .xl k .. => k = 3 | _ => false) xlLane xlSeg

/-- XL.BCST (R62). -/
def execXlBcst (u : Agent) (iw : IWord) (s : State) : Out :=
  segOp u iw s (fun op => match op with | .xl k .. => k = 4 | _ => false) xlLane xlSeg

/-- Active lanes of lane i's segment. -/
def segLanes (sw : Nat) (act : List Nat) (i : Nat) : List Nat := act.filter (fun j => j / sw = i / sw)

/-- The mask of a list of lanes, in group-wide positions. -/
def laneMask (l : List Nat) : Word := l.foldl (fun m j => m ||| BitVec.ofNat 64 (2 ^ j)) 0

/-- A vote in one lane (R62): 0 ALL, 1 ANY, 2 MASK, 3 LIVE, 4 FIRST, 5 COUNT. -/
def lvLane (op : Op) (_w sw : Nat) (act : List Nat) (old : Nat → Thr) (i : Nat) : Thr :=
  match op with
  | .lv k _ pd pa rd =>
    let t := old i
    let sg := segLanes sw act i
    let set := sg.filter (fun j => (old j).getP pa)
    match k with
    | 0 => t.setP pd (set.length == sg.length)
    | 1 => t.setP pd (!set.isEmpty)
    | 2 => t.setG rd (laneMask set)
    | 3 => t.setG rd (laneMask sg)
    | 4 => t.setP pd (sg.all (fun j => i ≤ j))
    | _ => t.setG rd (BitVec.ofNat 64 set.length)
  | _ => old i

def lvSeg : Op → Nat | .lv _ seg _ _ _ => seg | _ => 0

/-- LV.ALL (R62). -/
def execLvAll (u : Agent) (iw : IWord) (s : State) : Out :=
  segOp u iw s (fun op => match op with | .lv k .. => k = 0 | _ => false) lvLane lvSeg

/-- LV.ANY (R62). -/
def execLvAny (u : Agent) (iw : IWord) (s : State) : Out :=
  segOp u iw s (fun op => match op with | .lv k .. => k = 1 | _ => false) lvLane lvSeg

/-- LV.MASK (R62). -/
def execLvMask (u : Agent) (iw : IWord) (s : State) : Out :=
  segOp u iw s (fun op => match op with | .lv k .. => k = 2 | _ => false) lvLane lvSeg

/-- LV.LIVE (R62). -/
def execLvLive (u : Agent) (iw : IWord) (s : State) : Out :=
  segOp u iw s (fun op => match op with | .lv k .. => k = 3 | _ => false) lvLane lvSeg

/-- LV.FIRST (R62). -/
def execLvFirst (u : Agent) (iw : IWord) (s : State) : Out :=
  segOp u iw s (fun op => match op with | .lv k .. => k = 4 | _ => false) lvLane lvSeg

/-- LV.COUNT (R62). -/
def execLvCount (u : Agent) (iw : IWord) (s : State) : Out :=
  segOp u iw s (fun op => match op with | .lv k .. => k = 5 | _ => false) lvLane lvSeg

/-- Two values of a fold combined (R62): 0 ADD, 1 MIN, 2 MAX, 3 OR, 4 MINU, 5 MAXU. -/
def foldTwo (k : Nat) (a b : Word) : Word :=
  match k with
  | 0 => a + b
  | 1 => if a.toInt ≤ b.toInt then a else b
  | 2 => if a.toInt ≤ b.toInt then b else a
  | 3 => a ||| b
  | 4 => if a.toNat ≤ b.toNat then a else b
  | _ => if a.toNat ≤ b.toNat then b else a

def foldWords (k : Nat) : List Word → Word
  | [] => 0
  | [w] => w
  | w :: r => foldTwo k w (foldWords k r)

def foldLane (op : Op) (_w sw : Nat) (act : List Nat) (old : Nat → Thr) (i : Nat) : Thr :=
  match op with
  | .fold k _ rd a => (old i).setG rd (foldWords k ((segLanes sw act i).map (fun j => (old j).getG a)))
  | _ => old i

/-- FOLD.ADD, MIN, MAX, OR, MINU, MAXU (R62). -/
def execFold (u : Agent) (iw : IWord) (s : State) : Out :=
  segOp u iw s (fun op => match op with | .fold .. => true | _ => false) foldLane
    (fun op => match op with | .fold _ seg _ _ => seg | _ => 0)

/-- GBAR: the lanes arrive when their earlier writes are visible in the group (R64). -/
def execGbar (u : Agent) (iw : IWord) (s : State) : Out :=
  issue u iw s (fun op => match op with | .gbar => true | _ => false) (fun s1 x _ =>
    some (.next (s1.runBarrier x.u { sids := s1.relStores x.u 0, arrive := 1, act := x.act.length, scope := 0 } x.all)))

/-- TBAR: arrival is a release at CORE (R65). -/
def execTbar (u : Agent) (iw : IWord) (s : State) : Out :=
  issue u iw s (fun op => match op with | .tbar => true | _ => false) (fun s1 x _ =>
    some (.next (s1.runBarrier x.u { sids := s1.relStores x.u 1, arrive := 2, act := x.act.length, scope := 1 } x.all)))

end Sys2Proof.Machine
end

