-- ==== Sys2Proof/Machine/HandOff.lean ====
section
/-! DEFINITION. Group hand-off instructions (R137). Each executes once for its path set, takes register operands from
the lowest active lane and writes its result in every active lane. -/

namespace Sys2Proof.Machine

/-- The path set waits at a hand-off instruction, blocked as R59 describes. -/
def State.waitHand (s : State) (x : UCtx) : State :=
  match x.u with
  | .core _ => s
  | .grp c slot => match s.grp c slot with
    | none => s
    | some g => (s.setGrp c slot (x.all.foldl (fun g1 i => g1.setLane i { g1.lane i with wait := .hand }) g)).settle c slot

/-- A hand-off instruction of a group. -/
def handOff (u : Agent) (iw : IWord) (s : State) (row : Op → Bool)
    (k : State → UCtx → Op → Nat → Nat → Group → Thr → Option Out) : Out :=
  issue u iw s row (fun s1 x op =>
    match x.u with
    | .core _ => some (.refused .wordsOfAnotherRow)
    | .grp c slot => match s1.grp c slot with
      | none => some (.next s1)
      | some g => k s1 x op c slot g (g.lane ((x.act.head?).getD 0)).thr)

/-- SCH.START: a release at CORE, then the channel starts, or is busy (R127, R137, R236). -/
def execSchStart (u : Agent) (iw : IWord) (s : State) : Out :=
  handOff u iw s (fun op => match op with | .schStart .. => true | _ => false) (fun s1 x op _ _ _ t =>
    match op with
    | .schStart ch rd a =>
      some (.next (s1.runBarrier x.u { sids := s1.relStores x.u 1, start := some (ch, (t.getG a).toNat, rd, x.act), adv := x.len, act := x.act.length, scope := 1 } x.all))
    | _ => some (.refused .wordsOfAnotherRow))

/-- SCH.POST: a release at the scope, then the post counter goes up (R137, R236). -/
def execSchPost (u : Agent) (iw : IWord) (s : State) : Out :=
  handOff u iw s (fun op => match op with | .schPost .. => true | _ => false) (fun s1 x op _ _ _ _ =>
    match op with
    | .schPost ch scope =>
      some (.next (s1.runBarrier x.u { sids := s1.relStores x.u scope, post := some ch, adv := x.len, act := x.act.length, scope := scope } x.all))
    | _ => some (.refused .wordsOfAnotherRow))

/-- SCH.WAIT: blocked until the signal counter reaches the target (R137). -/
def execSchWait (u : Agent) (iw : IWord) (s : State) : Out :=
  handOff u iw s (fun op => match op with | .schWait .. => true | _ => false) (fun s1 x op c _ _ t =>
    match op with
    | .schWait ch a =>
      if (t.getG a).toNat ≤ s1.fld .tsChCount c ch 0 32 then some (.next (s1.next x)) else some (.next (s1.waitHand x))
    | _ => some (.refused .wordsOfAnotherRow))

/-- Lanes of a path set remember the tile writes that TFENCE awaits. -/
def State.setAwait (s : State) (x : UCtx) (c slot : Nat) (l : Option (List Nat)) : State :=
  match s.grp c slot with
  | none => s
  | some g => s.setGrp c slot (x.all.foldl (fun g1 i => g1.setLane i { g1.lane i with await := l }) g)

/-- TFENCE: blocked until the writes that the named channels had started are complete (R137). -/
def execTfence (u : Agent) (iw : IWord) (s : State) : Out :=
  handOff u iw s (fun op => match op with | .tfence .. => true | _ => false) (fun s1 x op c slot g _ =>
    match op with
    | .tfence mask _ =>
      let ids := match (g.lane ((x.act.head?).getD 0)).await with
        | some l => l
        | none => (s1.twr.filter (fun e => e.2.c = c && (mask >>> e.2.ch) % 2 == 1)).map (·.1)
      if ids.any (fun i => s1.twr.has i) then some (.next ((s1.setAwait x c slot (some ids)).waitHand x))
      else some (.next ((s1.setAwait x c slot none).next x))
    | _ => some (.refused .wordsOfAnotherRow))

/-- The slot and first line that a team-relative line names, and whether n lines from it lie within one slot of the
team; the registers that n lines need lie below the group's limit (R137). -/
def State.tsLines (s : State) (g : Group) (line n base : Nat) : Option (Nat × Nat) :=
  match s.teams.find? g.team with
  | none => none
  | some t =>
    if line / 64 < t.tiles ∧ line % 64 + n ≤ 64 ∧ base + ceilDiv (n * 16) g.width ≤ g.fn then
      some (t.base + line / 64, line % 64)
    else none

/-- TS.RD: waits for FULL, copies lines into registers as R98 lays them out, and frees the slot (R137). -/
def execTsRd (u : Agent) (iw : IWord) (s : State) : Out :=
  handOff u iw s (fun op => match op with | .tsRd .. => true | _ => false) (fun s1 x op c slot g t =>
    match op with
    | .tsRd n free rd a =>
      (match s1.tsLines g (t.getG a).toNat n rd with
       | none => some (.next (s1.raiseWord x 1))
       | some (sl, ln) =>
         let k := s1.slot c sl
         if k.st ≠ 2 then some (.next (s1.waitHand x))
         else if (upTo n).any (fun i => k.bad (ln + i)) then some (.next (s1.raise x ((x.act.head?).getD 0) 7 0 0 0 0))
         else
           let g1 := (upTo (16 * n)).foldl (fun g1 w =>
             let i := w % g.width
             if x.act.elem i then
               g1.setThr i ((g1.lane i).thr.setF (rd + w / g.width) (BitVec.ofNat 64 (lineBytes (k.line (ln + w / 16)) (8 * (w % 16)) 8)))
             else g1) g
           let s2 := (s1.setGrp c slot g1).noteF x.u ((upTo (ceilDiv (n * 16) g.width)).map (fun r => rd + r))
           some (.next ((if free then s2.slotState c sl 0 else s2).next x)))
    | _ => some (.refused .wordsOfAnotherRow))

/-- TS.WR: waits while the slot is FILLING, writes whole lines (zero for lanes that are not active), and marks the slot
FULL (R137). -/
def execTsWr (u : Agent) (iw : IWord) (s : State) : Out :=
  handOff u iw s (fun op => match op with | .tsWr .. => true | _ => false) (fun s1 x op c _ g t =>
    match op with
    | .tsWr n mark a b =>
      (match s1.tsLines g (t.getG a).toNat n b with
       | none => some (.next (s1.raiseWord x 1))
       | some (sl, ln) =>
         let k := s1.slot c sl
         if k.st = 1 then some (.next (s1.waitHand x))
         else
           let word (w : Nat) : Nat :=
             if x.act.elem (w % g.width) then ((g.lane (w % g.width)).thr.getF (b + w / g.width)).toNat else 0
           let k1 := (upTo n).foldl (fun k1 i =>
             k1.put (ln + i) (BitVec.ofNat 1024 ((upTo 16).foldr (fun j acc => acc * 2 ^ 64 + word (16 * i + j)) 0)) false) k
           let s2 := s1.setSlot c sl k1
           some (.next ((if mark then s2.slotState c sl 2 else s2).next x)))
    | _ => some (.refused .wordsOfAnotherRow))

/-- SCH.STAT (R137). -/
def execSchStat (u : Agent) (iw : IWord) (s : State) : Out :=
  handOff u iw s (fun op => match op with | .schStat .. => true | _ => false) (fun s1 x op c _ _ _ =>
    match op with
    | .schStat ch rd => some (.next ((s1.mapThr x (fun t => t.setG rd (s1.regNow .tsChStatus c ch))).next x))
    | _ => some (.refused .wordsOfAnotherRow))

end Sys2Proof.Machine
end

