-- ==== Sys2Proof/Machine/Integer.lean ====
section
/-! DEFINITION. The integer, compare and predicate instructions (R28, R29). -/

namespace Sys2Proof.Machine

def ofBool (b : Bool) : Word := if b then 1 else 0

/-- Sign extension of the low 32 bits. -/
def sextW (n : Nat) : Word := wordOfInt (sext 32 n)

/-- ADD, SUB, AND, OR, XOR, ANDN. -/
def aluOp (f : Nat) (a b : Word) : Word :=
  match f with
  | 0 => a + b | 1 => a - b | 2 => a &&& b | 3 => a ||| b | 4 => a ^^^ b | _ => a &&& ~~~b

/-- SLL, SRL, SRA, ROR by an amount below 64. -/
def shiftOp (f : Nat) (a : Word) (n : Nat) : Word :=
  match f with
  | 0 => a <<< n | 1 => a >>> n | 2 => a.sshiftRight n | _ => a.rotateRight n

/-- MIN, MAX, MINU, MAXU. -/
def minmaxOp (f : Nat) (a b : Word) : Word :=
  match f with
  | 0 => if a.toInt ≤ b.toInt then a else b
  | 1 => if a.toInt ≤ b.toInt then b else a
  | 2 => if a.toNat ≤ b.toNat then a else b
  | _ => if a.toNat ≤ b.toNat then b else a

/-- MUL, MULH, MULHU. -/
def mulOp (f : Nat) (a b : Word) : Word :=
  match f with
  | 0 => a * b
  | 1 => wordOfInt ((a.toInt * b.toInt) / (2 ^ 64 : Nat))
  | _ => BitVec.ofNat 64 ((a.toNat * b.toNat) / 2 ^ 64)

/-- DIV, DIVU, REM, REMU (R29). -/
def divOp (f : Nat) (a b : Word) : Word :=
  match f with
  | 0 => if b = 0 then BitVec.allOnes 64 else wordOfInt (a.toInt.tdiv b.toInt)
  | 1 => if b = 0 then BitVec.allOnes 64 else BitVec.ofNat 64 (a.toNat / b.toNat)
  | 2 => if b = 0 then a else wordOfInt (a.toInt.tmod b.toInt)
  | _ => if b = 0 then a else BitVec.ofNat 64 (a.toNat % b.toNat)

/-- ADD.W, SUB.W, MUL.W, SLL.W, SRL.W, SRA.W. -/
def wordOp (f : Nat) (a b : Word) : Word :=
  let x := a.toNat % 2 ^ 32
  let y := b.toNat % 2 ^ 32
  let n := y % 32
  match f with
  | 0 => sextW (x + y)
  | 1 => sextW (x + 2 ^ 32 - y)
  | 2 => sextW (x * y)
  | 3 => sextW (x <<< n)
  | 4 => sextW (x >>> n)
  | _ => wordOfInt (sext 32 x / (2 ^ n : Nat))

def popCount (w : Word) : Nat := (upTo 64).foldl (fun acc i => acc + (bit w i).toNat) 0
def clz (w : Word) : Nat := if w = 0 then 64 else 63 - w.toNat.log2
def ctz (w : Word) : Nat := ((upTo 64).find? (fun i => bit w i)).getD 64
def rev8 (w : Word) : Word := BitVec.ofNat 64 (ofLeBytes (leBytes 8 w.toNat).reverse)

/-- CLZ, CTZ, POPC, REV8. -/
def cntOp (f : Nat) (a : Word) : Word :=
  match f with
  | 0 => BitVec.ofNat 64 (clz a) | 1 => BitVec.ofNat 64 (ctz a) | 2 => BitVec.ofNat 64 (popCount a) | _ => rev8 a

/-- ADDI, ANDI, ORI, XORI. -/
def immOp (f : Nat) (a b : Word) : Word :=
  match f with | 0 => a + b | 1 => a &&& b | 2 => a ||| b | _ => a ^^^ b

/-- EQ, NE, LT, GE, LTU, GEU. -/
def condOp (c : Nat) (a b : Word) : Bool :=
  match c with
  | 0 => a == b | 1 => a != b | 2 => a.toInt < b.toInt | 3 => b.toInt ≤ a.toInt
  | 4 => a.toNat < b.toNat | _ => b.toNat ≤ a.toNat

/-- AND, OR, XOR, ANDN, NOT. -/
def plogOp (pop : Nat) (a b : Bool) : Bool :=
  match pop with
  | 0 => a && b | 1 => a || b | 2 => a != b | 3 => a && !b | _ => !a

/-- ADD, SUB, AND, OR, XOR, ANDN (R28). -/
def execAddSubAndOrXorAndn (u : Agent) (iw : IWord) (s : State) : Out :=
  scalar u iw s (fun op => match op with
    | .alu f rd a b => some (fun _ t => t.setG rd (aluOp f (t.getG a) (t.getG b))) | _ => none)

/-- SLL, SRL, SRA, ROR by gs2[5:0] (R28). -/
def execSllSrlSraRor (u : Agent) (iw : IWord) (s : State) : Out :=
  scalar u iw s (fun op => match op with
    | .shr f rd a b => some (fun _ t => t.setG rd (shiftOp f (t.getG a) ((t.getG b).toNat % 64))) | _ => none)

/-- MIN, MAX, MINU, MAXU (R28). -/
def execMinMaxMinuMaxu (u : Agent) (iw : IWord) (s : State) : Out :=
  scalar u iw s (fun op => match op with
    | .minmax f rd a b => some (fun _ t => t.setG rd (minmaxOp f (t.getG a) (t.getG b))) | _ => none)

/-- MUL, MULH, MULHU (R28). -/
def execMulMulhMulhu (u : Agent) (iw : IWord) (s : State) : Out :=
  scalar u iw s (fun op => match op with
    | .mul f rd a b => some (fun _ t => t.setG rd (mulOp f (t.getG a) (t.getG b))) | _ => none)

/-- DIV, DIVU, REM, REMU (R28, R29). -/
def execDivDivuRemRemu (u : Agent) (iw : IWord) (s : State) : Out :=
  scalar u iw s (fun op => match op with
    | .div f rd a b => some (fun _ t => t.setG rd (divOp f (t.getG a) (t.getG b))) | _ => none)

/-- ADD.W, SUB.W, MUL.W and the 32-bit shifts (R28). -/
def execWordOps (u : Agent) (iw : IWord) (s : State) : Out :=
  scalar u iw s (fun op => match op with
    | .word f rd a b => some (fun _ t => t.setG rd (wordOp f (t.getG a) (t.getG b))) | _ => none)

/-- CLZ, CTZ, POPC, REV8 (R28). -/
def execClzCtzPopcRev8 (u : Agent) (iw : IWord) (s : State) : Out :=
  scalar u iw s (fun op => match op with
    | .cnt f rd a => some (fun _ t => t.setG rd (cntOp f (t.getG a))) | _ => none)

/-- SEL (R28). -/
def execSel (u : Agent) (iw : IWord) (s : State) : Out :=
  scalar u iw s (fun op => match op with
    | .sel p rd a b => some (fun _ t => t.setG rd (if t.getP p then t.getG a else t.getG b)) | _ => none)

/-- PTOG (R28). -/
def execPtog (u : Agent) (iw : IWord) (s : State) : Out :=
  scalar u iw s (fun op => match op with
    | .ptog rd => some (fun _ t => t.setG rd ((t.p ||| 1).zeroExtend 64)) | _ => none)

/-- GTOP: bit 0 of gs1 is ignored (R28). -/
def execGtop (u : Agent) (iw : IWord) (s : State) : Out :=
  scalar u iw s (fun op => match op with
    | .gtop a => some (fun _ t => { t with p := (t.getG a).truncate 8 &&& 0xFE }) | _ => none)

/-- ADDI, ANDI, ORI, XORI (R28). -/
def execAddiAndiOriXori (u : Agent) (iw : IWord) (s : State) : Out :=
  scalar u iw s (fun op => match op with
    | .immop f rd a imm => some (fun _ t => t.setG rd (immOp f (t.getG a) (wordOfInt imm))) | _ => none)

/-- SHI (R28). -/
def execShi (u : Agent) (iw : IWord) (s : State) : Out :=
  scalar u iw s (fun op => match op with
    | .shi f rd a n => some (fun _ t => t.setG rd (shiftOp f (t.getG a) n)) | _ => none)

/-- LI (R28). -/
def execLi (u : Agent) (iw : IWord) (s : State) : Out :=
  scalar u iw s (fun op => match op with
    | .li rd imm => some (fun _ t => t.setG rd (wordOfInt imm)) | _ => none)

/-- LIH: bits 63 to 40 (R28). -/
def execLih (u : Agent) (iw : IWord) (s : State) : Out :=
  scalar u iw s (fun op => match op with
    | .lih rd v => some (fun _ t => t.setG rd (setBits (t.getG rd) 40 24 v)) | _ => none)

/-- ADDPC (R28): the pc is that of the first word (R21). -/
def execAddpc (u : Agent) (iw : IWord) (s : State) : Out :=
  scalar u iw s (fun op => match op with
    | .addpc rd imm => some (fun pc t => t.setG rd (pc + wordOfInt (imm * 4))) | _ => none)

/-- ADDI.W (R28). -/
def execAddiW (u : Agent) (iw : IWord) (s : State) : Out :=
  scalar u iw s (fun op => match op with
    | .addiw rd a imm => some (fun _ t => t.setG rd (sextW (t.getG a + wordOfInt imm).toNat)) | _ => none)

/-- CMP and CMP.W (R28). -/
def execCmp (u : Agent) (iw : IWord) (s : State) : Out :=
  scalar u iw s (fun op => match op with
    | .cmp w c pd a b => some (fun _ t => t.setP pd (if w then condOp c (sextW (t.getG a).toNat) (sextW (t.getG b).toNat)
                                                     else condOp c (t.getG a) (t.getG b))) | _ => none)

/-- CMPI (R28). -/
def execCmpi (u : Agent) (iw : IWord) (s : State) : Out :=
  scalar u iw s (fun op => match op with
    | .cmpi c pd a imm => some (fun _ t => t.setP pd (condOp c (t.getG a) (wordOfInt imm))) | _ => none)

/-- PLOG (R28). -/
def execPlog (u : Agent) (iw : IWord) (s : State) : Out :=
  scalar u iw s (fun op => match op with
    | .plog pop pd pa pb => some (fun _ t => t.setP pd (plogOp pop (t.getP pa) (t.getP pb))) | _ => none)

end Sys2Proof.Machine
end

