-- ==== Sys2Proof/Machine/MemAccess.lean ====
section
/-! DEFINITION. Loads, stores, atomics, LL.D and SC.D, fences, prefetches and ZERO.L (R31 to R39, R217 to R229). -/

namespace Sys2Proof.Machine

/-- The address of a lane's access. -/
def laneVa (s : State) (x : UCtx) (a : Nat) (off : Int) (i : Nat) : Nat := effAddr (s.thr x.u i) a off

/-- A plain or ordered load; with an order it is an acquire and naturally aligned (R31, R32, R34). -/
def beginLoad (s : State) (x : UCtx) (sgn fp : Bool) (size rd a : Nat) (off : Int) (hint ord scope : Nat) : Option Out :=
  (s.beginOp x { need := .load, size := 2 ^ size, ordered := ord != 0, excl := false } (.load (2 ^ size) sgn fp)
    (laneVa s x a off) (fun _ => (0, 0)) rd hint scope 0 none).map .next

/-- A plain or ordered store (R31, R32, R34). -/
def beginSt (s : State) (x : UCtx) (fp : Bool) (size rt a : Nat) (off : Int) (hint ord scope : Nat) : Option Out :=
  let val (i : Nat) : Nat := if fp then ((s.thr x.u i).getF rt).toNat else ((s.thr x.u i).getG rt).toNat
  (s.beginStore x { need := .store, size := 2 ^ size, ordered := ord != 0, excl := false } (laneVa s x a off) val hint
    (if ord = 0 then none else some scope)).map .next

/-- LD (R31). -/
def execLd (u : Agent) (iw : IWord) (s : State) : Out :=
  issue u iw s (fun op => match op with | .load false false .. => true | _ => false) (fun s1 x op => match op with
    | .load sgn fp size rd a off hint ord scope => beginLoad s1 x sgn fp size rd a off hint ord scope
    | _ => some (.refused .wordsOfAnotherRow))

/-- LDS (R31). -/
def execLds (u : Agent) (iw : IWord) (s : State) : Out :=
  issue u iw s (fun op => match op with | .load true false .. => true | _ => false) (fun s1 x op => match op with
    | .load sgn fp size rd a off hint ord scope => beginLoad s1 x sgn fp size rd a off hint ord scope
    | _ => some (.refused .wordsOfAnotherRow))

/-- FLD (R31). -/
def execFld (u : Agent) (iw : IWord) (s : State) : Out :=
  issue u iw s (fun op => match op with | .load false true .. => true | _ => false) (fun s1 x op => match op with
    | .load sgn fp size rd a off hint ord scope => beginLoad s1 x sgn fp size rd a off hint ord scope
    | _ => some (.refused .wordsOfAnotherRow))

/-- ST (R31). -/
def execSt (u : Agent) (iw : IWord) (s : State) : Out :=
  issue u iw s (fun op => match op with | .store false .. => true | _ => false) (fun s1 x op => match op with
    | .store fp size rt a off hint ord scope => beginSt s1 x fp size rt a off hint ord scope
    | _ => some (.refused .wordsOfAnotherRow))

/-- FST (R31). -/
def execFst (u : Agent) (iw : IWord) (s : State) : Out :=
  issue u iw s (fun op => match op with | .store true .. => true | _ => false) (fun s1 x op => match op with
    | .store fp size rt a off hint ord scope => beginSt s1 x fp size rt a off hint ord scope
    | _ => some (.refused .wordsOfAnotherRow))

/-- Ordered load (R34). -/
def execOrderedLoad (u : Agent) (iw : IWord) (s : State) : Out :=
  issue u iw s (fun op => match op with | .oload .. => true | _ => false) (fun s1 x op => match op with
    | .oload size rd a off hint ord scope => beginLoad s1 x false false size rd a off hint ord scope
    | _ => some (.refused .wordsOfAnotherRow))

/-- Ordered store (R34). -/
def execOrderedStore (u : Agent) (iw : IWord) (s : State) : Out :=
  issue u iw s (fun op => match op with | .ostore .. => true | _ => false) (fun s1 x op => match op with
    | .ostore size rt a off hint ord scope => beginSt s1 x false size rt a off hint ord scope
    | _ => some (.refused .wordsOfAnotherRow))

/-- The operation that an opcode and sub field name (R35). -/
def amoName (k : Nat) : AmoOp :=
  match k with
  | 0 => .add | 1 => .and | 2 => .or | 3 => .xor | 4 => .swap | 5 => .cas | 6 => .min | 7 => .max
  | 8 => .minu | 9 => .maxu | _ => .fadd

/-- An atomic: one request for each line, performed at the home under NORMAL (R35, R36, R67). -/
def beginAmo (s : State) (x : UCtx) (k : Nat) (wide : Bool) (rd a b : Nat) (off : Int) (ord scope : Nat) : Option Out :=
  (s.beginOp x { need := .store, size := if wide then 8 else 4, ordered := true, excl := true } (.amo (amoName k) wide)
    (laneVa s x a off) (fun i => (((s.thr x.u i).getG b).toNat, ((s.thr x.u i).getG rd).toNat)) rd 1 scope 0
    (if ord ≥ 2 then some scope else none)).map .next

/-- AMO.ADD, AND, OR, XOR (R35). -/
def execAmoAddAndOrXor (u : Agent) (iw : IWord) (s : State) : Out :=
  issue u iw s (fun op => match op with | .amo k .. => k < 4 | _ => false) (fun s1 x op => match op with
    | .amo k wide rd a b off _ ord scope => beginAmo s1 x k wide rd a b off ord scope
    | _ => some (.refused .wordsOfAnotherRow))

/-- AMO.SWAP, CAS, MIN, MAX (R35). -/
def execAmoSwapCasMinMax (u : Agent) (iw : IWord) (s : State) : Out :=
  issue u iw s (fun op => match op with | .amo k .. => 4 ≤ k && k < 8 | _ => false) (fun s1 x op => match op with
    | .amo k wide rd a b off _ ord scope => beginAmo s1 x k wide rd a b off ord scope
    | _ => some (.refused .wordsOfAnotherRow))

/-- AMO.MINU, MAXU, FADD (R35). -/
def execAmoMinuMaxuFadd (u : Agent) (iw : IWord) (s : State) : Out :=
  issue u iw s (fun op => match op with | .amo k .. => 8 ≤ k | _ => false) (fun s1 x op => match op with
    | .amo k wide rd a b off _ ord scope => beginAmo s1 x k wide rd a b off ord scope
    | _ => some (.refused .wordsOfAnotherRow))

/-- LL.D: an older reservation ends; the new one is set when the line is in E or M (R37, R204). -/
def execLlD (u : Agent) (iw : IWord) (s : State) : Out :=
  issue u iw s (fun op => match op with | .ll .. => true | _ => false) (fun s1 x op => match op with
    | .ll rd a off hint _ scope =>
      ((s1.mapThr x (fun t => { t with resv := none })).beginOp x
        { need := .load, size := 8, ordered := true, excl := true, llsc := true } .ll
        (laneVa s1 x a off) (fun _ => (0, 0)) rd hint scope 5 none).map .next
    | _ => some (.refused .wordsOfAnotherRow))

/-- Lanes of an SC.D whose store will be tried: the lowest lane of each line that holds a valid reservation on it. -/
def scWinners (s : State) (x : UCtx) : List LAcc → List Nat → List Nat
  | [], _ => []
  | a :: r, taken =>
    let l := a.pa / 128
    if taken.elem l || (s.thr x.u a.lane).resv ≠ some l then scWinners s x r taken
    else a.lane :: scWinners s x r (l :: taken)

/-- Whether a lane's SC.D fails spuriously: at most once in 16 executions of a conforming loop (R228, R229). -/
def Thr.scMayFail (t : Thr) : Bool := !(t.llOk && t.llLen + 1 ≤ 16) || t.scSince ≥ 16

/-- SC.D: the lanes that may succeed go to their cache with the value, and the others have failed (R37, R66, R228). -/
def beginSc (s : State) (x : UCtx) (rd a b : Nat) (off : Int) (hint ord scope : Nat) : Option Out :=
  match s.checkAll x { need := .store, size := 8, ordered := true, excl := true, llsc := true } (laneVa s x a off) x.act with
  | .wait => none
  | .bad s1 => some (.next s1)
  | .ok s1 l =>
    let (k, s2) := s1.stamp
    let win0 := scWinners s2 x (l.map (·.a)) []
    let spur := win0.filter (fun i => (s2.thr x.u i).scMayFail && Config.scFails (k * 64 + i))
    let win := win0.filter (fun i => !spur.elem i)
    let lines := lineReqs hint (l.filter (fun t => win.elem t.a.lane))
    let accs := l.map (fun t => { t.a with op1 := ((s2.thr x.u t.a.lane).getG b).toNat, old := if win.elem t.a.lane then 0 else 1 })
    let s3 := l.foldl (fun s3 t =>
      let i := t.a.lane
      let y := s3.thr x.u i
      s3.setThr x.u i { y with resv := if win.elem i then y.resv else none,
                               scSince := if spur.elem i then 0 else y.scSince + 1 }) s2
    let p : PendOp := { u := x.u, kind := .sc, rd := rd, accs := accs, lines := lines, len := x.len, cls := 1,
                        scope := scope, launch := unitLaunch s3 x.u }
    let same := s3.sameLine x.u lines true
    let sids := if ord = 2 then s3.relStores x.u scope ++ same.filter (fun i => !(s3.relStores x.u scope).elem i) else same
    some (.next (s3.runBarrier x.u { sids := sids, op := some p, scope := if ord = 2 && same.isEmpty then scope else 4 } x.all))

def execScD (u : Agent) (iw : IWord) (s : State) : Out :=
  issue u iw s (fun op => match op with | .sc .. => true | _ => false) (fun s1 x op => match op with
    | .sc rd a b off hint ord scope => beginSc s1 x rd a b off hint ord scope
    | _ => some (.refused .wordsOfAnotherRow))

/-- A fence waits for older stores; older loads are complete when the next instruction issues (R220, R236). -/
def fenceOn (s : State) (x : UCtx) (sids : List Nat) (scope : Nat := 4) : Option Out :=
  some (.next (s.runBarrier x.u { sids := sids, adv := x.len, act := x.act.length, scope := scope } x.all))

/-- FENCE (R38, R222). -/
def execFence (u : Agent) (iw : IWord) (s : State) : Out :=
  issue u iw s (fun op => match op with | .fence k _ => k = 0 | _ => false) (fun s1 x op => match op with
    | .fence _ scope => fenceOn s1 x (s1.relStores x.u scope) scope
    | _ => some (.refused .wordsOfAnotherRow))

/-- FENCE.ACQ (R38, R221). -/
def execFenceAcq (u : Agent) (iw : IWord) (s : State) : Out :=
  issue u iw s (fun op => match op with | .fence k _ => k = 1 | _ => false) (fun s1 x _ => fenceOn s1 x [])

/-- FENCE.REL (R38, R222). -/
def execFenceRel (u : Agent) (iw : IWord) (s : State) : Out :=
  issue u iw s (fun op => match op with | .fence k _ => k = 2 | _ => false) (fun s1 x op => match op with
    | .fence _ scope => fenceOn s1 x (s1.relStores x.u scope) scope
    | _ => some (.refused .wordsOfAnotherRow))

/-- FENCE.IO waits for the completion of every older store (R38, R226, R227). -/
def execFenceIo (u : Agent) (iw : IWord) (s : State) : Out :=
  issue u iw s (fun op => match op with | .fenceIo => true | _ => false) (fun s1 x _ => fenceOn s1 x (s1.olderStores x.u))

/-- The fetch buffer of a compute-die core is empty (R197). -/
def State.dropIbuf (s : State) (u : Agent) : State :=
  match u with
  | .core _ => s
  | .grp c _ => s.setCoreS c { s.coreS c with ibuf := [] }

/-- FENCE.I: the unit's older stores are where its fetches see them, and its fetch buffer is empty (R38, R197). -/
def execFenceI (u : Agent) (iw : IWord) (s : State) : Out :=
  issue u iw s (fun op => match op with | .fenceI => true | _ => false) (fun s1 x _ =>
    let s2 := s1.dropIbuf x.u
    fenceOn s2 x (s2.olderStores x.u))

/-- Line addresses that a prefetch of the lanes names, each once; a denied translation is dropped (R247). -/
def pfLines (s : State) (x : UCtx) (need : Need) (a : Nat) : List Nat → State × List (Nat × Nat) × Bool
  | [] => (s, [], false)
  | i :: r =>
    let who := match x.u with | .core n => XWho.core n | .grp c _ => XWho.cd c (s.unitAsid x.u)
    let go (s1 : State) (e : List (Nat × Nat)) : State × List (Nat × Nat) × Bool :=
      let (s2, l, w) := pfLines s1 x need a r
      (s2, e ++ l.filter (fun y => !e.any (fun z => z.1 = y.1)), w)
    match s.translate who need (laneVa s x a 0 i) with
    | .wait => (s, [], true)
    | .bus s1 _ | .poison s1 _ | .fault s1 .. => go s1 []
    | .ok s1 pa dev h w _ =>
      let p := s1.partAt pa dev h w
      if p.mem = .cached then go s1 [(pa / 128, pickHint 0 dev p)] else go s1 []

/-- A prefetch asks for the lines that its cache does not hold, and never faults (R39). -/
def beginPf (s : State) (x : UCtx) (w : Bool) (a : Nat) : Option Out :=
  let (s1, ls, wait) := pfLines s x (if w then .store else .load) a x.act
  if wait then none
  else
    let c := agCache x.u
    let s2 := ls.foldl (fun s2 e =>
      let r := if w then s2.missStore c e.1 4 e.2 .none'
               else if (s2.cline c e.1).st = .I then s2.missLoad c e.1 4 e.2 .none' else none
      r.getD s2) s1
    some (.next (s2.next x))

/-- PF.R (R39). -/
def execPfR (u : Agent) (iw : IWord) (s : State) : Out :=
  issue u iw s (fun op => match op with | .pf false _ => true | _ => false) (fun s1 x op => match op with
    | .pf w a => beginPf s1 x w a
    | _ => some (.refused .wordsOfAnotherRow))

/-- PF.W (R39). -/
def execPfW (u : Agent) (iw : IWord) (s : State) : Out :=
  issue u iw s (fun op => match op with | .pf true _ => true | _ => false) (fun s1 x op => match op with
    | .pf w a => beginPf s1 x w a
    | _ => some (.refused .wordsOfAnotherRow))

/-- ZERO.L: one store of zeros to the whole line (R39). -/
def execZeroL (u : Agent) (iw : IWord) (s : State) : Out :=
  issue u iw s (fun op => match op with | .zerol _ => true | _ => false) (fun s1 x op => match op with
    | .zerol a =>
      (s1.beginStore x { need := .store, size := 128, ordered := false, excl := false }
        (fun i => laneVa s1 x a 0 i / 128 * 128) (fun _ => 0) 0 none).map .next
    | _ => some (.refused .wordsOfAnotherRow))

end Sys2Proof.Machine
end

