-- ==== Sys2Proof/Machine/System.lean ====
section
/-! DEFINITION. Prieno-S: sys registers, TRET, IDLE, interrupts, TLB maintenance and cache maintenance (R42 to R51), and
the answers to loads and stores (R220, R234 to R236). -/

namespace Sys2Proof.Machine

/- Sys registers (R43, R44). -/

/-- Value of a sys register; sys.irq_ack reads zero. -/
def State.sysRead (s : State) (core n : Nat) : Word :=
  let c := s.core core
  match n with
  | 0x000 => c.state | 0x001 => c.irqEn | 0x002 => BitVec.ofNat 64 (s.irqPend core) | 0x004 => c.alarm
  | 0x008 => c.tpcK | 0x009 => c.whyK | 0x00A => c.tinfoK | 0x00B => c.entryK | 0x00C => c.spareK
  | 0x010 => c.ptroot | 0x011 => c.asid | 0x020 => BitVec.ofNat 64 core
  | 0x021 => (Config.stepping 0).zeroExtend 64
  | 0x108 => c.tpcM | 0x109 => c.whyM | 0x10A => c.tinfoM | 0x10B => c.entryM | 0x10C => c.spareM
  | 0x110 => c.route
  | _ => 0

/-- Fields [20:0] of sys.why_k and sys.why_m (R48). -/
def whyMask : Word := 0x1FFFFF
/-- Bits [11:0] of an entry address read zero. -/
def entryMask : Word := ~~~(0xFFF : Word)

/-- A write of sys.state: LVL is read only, KPL takes U or K, MPL takes U, K or M, and MPL and MPIE change at M alone. -/
def stateWrite (old w : Word) : Word :=
  let s1 := setBits (setBits old 2 1 (bits w 2 1)) 6 1 (bits w 6 1)
  let s2 := if bits w 4 2 < 2 then setBits s1 4 2 (bits w 4 2) else s1
  if bits old 0 2 = 2 then
    let s3 := if bits w 8 2 < 3 then setBits s2 8 2 (bits w 8 2) else s2
    setBits s3 10 1 (bits w 10 1)
  else s2

/-- MTSYS of a register that may be written. -/
def PCore.sysWrite (c : PCore) (n : Nat) (w : Word) : PCore :=
  match n with
  | 0x000 => { c with state := stateWrite c.state w }
  | 0x001 => { c with irqEn := w &&& 0xF }
  | 0x003 => if bit w 2 then { c with ipi := false } else c
  | 0x004 => { c with alarm := w }
  | 0x008 => { c with tpcK := w }
  | 0x009 => { c with whyK := w &&& whyMask }
  | 0x00A => { c with tinfoK := w }
  | 0x00B => { c with entryK := w &&& entryMask }
  | 0x00C => { c with spareK := w }
  | 0x010 => { c with ptroot := w &&& 0x00FFFFFFFFFFF001 }
  | 0x011 => { c with asid := w &&& 0xFFFF }
  | 0x108 => { c with tpcM := w }
  | 0x109 => { c with whyM := w &&& whyMask }
  | 0x10A => { c with tinfoM := w }
  | 0x10B => { c with entryM := w &&& entryMask }
  | 0x10C => { c with spareM := w }
  | 0x110 => { c with route := w }
  | _ => c

/-- MFSYS (R43). -/
def execMfsys (u : Agent) (iw : IWord) (s : State) : Out :=
  issue u iw s (fun op => match op with | .mfsys .. => true | _ => false) (fun s1 x op =>
    match op, x.u with
    | .mfsys rd n, .core k =>
      (match sysMin n with
       | none => some (.next (s1.raiseWord x 1))
       | some m =>
         if s1.lvl k < m then some (.next (s1.raiseWord x 2))
         else some (.next ((s1.mapThr x (fun t => t.setG rd (s1.sysRead k n))).next x)))
    | _, _ => some (.refused .wordsOfAnotherRow))

/-- MTSYS (R43). -/
def execMtsys (u : Agent) (iw : IWord) (s : State) : Out :=
  issue u iw s (fun op => match op with | .mtsys .. => true | _ => false) (fun s1 x op =>
    match op, x.u with
    | .mtsys a n, .core k =>
      (match sysMin n with
       | none => some (.next (s1.raiseWord x 1))
       | some m =>
         if sysReadOnly n then some (.next (s1.raiseWord x 1))
         else if s1.lvl k < m then some (.next (s1.raiseWord x 2))
         else some (.next ((s1.setCore k ((s1.core k).sysWrite n ((s1.core k).thr.getG a))).next x)))
    | _, _ => some (.refused .wordsOfAnotherRow))

/-- TRET returns from K or from M (R46); the reservation ends (R37). A saved pc whose bits 1:0 are not zero is taken as it
stands (DESIGN CHOICE, log 83: no rule says what becomes of them). -/
def PCore.tret (c : PCore) : PCore :=
  let st := c.state
  let thr := { c.thr with resv := none }
  if bits st 0 2 = 2 then
    { c with thr := { thr with pc := c.tpcM },
             state := setBits (setBits (setBits st 0 2 (bits st 8 2)) 2 1 (bits st 10 1)) 8 2 0 }
  else
    { c with thr := { thr with pc := c.tpcK },
             state := setBits (setBits (setBits st 0 2 (bits st 4 2)) 2 1 (bits st 6 1)) 4 2 0 }

def execTret (u : Agent) (iw : IWord) (s : State) : Out :=
  issue u iw s (fun op => match op with | .tret => true | _ => false) (fun s1 x _ =>
    match x.u with
    | .core k =>
      let s2 := s1.retire x.u 1
      some (.next (s2.setCore k (s2.core k).tret))
    | .grp .. => some (.refused .wordsOfAnotherRow))

/-- IDLE: 1 ms of fabric time at most (R47). -/
def execIdle (u : Agent) (iw : IWord) (s : State) : Out :=
  issue u iw s (fun op => match op with | .idle => true | _ => false) (fun s1 x _ =>
    match x.u with
    | .core k =>
      let s2 := s1.next x
      some (.next (s2.setCore k { s2.core k with idle := some (s2.now + 1000000) }).wakeIdle)
    | .grp .. => some (.refused .wordsOfAnotherRow))

/-- IDLE_TIMEOUT: the wait of a core ends when its time has come (R47). -/
def execIdleTimeout (n : Nat) (s : State) : Out :=
  if n ≥ 64 then .refused .illFormed
  else match (s.core n).idle with
    | some e => if e ≤ s.now then .next (s.setCore n { s.core n with idle := none }) else .next s
    | none => .next s

/-- IPI (R47, R51). -/
def execIpi (u : Agent) (iw : IWord) (s : State) : Out :=
  issue u iw s (fun op => match op with | .ipi _ => true | _ => false) (fun s1 x op =>
    match op, x.u with
    | .ipi a, .core k =>
      let n := ((s1.core k).thr.getG a).toNat % 64
      some (.next ((s1.setCore n { s1.core n with ipi := true }).next x).wakeIdle)
    | _, _ => some (.refused .wordsOfAnotherRow))

/- TLB maintenance (R47, R248, R249). -/

/-- Entries and cached non-leaf entries that a TLBI removes. -/
def Tlb.remove (t : Tlb) (k va asid : Nat) : Tlb :=
  let onPath (w : WalkE) : Bool := w.path == va >>> lvlShift w.level
  let maps (e : TlbE) : Bool := e.vpn == va >>> e.bits
  match k with
  | 0 => {}
  | 1 => { es := t.es.filter (fun e => e.g || e.asid != asid), ws := t.ws.filter (fun w => w.asid != asid) }
  | 2 => { es := t.es.filter (fun e => !(maps e && !e.g && e.asid == asid)),
           ws := t.ws.filter (fun w => !(onPath w && w.asid == asid)) }
  | _ => { es := t.es.filter (fun e => !maps e), ws := t.ws.filter (fun w => !onPath w) }

/-- The TLBs of one processor core. -/
def State.tlbiCore (s : State) (n k va asid : Nat) : State :=
  { s with tlbs := s.tlbs.map (fun e => if e.1 / 4 = n ∧ e.1 < 256 then (e.1, e.2.remove k va asid) else e) }

/-- Every TLB of the package. -/
def State.tlbiAll (s : State) (k va asid : Nat) : State :=
  { s with tlbs := s.tlbs.map (fun e => (e.1, e.2.remove k va asid)) }

/-- A package TLBI that has taken effect, and whose accesses are complete. -/
def State.tlbiDone (s : State) (t : TlbiS) : Bool :=
  t.took && t.ops.all (fun o => !s.ops.has o) && t.sids.all (fun i => !s.sb.has i) && t.trds.all (fun i => !s.trd.has i) &&
  t.twrs.all (fun i => !s.twr.has i) && t.units.all (fun u => (s.barrierOf u).isNone)

/-- TLBI: the core's own TLBs at once; the others when the package form takes effect. -/
def beginTlbi (s : State) (x : UCtx) (k : Nat) (pkg : Bool) (a b : Nat) : Option Out :=
  match x.u with
  | .core n =>
    let t := (s.core n).thr
    let va := if k = 1 then 0 else (t.getG a).toNat
    let asid := if k = 1 then (t.getG a).toNat % 2 ^ 16 else (t.getG b).toNat % 2 ^ 16
    let s1 := s.tlbiCore n k va asid
    let s2 := if pkg then
        { s1 with ctr := { s1.ctr with tlbi := s1.ctr.tlbi + 1 },
                  tlbi := NMap.set (s1.tlbi.filter (fun e => !s1.tlbiDone e.2)) s1.ctr.tlbi { n := n, k := k, va := va, asid := asid } }
      else s1
    some (.next (s2.next x))
  | .grp .. => some (.refused .wordsOfAnotherRow)

/-- TLBI.ALL (R47). -/
def execTlbiAll (u : Agent) (iw : IWord) (s : State) : Out :=
  issue u iw s (fun op => match op with | .tlbi k .. => k = 0 | _ => false) (fun s1 x op => match op with
    | .tlbi k pkg a b => beginTlbi s1 x k pkg a b
    | _ => some (.refused .wordsOfAnotherRow))

/-- TLBI.ASID (R47). -/
def execTlbiAsid (u : Agent) (iw : IWord) (s : State) : Out :=
  issue u iw s (fun op => match op with | .tlbi k .. => k = 1 | _ => false) (fun s1 x op => match op with
    | .tlbi k pkg a b => beginTlbi s1 x k pkg a b
    | _ => some (.refused .wordsOfAnotherRow))

/-- TLBI.VA (R47). -/
def execTlbiVa (u : Agent) (iw : IWord) (s : State) : Out :=
  issue u iw s (fun op => match op with | .tlbi k .. => k = 2 | _ => false) (fun s1 x op => match op with
    | .tlbi k pkg a b => beginTlbi s1 x k pkg a b
    | _ => some (.refused .wordsOfAnotherRow))

/-- TLBI.VAA (R47). -/
def execTlbiVaa (u : Agent) (iw : IWord) (s : State) : Out :=
  issue u iw s (fun op => match op with | .tlbi k .. => k = 3 | _ => false) (fun s1 x op => match op with
    | .tlbi k pkg a b => beginTlbi s1 x k pkg a b
    | _ => some (.refused .wordsOfAnotherRow))

/-- A barrier that keeps translated accesses back. -/
def Barrier.holds (b : Barrier) : Bool := b.op.isSome || !b.stores.isEmpty

/-- Units that hold translated accesses behind a barrier. -/
def State.holding (s : State) : List Agent :=
  (s.pd.filter (fun e => match e.2.barrier with | some b => b.holds | none => false)).map (fun e => .core e.1) ++
  (s.grps.filter (fun e => match e.2.barrier with | some b => b.holds | none => false)).map (fun e => .grp (e.1 / 64) (e.1 % 64))

/-- TLBI_TAKES_EFFECT: a package TLBI removes its entries everywhere; the accesses in flight are noted (R47). -/
def execTlbiTakesEffect (id : Nat) (s : State) : Out :=
  match s.tlbi.find? id with
  | none => .next s
  | some t =>
    if t.took then .next s
    else
      let s1 := s.tlbiAll t.k t.va t.asid
      let t1 : TlbiS := { t with took := true, ops := s1.ops.map (·.1), sids := s1.sb.map (·.1), trds := s1.trd.map (·.1),
                                 twrs := s1.twr.map (·.1), units := s1.holding }
      .next { s1 with tlbi := s1.tlbi.set id t1 }

/-- TLBSYNC completes when the core's package TLBIs have taken effect and the accesses are complete; until then it does
not issue (R47). -/
def execTlbsync (u : Agent) (iw : IWord) (s : State) : Out :=
  issue u iw s (fun op => match op with | .tlbsync => true | _ => false) (fun s1 x _ =>
    match x.u with
    | .core n =>
      if s1.tlbi.all (fun e => e.2.n ≠ n || s1.tlbiDone e.2) then
        some (.next (({ s1 with tlbi := s1.tlbi.filter (fun e => e.2.n ≠ n) } : State).next x))
      else none
    | .grp .. => some (.refused .wordsOfAnotherRow))

/- Cache maintenance (R47). -/

/-- A CMO faults as a store and completes when its home has answered. -/
def beginCmo (s : State) (x : UCtx) (k : CmoKind) (a : Nat) : Option Out :=
  (s.beginOp x { need := .store, size := 1, ordered := false, excl := false } (.cmo k) (fun i => effAddr (s.thr x.u i) a 0)
    (fun _ => (0, 0)) 0 1 3 0 none).map .next

/-- CMO.CLEAN (R47). -/
def execCmoClean (u : Agent) (iw : IWord) (s : State) : Out :=
  issue u iw s (fun op => match op with | .cmo .clean _ => true | _ => false) (fun s1 x op => match op with
    | .cmo k a => beginCmo s1 x k a
    | _ => some (.refused .wordsOfAnotherRow))

/-- CMO.FLUSH (R47). -/
def execCmoFlush (u : Agent) (iw : IWord) (s : State) : Out :=
  issue u iw s (fun op => match op with | .cmo .flush _ => true | _ => false) (fun s1 x op => match op with
    | .cmo k a => beginCmo s1 x k a
    | _ => some (.refused .wordsOfAnotherRow))

/-- CMO.INVAL (R47). -/
def execCmoInval (u : Agent) (iw : IWord) (s : State) : Out :=
  issue u iw s (fun op => match op with | .cmo .inval _ => true | _ => false) (fun s1 x op => match op with
    | .cmo k a => beginCmo s1 x k a
    | _ => some (.refused .wordsOfAnotherRow))

/- Interrupts (R51). -/

/-- A core stands at an instruction boundary. -/
def State.atBoundary (s : State) (u : Agent) : Bool :=
  s.pwr.phase == .on && match u with
    | .core n => let c := s.core n; !c.held && !c.halted && c.op.isNone && c.barrier.isNone
    | .grp c slot => match s.grp c slot with | some g => g.op.isNone && g.barrier.isNone && !(s.coreS c).halted | none => false

/-- INTERRUPT_TAKEN: a pending enabled interrupt is taken at K, from U or from K with IE = 1; which one of several is
open, and so is the value of sys.tinfo_k (R45, R51). -/
def execInterruptTaken (n : Nat) (s : State) : Out :=
  if n ≥ 64 then .refused .illFormed
  else
    let c := s.core n
    let lvl := s.lvl n
    let on := s.irqOn n
    if on.isEmpty || !s.atBoundary (.core n) || !c.serr.isEmpty || !(lvl == 0 || (lvl == 1 && bit c.state 2)) then .next s
    else
      let (k, s1) := s.stamp
      let i := at' on 0 ((Config.freeWord k).toNat % on.length)
      .next (s1.setCore n ({ c with idle := none }.enter false (BitVec.ofNat 64 (i + 1 + 2 ^ 16)) (Config.freeWord (k + 2 ^ 32))))

/-- ALARM_REACHED: the timer interrupt is pending, and an IDLE wait that it ends is over (R51). -/
def execAlarmReached (n : Nat) (s : State) : Out :=
  if n ≥ 64 then .refused .illFormed
  else if (s.core n).alarm.toNat ≤ s.now then .next s.wakeIdle else .next s

/- Answers (R220, R234 to R236). -/

/-- LOAD_RESPONSE (R220); the answer of a register access names its byte address. -/
def execLoadResponse (tag line : Nat) (data : Line) (poison err : Bool) (s : State) : Out :=
  let s1 := s.took (fun m => match m with | .load t l _ _ _ => t == tag && l == line | _ => false)
  if isMmio line then .next (s1.answerMmio tag line (lineBytes data 0 8) err)
  else .next (s1.answerLine tag line data poison err)

/-- STORE_RESPONSE (R234). -/
def execStoreResponse (sid : Nat) (err : Bool) (s : State) : Out :=
  let s1 := s.took (fun m => match m with | .stor i _ => i == sid | _ => false)
  .next (if err then s1.sbFail sid else s1.sbRemove sid)

/-- STORE_BUS_ERROR: the recorded error is taken at the next boundary (R235). -/
def execStoreBusError (u : Agent) (s : State) : Out :=
  if !u.wf then .refused .illFormed
  else if !s.atBoundary u then .next s
  else match u with
  | .core n =>
    let c := s.core n
    (match c.serr with
     | [] => .next s
     | e :: _ => .next ((s.setCore n { c with serr := [], idle := none }).trap n 8 0 (BitVec.ofNat 64 e.va)))
  | .grp c slot =>
    (match s.grp c slot with
     | none => .next s
     | some g => match g.serr with
       | [] => .next s
       | e :: _ => .next (s.groupFault c slot e.lane 8 e.va e.pc.toNat 16 e.leaf.1 e.leaf.2))

/-- WRITE_RESPONSE_TIMEOUT: a store has waited for its bound and ends with a bus error (R234); WTOCNT counts those that HD
answers for (R240). -/
def execWriteResponseTimeout (sid : Nat) (s : State) : Out :=
  match s.sb.find? sid with
  | none => .next s
  | some e =>
    if e.sent && e.mem != CmpMem.cached && e.mem != CmpMem.nc && e.since + e.bound ≤ s.now then
      let s1 := { s with fab := { s.fab with rem := s.fab.rem.filter (fun r => r.w ≠ Who.store sid) } }
      let hd : Bool := e.mem != CmpMem.mmio || (mdResponds e.u e.line).isNone
      .next ((if hd then s1.incFld .ordStatus 0 0 8 16 else s1).sbFail sid)
    else .next s

end Sys2Proof.Machine
end

