-- ==== Sys2Proof/Machine/Dispatch.lean ====
section
/-! DEFINITION. One arm per command: a direct call of its meaning. -/

namespace Sys2Proof.Machine

def exec (i : Instr) (s : State) : Host.Outcome State Fault Refusal :=
  match i with
  | .addSubAndOrXorAndn u iw => Sys2Proof.Machine.execAddSubAndOrXorAndn u iw s
  | .sllSrlSraRor u iw => Sys2Proof.Machine.execSllSrlSraRor u iw s
  | .minMaxMinuMaxu u iw => Sys2Proof.Machine.execMinMaxMinuMaxu u iw s
  | .mulMulhMulhu u iw => Sys2Proof.Machine.execMulMulhMulhu u iw s
  | .divDivuRemRemu u iw => Sys2Proof.Machine.execDivDivuRemRemu u iw s
  | .wordOps u iw => Sys2Proof.Machine.execWordOps u iw s
  | .clzCtzPopcRev8 u iw => Sys2Proof.Machine.execClzCtzPopcRev8 u iw s
  | .sel u iw => Sys2Proof.Machine.execSel u iw s
  | .ptog u iw => Sys2Proof.Machine.execPtog u iw s
  | .gtop u iw => Sys2Proof.Machine.execGtop u iw s
  | .addiAndiOriXori u iw => Sys2Proof.Machine.execAddiAndiOriXori u iw s
  | .shi u iw => Sys2Proof.Machine.execShi u iw s
  | .li u iw => Sys2Proof.Machine.execLi u iw s
  | .lih u iw => Sys2Proof.Machine.execLih u iw s
  | .addpc u iw => Sys2Proof.Machine.execAddpc u iw s
  | .addiW u iw => Sys2Proof.Machine.execAddiW u iw s
  | .cmp u iw => Sys2Proof.Machine.execCmp u iw s
  | .cmpi u iw => Sys2Proof.Machine.execCmpi u iw s
  | .plog u iw => Sys2Proof.Machine.execPlog u iw s
  | .faddFsubFmulFdiv u iw => Sys2Proof.Machine.execFaddFsubFmulFdiv u iw s
  | .fsqrt u iw => Sys2Proof.Machine.execFsqrt u iw s
  | .fminFmax u iw => Sys2Proof.Machine.execFminFmax u iw s
  | .fsign u iw => Sys2Proof.Machine.execFsign u iw s
  | .fwidenFnarrow u iw => Sys2Proof.Machine.execFwidenFnarrow u iw s
  | .ftoiFtou u iw => Sys2Proof.Machine.execFtoiFtou u iw s
  | .itofUtof u iw => Sys2Proof.Machine.execItofUtof u iw s
  | .movfgMovgf u iw => Sys2Proof.Machine.execMovfgMovgf u iw s
  | .fkind u iw => Sys2Proof.Machine.execFkind u iw s
  | .fmaFnma u iw => Sys2Proof.Machine.execFmaFnma u iw s
  | .fmsFnms u iw => Sys2Proof.Machine.execFmsFnms u iw s
  | .fcmp u iw => Sys2Proof.Machine.execFcmp u iw s
  | .ld u iw => Sys2Proof.Machine.execLd u iw s
  | .lds u iw => Sys2Proof.Machine.execLds u iw s
  | .st u iw => Sys2Proof.Machine.execSt u iw s
  | .fld u iw => Sys2Proof.Machine.execFld u iw s
  | .fst u iw => Sys2Proof.Machine.execFst u iw s
  | .orderedLoad u iw => Sys2Proof.Machine.execOrderedLoad u iw s
  | .orderedStore u iw => Sys2Proof.Machine.execOrderedStore u iw s
  | .amoAddAndOrXor u iw => Sys2Proof.Machine.execAmoAddAndOrXor u iw s
  | .amoSwapCasMinMax u iw => Sys2Proof.Machine.execAmoSwapCasMinMax u iw s
  | .amoMinuMaxuFadd u iw => Sys2Proof.Machine.execAmoMinuMaxuFadd u iw s
  | .llD u iw => Sys2Proof.Machine.execLlD u iw s
  | .scD u iw => Sys2Proof.Machine.execScD u iw s
  | .fence u iw => Sys2Proof.Machine.execFence u iw s
  | .fenceAcq u iw => Sys2Proof.Machine.execFenceAcq u iw s
  | .fenceRel u iw => Sys2Proof.Machine.execFenceRel u iw s
  | .fenceIo u iw => Sys2Proof.Machine.execFenceIo u iw s
  | .fenceI u iw => Sys2Proof.Machine.execFenceI u iw s
  | .pfR u iw => Sys2Proof.Machine.execPfR u iw s
  | .pfW u iw => Sys2Proof.Machine.execPfW u iw s
  | .zeroL u iw => Sys2Proof.Machine.execZeroL u iw s
  | .brBrn u iw => Sys2Proof.Machine.execBrBrn u iw s
  | .jal u iw => Sys2Proof.Machine.execJal u iw s
  | .jalr u iw => Sys2Proof.Machine.execJalr u iw s
  | .upcall u iw => Sys2Proof.Machine.execUpcall u iw s
  | .dbgtrap u iw => Sys2Proof.Machine.execDbgtrap u iw s
  | .rdclk u iw => Sys2Proof.Machine.execRdclk u iw s
  | .rdft u iw => Sys2Proof.Machine.execRdft u iw s
  | .rdfpc u iw => Sys2Proof.Machine.execRdfpc u iw s
  | .wrfpc u iw => Sys2Proof.Machine.execWrfpc u iw s
  | .pause u iw => Sys2Proof.Machine.execPause u iw s
  | .mfsys u iw => Sys2Proof.Machine.execMfsys u iw s
  | .mtsys u iw => Sys2Proof.Machine.execMtsys u iw s
  | .tret u iw => Sys2Proof.Machine.execTret u iw s
  | .idle u iw => Sys2Proof.Machine.execIdle u iw s
  | .idleTimeout n => Sys2Proof.Machine.execIdleTimeout n s
  | .ipi u iw => Sys2Proof.Machine.execIpi u iw s
  | .tlbsync u iw => Sys2Proof.Machine.execTlbsync u iw s
  | .tlbiAll u iw => Sys2Proof.Machine.execTlbiAll u iw s
  | .tlbiAsid u iw => Sys2Proof.Machine.execTlbiAsid u iw s
  | .tlbiVa u iw => Sys2Proof.Machine.execTlbiVa u iw s
  | .tlbiVaa u iw => Sys2Proof.Machine.execTlbiVaa u iw s
  | .cmoClean u iw => Sys2Proof.Machine.execCmoClean u iw s
  | .cmoFlush u iw => Sys2Proof.Machine.execCmoFlush u iw s
  | .cmoInval u iw => Sys2Proof.Machine.execCmoInval u iw s
  | .interruptTaken n => Sys2Proof.Machine.execInterruptTaken n s
  | .alarmReached n => Sys2Proof.Machine.execAlarmReached n s
  | .loadResponse tag line data poison err => Sys2Proof.Machine.execLoadResponse tag line data poison err s
  | .storeResponse sid err => Sys2Proof.Machine.execStoreResponse sid err s
  | .storeBusError u => Sys2Proof.Machine.execStoreBusError u s
  | .writeResponseTimeout sid => Sys2Proof.Machine.execWriteResponseTimeout sid s
  | .xlR u iw => Sys2Proof.Machine.execXlR u iw s
  | .xlFwd u iw => Sys2Proof.Machine.execXlFwd u iw s
  | .xlBwd u iw => Sys2Proof.Machine.execXlBwd u iw s
  | .xlFlip u iw => Sys2Proof.Machine.execXlFlip u iw s
  | .xlBcst u iw => Sys2Proof.Machine.execXlBcst u iw s
  | .lvAll u iw => Sys2Proof.Machine.execLvAll u iw s
  | .lvAny u iw => Sys2Proof.Machine.execLvAny u iw s
  | .lvMask u iw => Sys2Proof.Machine.execLvMask u iw s
  | .lvLive u iw => Sys2Proof.Machine.execLvLive u iw s
  | .lvFirst u iw => Sys2Proof.Machine.execLvFirst u iw s
  | .lvCount u iw => Sys2Proof.Machine.execLvCount u iw s
  | .fold u iw => Sys2Proof.Machine.execFold u iw s
  | .gbar u iw => Sys2Proof.Machine.execGbar u iw s
  | .tbar u iw => Sys2Proof.Machine.execTbar u iw s
  | .mldS u iw ecc => Sys2Proof.Machine.execMldS u iw ecc s
  | .mma u iw ecc => Sys2Proof.Machine.execMma u iw ecc s
  | .mmaN u iw ecc => Sys2Proof.Machine.execMmaN u iw ecc s
  | .mst u iw ecc => Sys2Proof.Machine.execMst u iw ecc s
  | .schStart u iw => Sys2Proof.Machine.execSchStart u iw s
  | .schPost u iw => Sys2Proof.Machine.execSchPost u iw s
  | .schWait u iw => Sys2Proof.Machine.execSchWait u iw s
  | .tfence u iw => Sys2Proof.Machine.execTfence u iw s
  | .tsRd u iw => Sys2Proof.Machine.execTsRd u iw s
  | .tsWr u iw => Sys2Proof.Machine.execTsWr u iw s
  | .schStat u iw => Sys2Proof.Machine.execSchStat u iw s
  | .cdDqDoorbell iss q size value => Sys2Proof.Machine.execCdDqDoorbell iss q size value s
  | .emptySlotReread q => Sys2Proof.Machine.execEmptySlotReread q s
  | .packetConsume q => Sys2Proof.Machine.execPacketConsume q s
  | .teamStart c => Sys2Proof.Machine.execTeamStart c s
  | .packetCompletion q pkt => Sys2Proof.Machine.execPacketCompletion q pkt s
  | .queueDisableCancel q => Sys2Proof.Machine.execQueueDisableCancel q s
  | .coreDisableCancel c => Sys2Proof.Machine.execCoreDisableCancel c s
  | .descriptorDecode c ch => Sys2Proof.Machine.execDescriptorDecode c ch s
  | .descriptorFetchError c ch poison => Sys2Proof.Machine.execDescriptorFetchError c ch poison s
  | .tileReadIssue c ch => Sys2Proof.Machine.execTileReadIssue c ch s
  | .tileLineArrival id ln data poison fail => Sys2Proof.Machine.execTileLineArrival id ln data poison fail s
  | .tileDeadlineExpiry c slot => Sys2Proof.Machine.execTileDeadlineExpiry c slot s
  | .tileWriteIssue c ch => Sys2Proof.Machine.execTileWriteIssue c ch s
  | .tileWriteAccept id ln fail => Sys2Proof.Machine.execTileWriteAccept id ln fail s
  | .signal c ch => Sys2Proof.Machine.execSignal c ch s
  | .wait c ch => Sys2Proof.Machine.execWait c ch s
  | .tfenceDescriptor c ch => Sys2Proof.Machine.execTfenceDescriptor c ch s
  | .endComplete c ch => Sys2Proof.Machine.execEndComplete c ch s
  | .gatherLookup c ch => Sys2Proof.Machine.execGatherLookup c ch s
  | .lookupResponse c ch => Sys2Proof.Machine.execLookupResponse c ch s
  | .sload c ch => Sys2Proof.Machine.execSload c ch s
  | .swap c ch => Sys2Proof.Machine.execSwap c ch s
  | .west c ch ecc => Sys2Proof.Machine.execWest c ch ecc s
  | .north c ch ecc => Sys2Proof.Machine.execNorth c ch ecc s
  | .drain c ch ecc => Sys2Proof.Machine.execDrain c ch ecc s
  | .smax c ch ecc => Sys2Proof.Machine.execSmax c ch ecc s
  | .norm c ch ecc => Sys2Proof.Machine.execNorm c ch ecc s
  | .smreset c ch => Sys2Proof.Machine.execSmreset c ch s
  | .slimit c ch => Sys2Proof.Machine.execSlimit c ch s
  | .bind c ch => Sys2Proof.Machine.execBind c ch s
  | .unbind c ch => Sys2Proof.Machine.execUnbind c ch s
  | .engineOpComplete e => Sys2Proof.Machine.execEngineOpComplete e s
  | .cdMxSeedWrite iss e size value => Sys2Proof.Machine.execCdMxSeedWrite iss e size value s
  | .seqCreate mb => Sys2Proof.Machine.execSeqCreate mb s
  | .seqExtend mb => Sys2Proof.Machine.execSeqExtend mb s
  | .seqTrim mb => Sys2Proof.Machine.execSeqTrim mb s
  | .seqMigrate mb => Sys2Proof.Machine.execSeqMigrate mb s
  | .seqRelayout mb => Sys2Proof.Machine.execSeqRelayout mb s
  | .seqRetire mb => Sys2Proof.Machine.execSeqRetire mb s
  | .seqQuery mb => Sys2Proof.Machine.execSeqQuery mb s
  | .relayoutLineCopy ctx => Sys2Proof.Machine.execRelayoutLineCopy ctx s
  | .evSeqRelayoutDone ctx => Sys2Proof.Machine.execEvSeqRelayoutDone ctx s
  | .migrateInstall ctx => Sys2Proof.Machine.execMigrateInstall ctx s
  | .seqBtcFlush iss m => Sys2Proof.Machine.execSeqBtcFlush iss m s
  | .memCopy mb => Sys2Proof.Machine.execMemCopy mb s
  | .memAdvise mb => Sys2Proof.Machine.execMemAdvise mb s
  | .memSplitSet mb flashOk => Sys2Proof.Machine.execMemSplitSet mb flashOk s
  | .dataMoverLine data poison fail => Sys2Proof.Machine.execDataMoverLine data poison fail s
  | .patrolScrub m ecc => Sys2Proof.Machine.execPatrolScrub m ecc s
  | .memoryTraining unit ok slow repairs => Sys2Proof.Machine.execMemoryTraining unit ok slow repairs s
  | .mdMscFlush iss m => Sys2Proof.Machine.execMdMscFlush iss m s
  | .mdMscUnkeep iss m => Sys2Proof.Machine.execMdMscUnkeep iss m s
  | .cacheLoad tag line victim ecc => Sys2Proof.Machine.execCacheLoad tag line victim ecc s
  | .cacheStore sid victim ecc => Sys2Proof.Machine.execCacheStore sid victim ecc s
  | .rds a line => Sys2Proof.Machine.execRds a line s
  | .rdx a line => Sys2Proof.Machine.execRdx a line s
  | .upg a line => Sys2Proof.Machine.execUpg a line s
  | .wbd a line data poison => Sys2Proof.Machine.execWbd a line data poison s
  | .evc a line => Sys2Proof.Machine.execEvc a line s
  | .cmpack a line => Sys2Proof.Machine.execCmpack a line s
  | .rdnc w line hint => Sys2Proof.Machine.execRdnc w line hint s
  | .wrnc w line mask data poison hint => Sys2Proof.Machine.execWrnc w line mask data poison hint s
  | .atmh w line => Sys2Proof.Machine.execAtmh w line s
  | .cmoMessage n kind line => Sys2Proof.Machine.execCmoMessage n kind line s
  | .homeMemoryData line ecc => Sys2Proof.Machine.execHomeMemoryData line ecc s
  | .rspsRspi a line toI => Sys2Proof.Machine.execRspsRspi a line toI s
  | .rspsdRspid a line toI data poison => Sys2Proof.Machine.execRspsdRspid a line toI data poison s
  | .snps a line => Sys2Proof.Machine.execSnps a line s
  | .snpx a line => Sys2Proof.Machine.execSnpx a line s
  | .snpi a line => Sys2Proof.Machine.execSnpi a line s
  | .gntsGnte a line excl data poison => Sys2Proof.Machine.execGntsGnte a line excl data poison s
  | .gntm a line data poison => Sys2Proof.Machine.execGntm a line data poison s
  | .gntupg a line => Sys2Proof.Machine.execGntupg a line s
  | .gntwbGntev a line => Sys2Proof.Machine.execGntwbGntev a line s
  | .datncCmpnc w line data poison => Sys2Proof.Machine.execDatncCmpnc w line data poison s
  | .homeTimeout line a => Sys2Proof.Machine.execHomeTimeout line a s
  | .lostOwnerWalk m => Sys2Proof.Machine.execLostOwnerWalk m s
  | .cdCcFlush iss k => Sys2Proof.Machine.execCdCcFlush iss k s
  | .dieResetWritebackTimeout d => Sys2Proof.Machine.execDieResetWritebackTimeout d s
  | .cdFqRespRetry iss d token => Sys2Proof.Machine.execCdFqRespRetry iss d token s
  | .cdFqRespEnd iss d token => Sys2Proof.Machine.execCdFqRespEnd iss d token s
  | .cdFqRespFault iss d token => Sys2Proof.Machine.execCdFqRespFault iss d token s
  | .cdFqRidxWrite iss d size value => Sys2Proof.Machine.execCdFqRidxWrite iss d size value s
  | .fqRetryTimer r => Sys2Proof.Machine.execFqRetryTimer r s
  | .faultDeadlineExpiry r => Sys2Proof.Machine.execFaultDeadlineExpiry r s
  | .flitReceive e body crc => Sys2Proof.Machine.execFlitReceive e body crc s
  | .ackTimeout e => Sys2Proof.Machine.execAckTimeout e s
  | .linkTrainingAttempt e good pgood agree repairs => Sys2Proof.Machine.execLinkTrainingAttempt e good pgood agree repairs s
  | .lnkCtrlRetrain iss e => Sys2Proof.Machine.execLnkCtrlRetrain iss e s
  | .fwGrantIn mb => Sys2Proof.Machine.execFwGrantIn mb s
  | .fwGrantOut mb => Sys2Proof.Machine.execFwGrantOut mb s
  | .fwGrantCmd mb => Sys2Proof.Machine.execFwGrantCmd mb s
  | .fwRevoke mb => Sys2Proof.Machine.execFwRevoke mb s
  | .auxInboundAccess k addr size value => Sys2Proof.Machine.execAuxInboundAccess k addr size value s
  | .auxBringup id => Sys2Proof.Machine.execAuxBringup id s
  | .auxUcieLinkDown => Sys2Proof.Machine.execAuxUcieLinkDown s
  | .colPortTraining p ok => Sys2Proof.Machine.execColPortTraining p ok s
  | .colFrameReceive p fl fecOk => Sys2Proof.Machine.execColFrameReceive p fl fecOk s
  | .hello p h => Sys2Proof.Machine.execHello p h s
  | .helloTimer p => Sys2Proof.Machine.execHelloTimer p s
  | .heartbeatTimer p => Sys2Proof.Machine.execHeartbeatTimer p s
  | .heartbeatReceive p h => Sys2Proof.Machine.execHeartbeatReceive p h s
  | .heartbeatMiss p => Sys2Proof.Machine.execHeartbeatMiss p s
  | .lossOfLight p => Sys2Proof.Machine.execLossOfLight p s
  | .probe p k => Sys2Proof.Machine.execProbe p k s
  | .probeReply p => Sys2Proof.Machine.execProbeReply p s
  | .probeTimeout p => Sys2Proof.Machine.execProbeTimeout p s
  | .deadNotice d => Sys2Proof.Machine.execDeadNotice d s
  | .packetReceive p k => Sys2Proof.Machine.execPacketReceive p k s
  | .fabricRemoteRequest k => Sys2Proof.Machine.execFabricRemoteRequest k s
  | .fabricResponse k => Sys2Proof.Machine.execFabricResponse k s
  | .timePacket p prio serial hops => Sys2Proof.Machine.execTimePacket p prio serial hops s
  | .fabricTimeLock count => Sys2Proof.Machine.execFabricTimeLock count s
  | .holdoverTimeout => Sys2Proof.Machine.execHoldoverTimeout s
  | .rtBankFlip => Sys2Proof.Machine.execRtBankFlip s
  | .bankHeldExpiry => Sys2Proof.Machine.execBankHeldExpiry s
  | .fabConfig mb flashOk => Sys2Proof.Machine.execFabConfig mb flashOk s
  | .fabRtWrite mb => Sys2Proof.Machine.execFabRtWrite mb s
  | .fabRtSwitch mb => Sys2Proof.Machine.execFabRtSwitch mb s
  | .fabPortDisable mb => Sys2Proof.Machine.execFabPortDisable mb s
  | .fabPortEnable mb => Sys2Proof.Machine.execFabPortEnable mb s
  | .fabPortDrainEnd p => Sys2Proof.Machine.execFabPortDrainEnd p s
  | .fabCgCreate mb => Sys2Proof.Machine.execFabCgCreate mb s
  | .fabCgDestroy mb => Sys2Proof.Machine.execFabCgDestroy mb s
  | .fabCgDoorbell iss g size value => Sys2Proof.Machine.execFabCgDoorbell iss g size value s
  | .collectiveStart g => Sys2Proof.Machine.execCollectiveStart g s
  | .collectiveData k => Sys2Proof.Machine.execCollectiveData k s
  | .collectiveDeadline g => Sys2Proof.Machine.execCollectiveDeadline g s
  | .collectiveCompletion g => Sys2Proof.Machine.execCollectiveCompletion g s
  | .wsSample => Sys2Proof.Machine.execWsSample s
  | .wsSnapshot mb => Sys2Proof.Machine.execWsSnapshot mb s
  | .snapshotStart => Sys2Proof.Machine.execSnapshotStart s
  | .snapshotCommit => Sys2Proof.Machine.execSnapshotCommit s
  | .wsCgExport mb => Sys2Proof.Machine.execWsCgExport mb s
  | .wsCgImport mb => Sys2Proof.Machine.execWsCgImport mb s
  | .mbDoorbell iss mb size value => Sys2Proof.Machine.execMbDoorbell iss mb size value s
  | .mbCommandComplete mb => Sys2Proof.Machine.execMbCommandComplete mb s
  | .remoteCommandReceive k => Sys2Proof.Machine.execRemoteCommandReceive k s
  | .remoteAnswer k => Sys2Proof.Machine.execRemoteAnswer k s
  | .remoteCommandTimeout mb => Sys2Proof.Machine.execRemoteCommandTimeout mb s
  | .sysNop mb => Sys2Proof.Machine.execSysNop mb s
  | .sysInfo mb => Sys2Proof.Machine.execSysInfo mb s
  | .sysDelegate mb => Sys2Proof.Machine.execSysDelegate mb s
  | .sysEvrConfig mb => Sys2Proof.Machine.execSysEvrConfig mb s
  | .sysEvFetch mb => Sys2Proof.Machine.execSysEvFetch mb s
  | .sysReset mb => Sys2Proof.Machine.execSysReset mb s
  | .resetComplete d => Sys2Proof.Machine.execResetComplete d s
  | .dqCreate mb => Sys2Proof.Machine.execDqCreate mb s
  | .dqDisable mb => Sys2Proof.Machine.execDqDisable mb s
  | .dqEnable mb => Sys2Proof.Machine.execDqEnable mb s
  | .dqDestroy mb => Sys2Proof.Machine.execDqDestroy mb s
  | .dqQuery mb => Sys2Proof.Machine.execDqQuery mb s
  | .dqCoreDisable mb => Sys2Proof.Machine.execDqCoreDisable mb s
  | .dqCoreEnable mb => Sys2Proof.Machine.execDqCoreEnable mb s
  | .telRead mb => Sys2Proof.Machine.execTelRead mb s
  | .telAlertSet mb => Sys2Proof.Machine.execTelAlertSet mb s
  | .sensorRefresh id value => Sys2Proof.Machine.execSensorRefresh id value s
  | .telAlertCheck => Sys2Proof.Machine.execTelAlertCheck s
  | .dbgAttach mb => Sys2Proof.Machine.execDbgAttach mb s
  | .dbgHalt mb => Sys2Proof.Machine.execDbgHalt mb s
  | .dbgResume mb => Sys2Proof.Machine.execDbgResume mb s
  | .dbgRead mb => Sys2Proof.Machine.execDbgRead mb s
  | .dbgWrite mb => Sys2Proof.Machine.execDbgWrite mb s
  | .hdEvrRidxWrite iss r size value => Sys2Proof.Machine.execHdEvrRidxWrite iss r size value s
  | .pdDqintPendClear iss n size value => Sys2Proof.Machine.execPdDqintPendClear iss n size value s
  | .cpWatchdogRestart cause => Sys2Proof.Machine.execCpWatchdogRestart cause s
  | .cpRestartEnd => Sys2Proof.Machine.execCpRestartEnd s
  | .cpReady => Sys2Proof.Machine.execCpReady s
  | .pwrState mb => Sys2Proof.Machine.execPwrState mb s
  | .pwrCap mb => Sys2Proof.Machine.execPwrCap mb s
  | .pwrSlew mb => Sys2Proof.Machine.execPwrSlew mb s
  | .pwrLevelDraw mb => Sys2Proof.Machine.execPwrLevelDraw mb s
  | .pwrQuery mb => Sys2Proof.Machine.execPwrQuery mb s
  | .pwrSettingEffect => Sys2Proof.Machine.execPwrSettingEffect s
  | .powerSample current mw idle => Sys2Proof.Machine.execPowerSample current mw idle s
  | .sagStart mv => Sys2Proof.Machine.execSagStart mv s
  | .sagEnd => Sys2Proof.Machine.execSagEnd s
  | .sagTimeout => Sys2Proof.Machine.execSagTimeout s
  | .surgeStart mv => Sys2Proof.Machine.execSurgeStart mv s
  | .surgeEnd => Sys2Proof.Machine.execSurgeEnd s
  | .surgeTimeout mv => Sys2Proof.Machine.execSurgeTimeout mv s
  | .inputUndervoltage mv => Sys2Proof.Machine.execInputUndervoltage mv s
  | .inputCollapse mv => Sys2Proof.Machine.execInputCollapse mv s
  | .powerDownResume mv => Sys2Proof.Machine.execPowerDownResume mv s
  | .coldRampEnd => Sys2Proof.Machine.execColdRampEnd s
  | .thermalThrottleStep id => Sys2Proof.Machine.execThermalThrottleStep id s
  | .thermalShutdown id => Sys2Proof.Machine.execThermalShutdown id s
  | .regulatorStress die => Sys2Proof.Machine.execRegulatorStress die s
  | .refclkLoss => Sys2Proof.Machine.execRefclkLoss s
  | .powerUp mv refclk => Sys2Proof.Machine.execPowerUp mv refclk s
  | .bootStep ok => Sys2Proof.Machine.execBootStep ok s
  | .resetNAssert => Sys2Proof.Machine.execResetNAssert s
  | .perstChange n level => Sys2Proof.Machine.execPerstChange n level s
  | .secFwStage mb => Sys2Proof.Machine.execSecFwStage mb s
  | .secFwChunk mb => Sys2Proof.Machine.execSecFwChunk mb s
  | .stageVerifyDone => Sys2Proof.Machine.execStageVerifyDone s
  | .stageAbandon => Sys2Proof.Machine.execStageAbandon s
  | .secFwActivate mb flashOk => Sys2Proof.Machine.execSecFwActivate mb flashOk s
  | .secAttestCreate mb flashOk => Sys2Proof.Machine.execSecAttestCreate mb flashOk s
  | .secAttestRead mb => Sys2Proof.Machine.execSecAttestRead mb s
  | .secAttestPubkey mb => Sys2Proof.Machine.execSecAttestPubkey mb s
  | .secIdRead mb => Sys2Proof.Machine.execSecIdRead mb s
  | .pcieMemoryRead n bar addr len => Sys2Proof.Machine.execPcieMemoryRead n bar addr len s
  | .pcieMemoryWrite n bar addr data attr => Sys2Proof.Machine.execPcieMemoryWrite n bar addr data attr s
  | .pcieAtomicop n k addr wide op1 op2 => Sys2Proof.Machine.execPcieAtomicop n k addr wide op1 op2 s
  | .pcieLinkDown n => Sys2Proof.Machine.execPcieLinkDown n s
  | .pciPortDisable iss n => Sys2Proof.Machine.execPciPortDisable iss n s
  | .pciPortEnable iss n => Sys2Proof.Machine.execPciPortEnable iss n s
  | .pcieDrainEnd n => Sys2Proof.Machine.execPcieDrainEnd n s
  | .i3cPrivateWrite b => Sys2Proof.Machine.execI3cPrivateWrite b s
  | .i3cPrivateRead n => Sys2Proof.Machine.execI3cPrivateRead n s
  | .i3cCcc k arg => Sys2Proof.Machine.execI3cCcc k arg s
  | .jtagMbaccess dr => Sys2Proof.Machine.execJtagMbaccess dr s
  | .pmuDumpTick => Sys2Proof.Machine.execPmuDumpTick s
  | .dumpComplete => Sys2Proof.Machine.execDumpComplete s
  | .pmuCounterWrite iss unit idx size value events => Sys2Proof.Machine.execPmuCounterWrite iss unit idx size value events s
  | .hdMonClear iss mon => Sys2Proof.Machine.execHdMonClear iss mon s
  | .registerWrite iss addr size value => Sys2Proof.Machine.execRegisterWrite iss addr size value s
  | .registerReadClear iss addr size => Sys2Proof.Machine.execRegisterReadClear iss addr size s
  | .lightDetected p => Sys2Proof.Machine.execLightDetected p s
  | .fwRevokeCancel kind slot => Sys2Proof.Machine.execFwRevokeCancel kind slot s
  | .standInDeadline g shard => Sys2Proof.Machine.execStandInDeadline g shard s
  | .fabricRequestTimeout tag => Sys2Proof.Machine.execFabricRequestTimeout tag s
  | .completionTimeout w line => Sys2Proof.Machine.execCompletionTimeout w line s
  | .pcieLinkUp n gen width flit => Sys2Proof.Machine.execPcieLinkUp n gen width flit s
  | .perstRelease n => Sys2Proof.Machine.execPerstRelease n s
  | .auxEventPost code payload => Sys2Proof.Machine.execAuxEventPost code payload s
  | .monitorSample => Sys2Proof.Machine.execMonitorSample s
  | .tlbiTakesEffect id => Sys2Proof.Machine.execTlbiTakesEffect id s

end Sys2Proof.Machine
end

