-- ==== Sys2Proof/Safety.lean ====
section
/-! DEFINITION. What counts as a safe step, the invariant of the memory arrays, and the terms in which statements about
instructions speak. -/

namespace Sys2Proof

/-- The step neither faults nor is refused. -/
def Safe (o : Host.Outcome Machine.State Machine.Fault Machine.Refusal) : Prop := ∃ s, o = .next s

/-- The arrays are in canonical form: addresses strictly rising, no zero byte listed. -/
def MemInv (s : Machine.State) : Prop := Machine.Memory.wf s.mem = true

/- The terms in which statements about instructions speak. -/

open Sys2Proof.Machine

/-- A scalar result: every active lane's thread becomes `f` of itself, a write of floating registers ends a group's
binding over them, and the unit moves past the instruction. -/
def scalarDone (s2 : State) (x : UCtx) (f : Thr → Thr) (fr : List Nat) : State := ((s2.mapThr x f).noteF x.u fr).next x

/-- PD's cache holds the line of an address for reading, not poisoned (R194, R196, R201). -/
def HeldPd (s : State) (a : Nat) : Prop := (s.cline 64 (a / 128)).st.readable = true ∧ (s.cline 64 (a / 128)).poison = false

/-- A processor core at level M, where addresses are physical, stands at an instruction in local memory whose lines PD's cache
holds; it counts nothing, tags nothing, and holds no reservation. -/
def CoreAt (s : State) (n : Nat) (iw : IWord) (op : Op) : Prop :=
  s.pwr.phase = .on ∧ n < 64 ∧ iwordWf iw = true ∧ (decodeI iw).op = some op ∧ op.part ≠ .g ∧
  (s.core n).held = false ∧ (s.core n).halted = false ∧ (s.core n).idle = none ∧ (s.core n).barrier = none ∧
  (s.core n).op = none ∧ (s.core n).serr = [] ∧ s.lvl n = 2 ∧ guardTrue (s.core n).thr (decodeI iw) = true ∧
  (s.core n).thr.resv = none ∧ (s.core n).tagged = none ∧ s.fld .pmuTag (512 + n) 0 0 1 = 0 ∧ s.pmuOn (512 + n) = false ∧
  s.memOk = true ∧ (s.core n).far = [] ∧ isLocal (s.core n).thr.pc.toNat = true ∧ HeldPd s (s.core n).thr.pc.toNat ∧
  ((decodeI iw).len = 8 → isLocal ((s.core n).thr.pc.toNat + 4) = true ∧ HeldPd s ((s.core n).thr.pc.toNat + 4))

/-- The core's thread becomes t and its pc moves past the instruction; nothing else changes. -/
def coreDone (s : State) (n : Nat) (iw : IWord) (t : Thr) : State :=
  s.setCore n { s.core n with thr := { t with pc := (s.core n).thr.pc + BitVec.ofNat 64 (decodeI iw).len } }

/-- The command answers a next state, and P holds of it. -/
def Runs (c : Instr) (s : State) (P : State → Prop) : Prop := ∃ t, exec c s = .next t ∧ P t

/-- A mailbox holds a command in progress that has no answer yet and may run: its opcode is op, the mailbox may issue it
(R333), its flags are zero, and its bytes outside the listed fields are zero (R328). -/
def Ready (s : State) (mb op : Nat) (fields : List (Nat × Nat)) : Prop :=
  mb < 8 ∧ (s.mbox mb).busy = true ∧ (s.mbox mb).held = false ∧ (s.mbox mb).waiting = false ∧ (s.mbox mb).res = none ∧
  (s.mbox mb).remote = none ∧ (s.mbox mb).opcode = op ∧ s.mayRun mb op = true ∧ (s.mbox mb).flags = 0 ∧
  (s.mbox mb).clean fields = true

/-- The result of mailbox mb's command is known: status and response, which MB_COMMAND_COMPLETE writes. -/
def answer (s : State) (mb st : Nat) (resp : List Byte := []) : State :=
  s.setMbox mb { s.mbox mb with res := some (st, padTo 64 resp), waiting := false }

/-- The command goes on, and its answer comes later. -/
def later (s : State) (mb : Nat) : State := s.setMbox mb { s.mbox mb with waiting := true }

/-- n bytes of a command at an offset, as a number. -/
abbrev argOf (s : State) (mb off n : Nat) : Nat := (s.mbox mb).arg off n

end Sys2Proof
end

