-- ==== Sys2Proof/Certificates/Slice0/Obligations.lean ====
section
/-! DEFINITION. The statements for the provers. A statement of several parts is their conjunction: each part has a docstring of
its own, which names the rules of the manual that it follows. -/

open Sys2Proof Sys2Proof.Machine

namespace Sys2Proof

/- Scalar instructions. -/

/-- Result number f of a list of results. -/
def nth (f : Nat) (l : List Word) : Word := at' l 0 f

/-- A row that writes one general register with a function of the thread. -/
abbrev ScalarRow := (Agent → IWord → Instr) × (Word → Thr → Thr)

def wr (mk : Agent → IWord → Instr) (rd : Nat) (v : Word → Thr → Word) : Option ScalarRow :=
  some (mk, fun pc t => t.setG rd (v pc t))

/-- EQ, NE, LT, GE, LTU, GEU of R28. -/
def condNo (c : Nat) (x y : Word) : Bool :=
  at' [x == y, x != y, decide (x.toInt < y.toInt), decide (y.toInt ≤ x.toInt), decide (x.toNat < y.toNat),
       decide (y.toNat ≤ x.toNat)] false c

/-- The integer, compare and predicate rows of R28 and R29, each with what its instruction does to the thread that
executes it: f selects the instruction of the row in the order of the tables, and a write of g0 or p0 is discarded. -/
def intRow : Op → Option ScalarRow
  | .alu f rd a b => if f < 6 then wr .addSubAndOrXorAndn rd (fun _ t =>
      let x := t.getG a; let y := t.getG b
      nth f [x + y, x - y, x &&& y, x ||| y, x ^^^ y, x &&& ~~~y]) else none
  | .shr f rd a b => if f < 4 then wr .sllSrlSraRor rd (fun _ t =>
      let x := t.getG a; let k := (t.getG b).toNat % 64
      nth f [x <<< k, x >>> k, x.sshiftRight k, x.rotateRight k]) else none
  | .minmax f rd a b => if f < 4 then wr .minMaxMinuMaxu rd (fun _ t =>
      let x := t.getG a; let y := t.getG b
      nth f [if x.toInt ≤ y.toInt then x else y, if x.toInt ≤ y.toInt then y else x,
             if x.toNat ≤ y.toNat then x else y, if x.toNat ≤ y.toNat then y else x]) else none
  | .mul f rd a b => if f < 3 then wr .mulMulhMulhu rd (fun _ t =>
      let x := t.getG a; let y := t.getG b
      nth f [x * y, BitVec.ofInt 64 (x.toInt * y.toInt / 2 ^ 64), BitVec.ofNat 64 (x.toNat * y.toNat / 2 ^ 64)]) else none
  | .div f rd a b => if f < 4 then wr .divDivuRemRemu rd (fun _ t =>
      let x := t.getG a; let y := t.getG b
      nth f [if y = 0 then BitVec.allOnes 64 else BitVec.ofInt 64 (x.toInt.tdiv y.toInt),
             if y = 0 then BitVec.allOnes 64 else BitVec.ofNat 64 (x.toNat / y.toNat),
             if y = 0 then x else BitVec.ofInt 64 (x.toInt.tmod y.toInt),
             if y = 0 then x else BitVec.ofNat 64 (x.toNat % y.toNat)]) else none
  | .word f rd a b => if f < 6 then wr .wordOps rd (fun _ t =>
      let x : BitVec 32 := (t.getG a).truncate 32; let y : BitVec 32 := (t.getG b).truncate 32; let k := y.toNat % 32
      (at' [x + y, x - y, x * y, x <<< k, x >>> k, x.sshiftRight k] 0 f).signExtend 64) else none
  | .cnt f rd a => if f < 4 then wr .clzCtzPopcRev8 rd (fun _ t =>
      let x := t.getG a
      nth f [if x = 0 then 64 else BitVec.ofNat 64 (63 - x.toNat.log2),
             BitVec.ofNat 64 (((List.range 64).find? (fun i => x.getLsbD i)).getD 64),
             BitVec.ofNat 64 ((List.range 64).countP (fun i => x.getLsbD i)),
             BitVec.ofNat 64 (ofLeBytes (leBytes 8 x.toNat).reverse)]) else none
  | .sel p rd a b => wr .sel rd (fun _ t => if t.getP p then t.getG a else t.getG b)
  | .ptog rd => wr .ptog rd (fun _ t => (t.p ||| 1).zeroExtend 64)
  | .gtop a => some (.gtop, fun _ t => { t with p := (t.getG a).truncate 8 &&& 0xFE })
  | .immop f rd a imm => if f < 4 then wr .addiAndiOriXori rd (fun _ t =>
      let x := t.getG a; let y := BitVec.ofInt 64 imm
      nth f [x + y, x &&& y, x ||| y, x ^^^ y]) else none
  | .shi f rd a k => if f < 4 then wr .shi rd (fun _ t =>
      let x := t.getG a
      nth f [x <<< k, x >>> k, x.sshiftRight k, x.rotateRight k]) else none
  | .li rd imm => wr .li rd (fun _ _ => BitVec.ofInt 64 imm)
  | .lih rd v => wr .lih rd (fun _ t => setBits (t.getG rd) 40 24 v)
  | .addpc rd imm => wr .addpc rd (fun pc _ => pc + BitVec.ofInt 64 (imm * 4))
  | .addiw rd a imm => wr .addiW rd (fun _ t => ((t.getG a + BitVec.ofInt 64 imm).truncate 32 : BitVec 32).signExtend 64)
  | .cmp w c pd a b => if c < 6 then some (.cmp, fun _ t =>
      let x := if w then ((t.getG a).truncate 32 : BitVec 32).signExtend 64 else t.getG a
      let y := if w then ((t.getG b).truncate 32 : BitVec 32).signExtend 64 else t.getG b
      t.setP pd (condNo c x y)) else none
  | .cmpi c pd a imm => if c < 6 then some (.cmpi, fun _ t => t.setP pd (condNo c (t.getG a) (BitVec.ofInt 64 imm))) else none
  | .plog f pd pa pb => if f < 5 then some (.plog, fun _ t =>
      let x := t.getP pa; let y := t.getP pb
      t.setP pd (at' [x && y, x || y, x != y, x && !y, !x] false f)) else none
  | _ => none

/-- R17, R28, R29 with their frame: an integer, compare or predicate instruction on a processor core changes the one
register that its row names and the pc, and nothing else in the module. -/
def Parts.IntegerOnCores : Prop :=
  ∀ op row, intRow op = some row → ∀ s n iw, CoreAt s n iw op →
    exec (row.1 (.core n) iw) s = .next (coreDone s n iw (row.2 (s.core n).thr.pc (s.core n).thr))

/-- The same rows on every unit, at every level and in every group: each active lane's thread changes as the row says,
and the unit moves past the instruction. -/
def Parts.IntegerOnUnits : Prop :=
  ∀ op row, intRow op = some row → ∀ s u iw x s2, issued s u iw = some (x, op, s2) →
    exec (row.1 u iw) s = .next (scalarDone s2 x (row.2 x.pc) [])

end Sys2Proof

/-- Integer, conversion, compare and move instructions: result, frame and completion, on cores and groups. -/
def Obligations.IntegerInstructions : Prop :=
  Sys2Proof.Parts.IntegerOnCores ∧ Sys2Proof.Parts.IntegerOnUnits

namespace Sys2Proof

/-- A rounded result and its flags. -/
def fwr (mk : Agent → IWord → Instr) (d : Bool) (fd : Nat) (v : Thr → Nat × Nat) : Option ScalarRow :=
  some (mk, fun _ t => let r := v t; { t.setFd d fd r.1 with fpc := t.fpc ||| BitVec.ofNat 32 r.2 })

/-- The floating-point rows of R30 and the rows of R20, R41 on fpc: results rounded under fpc.RMODE by the format's
operation, flags added to fpc; a .S result clears bits 63 to 32 of its register. -/
def floatRow : Op → Option ScalarRow
  | .farith f d fd a b => fwr .faddFsubFmulFdiv d fd (fun t =>
      let m := fmtOf d; let x := t.getFd d a; let y := t.getFd d b
      if f = 0 then m.add t.rm x y else if f = 1 then m.sub t.rm x y else if f = 2 then m.mul t.rm x y else m.div t.rm x y)
  | .fsqrt d fd a => fwr .fsqrt d fd (fun t => (fmtOf d).sqrt t.rm (t.getFd d a))
  | .fminmax f d fd a b => fwr .fminFmax d fd (fun t => (fmtOf d).minmax (f == 1) (t.getFd d a) (t.getFd d b))
  | .fsign f d fd a b => some (.fsign, fun _ t =>
      let w := if d then 63 else 31
      let x := t.getFd d a; let sx := x / 2 ^ w % 2; let sy := t.getFd d b / 2 ^ w % 2
      t.setFd d fd (x % 2 ^ w + 2 ^ w * (if f = 0 then sy else if f = 1 then 1 - sx else if f = 2 then 0 else (sx + sy) % 2)))
  | .fcvt d fd a => fwr .fwidenFnarrow (!d) fd (fun t => (fmtOf d).conv (fmtOf (!d)) t.rm (t.getFd d a))
  | .ftoi uns d rd a => some (.ftoiFtou, fun _ t =>
      let r := (fmtOf d).toInt uns t.rm (t.getFd d a)
      { t.setG rd (BitVec.ofNat 64 r.1) with fpc := t.fpc ||| BitVec.ofNat 32 r.2 })
  | .itof uns d fd a => fwr .itofUtof d fd (fun t => (fmtOf d).ofInt uns t.rm (t.getG a).toNat)
  | .mov toG d rd a => some (.movfgMovgf, fun _ t =>
      if toG then t.setG rd (BitVec.ofNat 64 (t.getFd d a)) else t.setFd d rd (t.getG a).toNat)
  | .fkind d rd a => wr .fkind rd (fun _ t => BitVec.ofNat 64 ((fmtOf d).kind (t.getFd d a)))
  | .fma neg sub d fd a b c => fwr (if sub then .fmsFnms else .fmaFnma) d fd (fun t =>
      (fmtOf d).fma t.rm neg sub (t.getFd d a) (t.getFd d b) (t.getFd d c))
  | .fcmp d c pd a b => some (.fcmp, fun _ t =>
      let r := (fmtOf d).compare c (t.getFd d a) (t.getFd d b)
      { t.setP pd r.1 with fpc := t.fpc ||| BitVec.ofNat 32 r.2 })
  | .rdfpc rd => wr .rdfpc rd (fun _ t => t.fpc.zeroExtend 64)
  | .wrfpc a => some (.wrfpc, fun _ t => { t with fpc := (t.getG a).truncate 32 &&& 0x1F3 })
  | _ => none

/-- R20, R30, R41 with their frame on a processor core. -/
def Parts.FloatOnCores : Prop :=
  ∀ op row, floatRow op = some row → ∀ s n iw, CoreAt s n iw op →
    exec (row.1 (.core n) iw) s = .next (coreDone s n iw (row.2 (s.core n).thr.pc (s.core n).thr))

/-- The same rows on every unit; a write of a bound register ends a group's binding (R99). RDCLK and RDFT read the
unit's clock count and fabric time (R41). -/
def Parts.FloatOnUnits : Prop :=
  (∀ op row, floatRow op = some row → ∀ s u iw x s2, issued s u iw = some (x, op, s2) →
    exec (row.1 u iw) s = .next (scalarDone s2 x (row.2 x.pc) op.fDst)) ∧
  (∀ s u iw x s2 rd, issued s u iw = some (x, .rdclk rd, s2) →
    exec (.rdclk u iw) s = .next (scalarDone s2 x (fun t => t.setG rd (BitVec.ofNat 64 (s.rdclk u))) [])) ∧
  (∀ s u iw x s2 rd, issued s u iw = some (x, .rdft rd, s2) →
    exec (.rdft u iw) s = .next (scalarDone s2 x (fun t => t.setG rd (BitVec.ofNat 64 s.now)) []))

end Sys2Proof

/-- Floating-point instructions: result, flags, frame and completion, on cores and groups. -/
def Obligations.FloatingInstructions : Prop :=
  Sys2Proof.Parts.FloatOnCores ∧ Sys2Proof.Parts.FloatOnUnits

namespace Sys2Proof

/- Control transfers, traps and the system instructions. -/

/-- The control transfers of R40, each with a thread's change and its target, none where it falls through; nx is the
address of the next instruction. -/
def jumpRow : Op → Option ((Agent → IWord → Instr) × (Word → Thr → Thr × Option Word))
  | .br p sense off => some (.brBrn, fun _ t => (t, if t.getP p = sense then none else some (t.pc + BitVec.ofInt 64 (off * 4))))
  | .jal rd off => some (.jal, fun nx t => (t.setG rd nx, some (t.pc + BitVec.ofInt 64 (off * 4))))
  | .jalr rd a imm => some (.jalr, fun nx t => (t.setG rd nx, some ((t.getG a + BitVec.ofInt 64 imm) &&& 0xFFFFFFFFFFFFFFFC)))
  | .pause => some (.pause, fun _ t => (t, none))
  | _ => none

/-- R40 and PAUSE of R41 on a processor core, with their frame: the pc and the link register change, and nothing else. -/
def Parts.ControlOnCores : Prop :=
  ∀ op row, jumpRow op = some row → ∀ s n iw, CoreAt s n iw op →
    exec (row.1 (.core n) iw) s = .next (
      let nx := (s.core n).thr.pc + BitVec.ofNat 64 (decodeI iw).len
      let r := row.2 nx (s.core n).thr
      s.setCore n { s.core n with thr := { r.1 with pc := r.2.getD nx } })

/-- R40 on every unit: the active lanes of the path set take their targets and the others fall through; PAUSE makes the
path set yield (R60). -/
def Parts.ControlOnUnits : Prop :=
  ∀ op row, jumpRow op = some row → ∀ s u iw x s2, issued s u iw = some (x, op, s2) →
    exec (row.1 u iw) s = .next (
      let nx := x.pc + BitVec.ofNat 64 x.len
      (s2.mapThr x (fun t => (row.2 nx t).1)).advance x
        (fun i => if x.act.elem i then (row.2 nx (s2.thr u i)).2 else none) (op == .pause))

end Sys2Proof

/-- Branches, jumps and calls, clock reads and PAUSE, on cores and groups. -/
def Obligations.ControlTransfers : Prop :=
  Sys2Proof.Parts.ControlOnCores ∧ Sys2Proof.Parts.ControlOnUnits

namespace Sys2Proof

/-- Core c becomes d by a trap with that cause (R45): taken at M or at K, the pc, the level and IE are saved in that
level's registers, IE is clear, execution goes on at that level's entry, the reservation is over, and every other
register of the thread and of the other level is unchanged. -/
def Entered (c d : PCore) (m : Bool) (cause : Nat) : Prop :=
  let lvl := bits c.state 0 2
  let ie := bits c.state 2 1
  d.thr = { c.thr with pc := if m then c.entryM else c.entryK, resv := none } ∧
  bits d.state 0 2 = (if m then 2 else 1) ∧ bits d.state 2 1 = 0 ∧
  (if m then d.tpcM = c.thr.pc ∧ d.whyM = BitVec.ofNat 64 cause ∧ bits d.state 8 2 = lvl ∧ bits d.state 10 1 = ie ∧
      d.tpcK = c.tpcK ∧ d.whyK = c.whyK ∧ d.tinfoK = c.tinfoK ∧ bits d.state 4 2 = bits c.state 4 2 ∧ bits d.state 6 1 = bits c.state 6 1
   else d.tpcK = c.thr.pc ∧ d.whyK = BitVec.ofNat 64 cause ∧ bits d.state 4 2 = lvl ∧ bits d.state 6 1 = ie ∧
      d.tpcM = c.tpcM ∧ d.whyM = c.whyM ∧ d.tinfoM = c.tinfoM ∧ bits d.state 8 2 = bits c.state 8 2 ∧ bits d.state 10 1 = bits c.state 10 1) ∧
  (d.entryK, d.entryM, d.spareK, d.spareM, d.ptroot, d.asid, d.route, d.irqEn, d.alarm) =
    (c.entryK, c.entryM, c.spareK, c.spareM, c.ptroot, c.asid, c.route, c.irqEn, c.alarm)

/-- An exception raised at M is taken at M, and one raised below M at K exactly where sys.route sends it there (R45). -/
def toM (c : PCore) (code : Nat) : Bool := bits c.state 0 2 == 2 || !bit c.route code

/-- UPCALL has code 9, 10 or 11 by its level, DBGTRAP 12 (R49); a core's recorded store error is taken as BUS_ERROR 8
with the store's address (R235); an interrupt is taken at K with INT set (R48, R51); IDLE ends with it. Memory keeps
its contents, but for the record of a tagged instruction (R399). -/
def Parts.TrapsOnCores : Prop :=
  (∀ s n iw x op s2, issued s (.core n) iw = some (x, op, s2) → (op = .upcall ∨ op = .dbgtrap) →
    let code := if op = .upcall then 9 + s2.lvl n else 12
    let c := if op = .upcall then Instr.upcall (.core n) iw else .dbgtrap (.core n) iw
    exec c s = .next (({ s2 with ctr := { s2.ctr with free := s2.ctr.free + 1 } } : State).raise x 0 code 0 (Config.freeWord s2.ctr.free) 0 0) ∧
    ((s2.core n).tagged = none → Runs c s (fun t => Entered (s2.core n) (t.core n) (toM (s2.core n) code) code ∧
      (∀ m, m ≠ n → t.core m = s2.core m) ∧ t.mem = s2.mem ∧ t.sb = s2.sb))) ∧
  (∀ s n e r, n < 64 → s.atBoundary (.core n) = true → (s.core n).serr = e :: r →
    Runs (.storeBusError (.core n)) s (fun t => Entered (s.core n) (t.core n) (toM (s.core n) 8) 8 ∧ (t.core n).serr = [] ∧
      (if toM (s.core n) 8 then (t.core n).tinfoM else (t.core n).tinfoK) = BitVec.ofNat 64 e.va ∧
      (∀ m, m ≠ n → t.core m = s.core m) ∧ t.mem = s.mem)) ∧
  (∀ s n, n < 64 → s.atBoundary (.core n) = true → (s.core n).serr = [] → s.irqOn n ≠ [] →
    (s.lvl n = 0 ∨ (s.lvl n = 1 ∧ bit (s.core n).state 2 = true)) →
    Runs (.interruptTaken n) s (fun t => ∃ i ∈ s.irqOn n, Entered (s.core n) (t.core n) false (i + 1 + 2 ^ 16) ∧
      (t.core n).idle = none ∧ (∀ m, m ≠ n → t.core m = s.core m) ∧ t.mem = s.mem))

/-- The row of an instruction's operation. -/
def rowOf : Op → Agent → IWord → Instr
  | .tret => .tret | .idle => .idle | .ipi _ => .ipi | .tlbsync => .tlbsync
  | .tlbi k .. => if k = 0 then .tlbiAll else if k = 1 then .tlbiAsid else if k = 2 then .tlbiVa else .tlbiVaa
  | .cmo .clean _ => .cmoClean | .cmo .flush _ => .cmoFlush | .cmo .inval _ => .cmoInval
  | .xl k .. => if k = 0 then .xlR else if k = 1 then .xlFwd else if k = 2 then .xlBwd else if k = 3 then .xlFlip else .xlBcst
  | .lv k .. => if k = 0 then .lvAll else if k = 1 then .lvAny else if k = 2 then .lvMask else if k = 3 then .lvLive
                else if k = 4 then .lvFirst else .lvCount
  | .fold .. => .fold | .gbar => .gbar | .tbar => .tbar
  | .mlds .. => fun u iw => .mldS u iw .good | .mma n .. => fun u iw => if n then .mmaN u iw .good else .mma u iw .good
  | .mst .. => fun u iw => .mst u iw .good
  | .schStart .. => .schStart | .schPost .. => .schPost | .schWait .. => .schWait | .tfence .. => .tfence
  | .tsRd .. => .tsRd | .tsWr .. => .tsWr | .schStat .. => .schStat | .mfsys .. => .mfsys | _ => .mtsys

/-- A core is ready, and the words at its pc, which decode to op and whose guard is true, are fetched: its place and the
state after fetch and tagging. -/
def fetched (s : State) (n : Nat) (iw : IWord) (op : Op) : Option (UCtx × State) :=
  let pc := (s.core n).thr.pc
  let x : UCtx := ⟨.core n, pc, (decodeI iw).len, [0], [0], iw⟩
  if n < 64 ∧ iwordWf iw = true ∧ (decodeI iw).op = some op ∧ s.ready (.core n) = some (pc, [0]) ∧
     guardTrue (s.core n).thr (decodeI iw) = true then
    match s.fetchAll x false with | (.ok s0, false) => some (x, s0.tagIssue x) | _ => none
  else none

/-- R15, R42, R49: an instruction of Prieno-S at level U takes PRIV, but for MFSYS and MTSYS, whose register decides
(R43); CMO.INVAL takes it below M (R47); an instruction of Prieno-G takes ILLEGAL on a processor core. The tinfo register
holds the instruction word. -/
def Parts.PrivilegeTraps : Prop :=
  ∀ s n iw op x s1, fetched s n iw op = some (x, s1) →
    let taken (code : Nat) (c : Instr) : Prop :=
      exec c s = .next (s1.raiseWord x code) ∧
      ((s1.core n).tagged = none → Runs c s (fun t =>
        Entered (s1.core n) (t.core n) (toM (s1.core n) code) code ∧
        (if toM (s1.core n) code then (t.core n).tinfoM else (t.core n).tinfoK) = iwordInfo iw ∧
        (∀ m, m ≠ n → t.core m = s1.core m) ∧ t.mem = s1.mem))
    (op.part = .s → s1.lvl n = 0 → (∀ r k, op ≠ .mfsys r k) → (∀ r k, op ≠ .mtsys r k) → taken 2 (rowOf op (.core n) iw)) ∧
    (∀ a, op = .cmo .inval a → s1.lvl n ≠ 2 → taken 2 (.cmoInval (.core n) iw)) ∧
    (op.part = .g → taken 1 (rowOf op (.core n) iw)) ∧
    (∀ r k m, op = .mfsys r k → sysMin k = some m → s1.lvl n < m → taken 2 (.mfsys (.core n) iw)) ∧
    (∀ r k, op = .mfsys r k → sysMin k = none → taken 1 (.mfsys (.core n) iw)) ∧
    (∀ r k m, op = .mtsys r k → sysMin k = some m → sysReadOnly k = false → s1.lvl n < m → taken 2 (.mtsys (.core n) iw)) ∧
    (∀ r k, op = .mtsys r k → (sysMin k = none ∨ sysReadOnly k = true) → taken 1 (.mtsys (.core n) iw))

end Sys2Proof

/-- What raises a trap on a processor core and what its entry saves and where it goes. -/
def Obligations.TrapsAndTheirEntry : Prop :=
  Sys2Proof.Parts.TrapsOnCores ∧ Sys2Proof.Parts.PrivilegeTraps

namespace Sys2Proof

/-- The sys registers of R43 with what MFSYS reads; level M may read them all. -/
def sysReads (s : State) (n : Nat) : List (Nat × Word) :=
  let c := s.core n
  [(0x000, c.state), (0x001, c.irqEn), (0x002, BitVec.ofNat 64 (s.irqPend n)), (0x003, 0), (0x004, c.alarm), (0x008, c.tpcK),
   (0x009, c.whyK), (0x00A, c.tinfoK), (0x00B, c.entryK), (0x00C, c.spareK), (0x010, c.ptroot), (0x011, c.asid),
   (0x020, BitVec.ofNat 64 n), (0x108, c.tpcM), (0x109, c.whyM), (0x10A, c.tinfoM), (0x10B, c.entryM), (0x10C, c.spareM),
   (0x110, c.route)]

/-- The sys registers that MTSYS writes whole, with what each keeps of the value (R43, R47, R48, R51, R243). -/
def sysWrites (c : PCore) (w : Word) : List (Nat × PCore) :=
  [(0x001, { c with irqEn := w &&& 0xF }), (0x003, { c with ipi := c.ipi && !bit w 2 }), (0x004, { c with alarm := w }),
   (0x008, { c with tpcK := w }), (0x009, { c with whyK := w &&& 0x1FFFFF }), (0x00A, { c with tinfoK := w }),
   (0x00B, { c with entryK := w &&& 0xFFFFFFFFFFFFF000 }), (0x00C, { c with spareK := w }),
   (0x010, { c with ptroot := w &&& 0x00FFFFFFFFFFF001 }), (0x011, { c with asid := w &&& 0xFFFF }), (0x108, { c with tpcM := w }),
   (0x109, { c with whyM := w &&& 0x1FFFFF }), (0x10A, { c with tinfoM := w }), (0x10B, { c with entryM := w &&& 0xFFFFFFFFFFFFF000 }),
   (0x10C, { c with spareM := w }), (0x110, { c with route := w })]

/-- Core n becomes c, moved past its instruction; nothing else changes. -/
def coreTo (s : State) (n : Nat) (iw : IWord) (c : PCore) : State :=
  s.setCore n { c with thr := { c.thr with pc := (s.core n).thr.pc + BitVec.ofNat 64 (decodeI iw).len } }

/-- MFSYS and MTSYS at level M with their frame (R43); a write of sys.state changes IE, KPIE, MPIE and the saved levels,
of which KPL takes U or K and MPL U, K or M, and leaves LVL (R44). -/
def Parts.SysRegisters : Prop :=
  (∀ s n iw rd k v, CoreAt s n iw (.mfsys rd k) → (k, v) ∈ sysReads s n →
    exec (.mfsys (.core n) iw) s = .next (coreTo s n iw { s.core n with thr := (s.core n).thr.setG rd v })) ∧
  (∀ s n iw a k c, CoreAt s n iw (.mtsys a k) → (k, c) ∈ sysWrites (s.core n) ((s.core n).thr.getG a) →
    exec (.mtsys (.core n) iw) s = .next (coreTo s n iw c)) ∧
  (∀ s n iw a, CoreAt s n iw (.mtsys a 0) → Runs (.mtsys (.core n) iw) s (fun t =>
    let w := (s.core n).thr.getG a
    let o := (s.core n).state
    ∃ st, t = coreTo s n iw { s.core n with state := st } ∧ bits st 0 2 = bits o 0 2 ∧ bits st 2 1 = bits w 2 1 ∧
      bits st 6 1 = bits w 6 1 ∧ bits st 10 1 = bits w 10 1 ∧
      bits st 4 2 = (if bits w 4 2 < 2 then bits w 4 2 else bits o 4 2) ∧
      bits st 8 2 = (if bits w 8 2 < 3 then bits w 8 2 else bits o 8 2)))

/-- R46, R47, R51: TRET restores the level, IE and the pc of the level that returns and ends the reservation; IDLE waits
for an enabled interrupt, one millisecond at most, and ends then; IPI sets the inter-core bit of the core that the
register names; an alarm that the fabric time has reached ends the wait of a core that enables its interrupt. -/
def Parts.LevelsAndWaits : Prop :=
  (∀ s n iw x s2, issued s (.core n) iw = some (x, .tret, s2) →
    exec (.tret (.core n) iw) s = .next ((s2.retire (.core n) 1).setCore n ((s2.retire (.core n) 1).core n).tret)) ∧
  (∀ c : PCore, let d := c.tret
    d.thr = { c.thr with pc := if bits c.state 0 2 = 2 then c.tpcM else c.tpcK, resv := none } ∧
    bits d.state 0 2 = (if bits c.state 0 2 = 2 then bits c.state 8 2 else bits c.state 4 2) ∧
    bits d.state 2 1 = (if bits c.state 0 2 = 2 then bits c.state 10 1 else bits c.state 6 1) ∧
    (if bits c.state 0 2 = 2 then bits d.state 8 2 = 0 ∧ bits d.state 4 2 = bits c.state 4 2
     else bits d.state 4 2 = 0 ∧ bits d.state 8 2 = bits c.state 8 2)) ∧
  (∀ s n iw, CoreAt s n iw .idle → Runs (.idle (.core n) iw) s (fun t =>
    t.core n = { (coreTo s n iw (s.core n)).core n with idle := if s.irqOn n = [] then some (s.now + 1000000) else none } ∧
    t.mem = s.mem ∧ t.regs = s.regs)) ∧
  (∀ s n e, n < 64 → (s.core n).idle = some e → e ≤ s.now →
    exec (.idleTimeout n) s = .next (s.setCore n { s.core n with idle := none })) ∧
  (∀ s n iw a, CoreAt s n iw (.ipi a) → Runs (.ipi (.core n) iw) s (fun t =>
    (t.core (((s.core n).thr.getG a).toNat % 64)).ipi = true ∧
    (t.core n).thr = { (s.core n).thr with pc := (s.core n).thr.pc + BitVec.ofNat 64 (decodeI iw).len } ∧
    (∀ m, m ≠ ((s.core n).thr.getG a).toNat % 64 → (t.core m).ipi = (s.core m).ipi) ∧ t.mem = s.mem ∧ t.regs = s.regs)) ∧
  (∀ s n, n < 64 → (s.core n).alarm.toNat ≤ s.now → bit (s.core n).irqEn 0 = true → Runs (.alarmReached n) s (fun t =>
    (t.core n).idle = none ∧ (∀ m, (t.core m).thr = (s.core m).thr ∧ (t.core m).state = (s.core m).state) ∧ t.mem = s.mem))

/-- The TLB of place k of the module. -/
def tlbOf (s : State) (k : Nat) : Tlb := s.tlbs.get {} k

/-- R47, R248, R249: a TLBI removes the entries it names from the core's own TLBs at once, the package form from every TLB
when it takes effect; TLBSYNC completes when the package TLBIs of its core have taken effect and the accesses then in
flight are complete. -/
def Parts.TlbMaintenance : Prop :=
  (∀ s n iw k pkg a b, k < 4 → CoreAt s n iw (.tlbi k pkg a b) → Runs (rowOf (.tlbi k pkg a b) (.core n) iw) s (fun t =>
    let ra := ((s.core n).thr.getG a).toNat
    let rb := ((s.core n).thr.getG b).toNat
    let asid := (if k = 1 then ra else rb) % 2 ^ 16
    let va := if k = 1 then 0 else ra
    (∀ e ∈ t.tlbs, e.1 / 4 = n → e.1 < 256 → (∀ y ∈ e.2.es,
      ¬ (k = 0 ∨ (k = 1 ∧ y.g = false ∧ y.asid = asid) ∨ (k = 2 ∧ y.vpn = va >>> y.bits ∧ y.g = false ∧ y.asid = asid) ∨
         (k = 3 ∧ y.vpn = va >>> y.bits)))) ∧
    t.core n = (coreTo s n iw (s.core n)).core n ∧
    (if pkg then ∃ i q, t.tlbi.find? i = some q ∧ q.n = n ∧ q.k = k ∧ q.va = va ∧ q.asid = asid ∧ q.took = false else t.tlbi = s.tlbi) ∧
    t.mem = s.mem ∧ t.regs = s.regs)) ∧
  (∀ s n iw, CoreAt s n iw .tlbsync → (∀ e ∈ s.tlbi, e.2.n = n → s.tlbiDone e.2 = true) →
    Runs (.tlbsync (.core n) iw) s (fun t => t.core n = (coreTo s n iw (s.core n)).core n ∧ (∀ e ∈ t.tlbi, e.2.n ≠ n) ∧
      t.mem = s.mem ∧ t.tlbs = s.tlbs)) ∧
  (∀ s n iw e, CoreAt s n iw .tlbsync → e ∈ s.tlbi → e.2.n = n → s.tlbiDone e.2 = false →
    exec (.tlbsync (.core n) iw) s = .next s) ∧
  (∀ s i q, s.tlbi.find? i = some q → q.took = false → Runs (.tlbiTakesEffect i) s (fun t =>
    (∀ e ∈ t.tlbs, ∀ y ∈ e.2.es,
      ¬ (q.k = 0 ∨ (q.k = 1 ∧ y.g = false ∧ y.asid = q.asid) ∨ (q.k = 2 ∧ y.vpn = q.va >>> y.bits ∧ y.g = false ∧ y.asid = q.asid) ∨
         (q.k = 3 ∧ y.vpn = q.va >>> y.bits))) ∧
    (∃ r, t.tlbi.find? i = some r ∧ r.took = true ∧ r.ops = s.ops.map (·.1) ∧ r.sids = s.sb.map (·.1) ∧
      r.trds = s.trd.map (·.1) ∧ r.twrs = s.twr.map (·.1) ∧ r.units = s.holding) ∧
    t.pd = s.pd ∧ t.mem = s.mem ∧ t.regs = s.regs))

end Sys2Proof

/-- MFSYS, MTSYS, IDLE, IPI, TRET, interrupts and TLB maintenance. -/
def Obligations.PrivilegedInstructions : Prop :=
  Sys2Proof.Parts.SysRegisters ∧ Sys2Proof.Parts.LevelsAndWaits ∧ Sys2Proof.Parts.TlbMaintenance

namespace Sys2Proof

/- Loads, stores, atomics, fences and cache maintenance. -/

/-- An instruction that returns data, as its row gives it: the row, what its access is, what it does with the answer, its
result register, the address register and offset, hint, scope, and the scope of its release. -/
structure MemRow where
  row : Agent → IWord → Instr
  k : AccKind
  kind : PKind
  rd : Nat
  a : Nat
  off : Int
  hint : Nat
  scope : Nat
  release : Option Nat := none

/-- The loads of R31 and R34, the atomics of R35, LL.D of R37 and the cache maintenance of R47, which faults as a store
of one byte. -/
def memRow : Op → Option MemRow
  | .load sgn fp size rd a off hint ord scope =>
    if sgn && fp then none
    else some { row := if fp then .fld else if sgn then .lds else .ld,
                k := { need := .load, size := 2 ^ size, ordered := ord != 0, excl := false },
                kind := .load (2 ^ size) sgn fp, rd := rd, a := a, off := off, hint := hint, scope := scope }
  | .oload size rd a off hint ord scope => some {
      row := .orderedLoad, k := { need := .load, size := 2 ^ size, ordered := ord != 0, excl := false },
      kind := .load (2 ^ size) false false, rd := rd, a := a, off := off, hint := hint, scope := scope }
  | .amo k wide rd a _ off _ ord scope => some {
      row := if k < 4 then .amoAddAndOrXor else if k < 8 then .amoSwapCasMinMax else .amoMinuMaxuFadd,
      k := { need := .store, size := if wide then 8 else 4, ordered := true, excl := true },
      kind := .amo (at' [.add, .and, .or, .xor, .swap, .cas, .min, .max, .minu, .maxu] .fadd k) wide,
      rd := rd, a := a, off := off, hint := 1, scope := scope, release := if ord ≥ 2 then some scope else none }
  | .ll rd a off hint _ scope => some {
      row := .llD, k := { need := .load, size := 8, ordered := true, excl := true, llsc := true }, kind := .ll,
      rd := rd, a := a, off := off, hint := hint, scope := scope }
  | .cmo k a => some {
      row := match k with | .clean => .cmoClean | .flush => .cmoFlush | .inval => .cmoInval,
      k := { need := .store, size := 1, ordered := false, excl := false }, kind := .cmo k, rd := 0, a := a, off := 0,
      hint := 1, scope := 3 }
  | _ => none

/-- Address of a lane's access: the register plus the offset, modulo 2^64 (R31). -/
def laneAddr (s : State) (u : Agent) (a : Nat) (off : Int) (i : Nat) : Nat := ((s.thr u i).getG a + BitVec.ofInt 64 off).toNat

/-- What an instruction has asked for: every access of its active lanes in their order, the line each touches once. -/
def Asked (q : PendOp) (u : Agent) (r : MemRow) (l : List TAcc) : Prop :=
  q.u = u ∧ q.kind = r.kind ∧ q.rd = r.rd ∧ q.scope = r.scope ∧ q.accs.map (fun a => (a.lane, a.va, a.pa, a.pa2, a.size)) =
    l.map (fun t => (t.a.lane, t.a.va, t.a.pa, t.a.pa2, t.a.size)) ∧ q.lines.map (fun y => (y.line, y.mem, y.hint)) = (lineReqs r.hint l).map (fun y => (y.line, y.mem, y.hint))

/-- The older stores of the unit to the instruction's lines that it would not see in the buffer: a load sees those that go
through the cache as it does (R219, R233). -/
def sameLines (s : State) (u : Agent) (r : MemRow) (l : List TAcc) : List Nat :=
  let plain := match r.kind with | .load .. => true | _ => false
  ((s.ownSb u).filter (fun e => (lineReqs r.hint l).any (fun y =>
    y.line == e.2.line && (!plain || y.mem != .cached || e.2.mem != .cached)))).map (·.1)

/-- The older stores that the instruction awaits: those to its lines, and for a release those of its scope (R222). -/
def awaited (s : State) (u : Agent) (r : MemRow) (l : List TAcc) : List Nat :=
  match r.release with
  | none => sameLines s u r l
  | some sc => s.relStores u sc ++ (sameLines s u r l).filter (fun i => !(s.relStores u sc).elem i)

/-- The scope at which they must be performed (R218). -/
def awaitScope (s : State) (u : Agent) (r : MemRow) (l : List TAcc) : Nat :=
  match r.release with
  | some sc => if sameLines s u r l = [] then sc else 4
  | none => 4

/-- The instruction as it waits for its answers. -/
def memOp (s : State) (x : UCtx) (r : MemRow) (ops : Nat → Nat × Nat) (l : List TAcc) : PendOp :=
  { u := x.u, kind := r.kind, rd := r.rd, accs := l.map (fun t => { t.a with op1 := (ops t.a.lane).1, op2 := (ops t.a.lane).2 }),
    lines := lineReqs r.hint l, len := x.len, scope := r.scope,
    cls := (match r.kind with | .amo .. => 0 | .ll => 5 | _ => 0), launch := unitLaunch s x.u }

/-- Operands of an atomic in a lane: the operand register, and the destination's old value, which CAS compares (R35). -/
def memOperands (s : State) (u : Agent) : Op → Nat → Nat × Nat
  | .amo _ _ rd _ b .. => fun i => (((s.thr u i).getG b).toNat, ((s.thr u i).getG rd).toNat)
  | _ => fun _ => (0, 0)

/-- R31 to R37, R47, R50, R66: when every active lane passes its checks, the instruction awaits the older stores that come
first and then its requests leave together. An LL.D ends the lanes' older reservations. -/
def Parts.MemoryRequests : Prop :=
  ∀ op r, memRow op = some r → ∀ s u iw x s2 s3 l, issued s u iw = some (x, op, s2) →
    ((if r.kind = .ll then s2.mapThr x (fun t => { t with resv := none }) else s2).checkAll x r.k
      (laneAddr s2 u r.a r.off) x.act = .ok s3 l) →
    exec (r.row u iw) s = .next (((s3.count (agUnit u) 0x002 (match u with | .grp .. => (lineReqs r.hint l).length | .core _ => 0)).tagMem u
      (match l with | t :: _ => t.a.va | [] => 0)).runBarrier u
      { sids := awaited s3 u r l, op := some (memOp s3 x r (memOperands s2 u op) l), scope := awaitScope s3 u r l } x.all)

/-- The same on a processor core, where all lines lie in local memory: with nothing to await the instruction waits for its
answers under a new tag, and otherwise for the older stores; memory, the buffer and the core's registers are as before. -/
def Parts.MemoryRequestsOnCores : Prop :=
  ∀ op r, memRow op = some r → ∀ s n iw x s2 s3 l, issued s (.core n) iw = some (x, op, s2) →
    ((if r.kind = .ll then s2.mapThr x (fun t => { t with resv := none }) else s2).checkAll x r.k
      (laneAddr s2 (.core n) r.a r.off) x.act = .ok s3 l) → lineReqs r.hint l ≠ [] → (∀ y ∈ lineReqs r.hint l, y.mem = .cached ∨ y.mem = .nc) →
    Runs (r.row (.core n) iw) s (fun t =>
      (t.core n).thr = (s3.core n).thr ∧ t.mem = s3.mem ∧ t.sb = s3.sb ∧ (∀ m, m ≠ n → t.core m = s3.core m) ∧
      (if awaited s3 (.core n) r l = [] then (t.core n).op = some s3.ctr.tag ∧
         ∃ q, t.ops.find? s3.ctr.tag = some q ∧ Asked q (.core n) r l
       else t.ops = s3.ops ∧ t.net = s3.net ∧
         ∃ b q, (t.core n).barrier = some b ∧ b.sids = awaited s3 (.core n) r l ∧ b.op = some q ∧ Asked q (.core n) r l))

/-- A lane that fails a check ends the instruction with that lane's exception alone (R50): nothing is asked. -/
def Parts.MemoryChecks : Prop :=
  ∀ op r, memRow op = some r → ∀ s u iw x s2 s3, issued s u iw = some (x, op, s2) →
    ((if r.kind = .ll then s2.mapThr x (fun t => { t with resv := none }) else s2).checkAll x r.k
      (laneAddr s2 u r.a r.off) x.act = .bad s3) → exec (r.row u iw) s = .next s3

end Sys2Proof

/-- Memory instructions: the checks, the address, what they ask of memory, and their frame. -/
def Obligations.LoadsStoresAndAtomics : Prop :=
  Sys2Proof.Parts.MemoryRequests ∧ Sys2Proof.Parts.MemoryRequestsOnCores ∧ Sys2Proof.Parts.MemoryChecks

namespace Sys2Proof

/-- R31, R39, R233: a store on a processor core at level M to local memory, within one line of which the core holds no
store, enters the buffer under a new number with its bytes, and the core goes on; ZERO.L stores zeros to the whole line.
Nothing else changes: memory and every other register are as before. -/
def Parts.StoresOnCores : Prop :=
  let entered (s : State) (n : Nat) (iw : IWord) (va size : Nat) (c : Instr) (P : SbE → Prop) : Prop :=
    isLocal va = true → va % 128 + size ≤ 128 → s.sbUsed (.core n) < 64 →
    (∀ e ∈ s.sbOf (.core n), e.2.line ≠ va / 128 ∧ (e.2.mem = .cached ∨ e.2.sent = true)) → Runs c s (fun t =>
      ∃ e, e.u = .core n ∧ e.mem = .cached ∧ e.line = va / 128 ∧ e.mask = maskAt (va % 128) size ∧ P e ∧
        t = { coreTo s n iw (s.core n) with sb := s.sb.set s.ctr.sid e, ctr := { s.ctr with sid := s.ctr.sid + 1 } })
  (∀ s n iw fp size rt a off hint scope, size ≤ 3 → CoreAt s n iw (.store fp size rt a off hint 0 scope) →
    let va := laneAddr s (.core n) a off 0
    entered s n iw va (2 ^ size) (if fp then .fst (.core n) iw else .st (.core n) iw)
      (fun e => lineBytes e.data (va % 128) (2 ^ size) =
        (if fp then (s.core n).thr.getF rt else (s.core n).thr.getG rt).toNat % 2 ^ (8 * 2 ^ size))) ∧
  (∀ s n iw size rt a off hint scope, size ≤ 3 → CoreAt s n iw (.ostore size rt a off hint 0 scope) →
    let va := laneAddr s (.core n) a off 0
    entered s n iw va (2 ^ size) (.orderedStore (.core n) iw)
      (fun e => lineBytes e.data (va % 128) (2 ^ size) = ((s.core n).thr.getG rt).toNat % 2 ^ (8 * 2 ^ size))) ∧
  (∀ s n iw a, CoreAt s n iw (.zerol a) →
    let va := laneAddr s (.core n) a 0 0 / 128 * 128
    entered s n iw va 128 (.zeroL (.core n) iw) (fun e => e.data = 0))

/-- The stores of every unit (R31, R36, R66, R67): when the lanes pass their checks and the buffer has room, their bytes enter
it in lane order, one store for each line, so that the highest lane's bytes are the last, and the unit goes on; a release
awaits the older stores of its scope first (R222). Without room the instruction waits (R233). -/
def Parts.StoresOnUnits : Prop :=
  let ready (s3 : State) (x : UCtx) (l : List TAcc) (es : List SbE) : State :=
    ((s3.count (agUnit x.u) 0x002 (match x.u with | .grp .. => es.length | .core _ => 0)).tagMem x.u
      (match l with | t :: _ => t.a.va | [] => 0)).laneWrites x.u (l.flatMap (fun t => t.a.touches.map (fun y => (t.a.lane, y))))
  let stored (s3 : State) (x : UCtx) (l : List TAcc) (es : List SbE) (release : Option Nat) : State :=
    match release with
    | none => (es.foldl (fun s4 e => s4.sbAdd e) (ready s3 x l es)).next x
    | some sc => (ready s3 x l es).runBarrier x.u { sids := (ready s3 x l es).relStores x.u sc, stores := es, adv := x.len, act := x.act.length, scope := sc } x.all
  let done (s s3 : State) (x : UCtx) (l : List TAcc) (hint : Nat) (val : Nat → Nat) (release : Option Nat) (c : Instr) : Prop :=
    let es := instrStores s3 x hint val l
    (s3.sbRoom x.u es = true → exec c s = .next (stored s3 x l es release)) ∧ (s3.sbRoom x.u es = false → exec c s = .next s)
  (∀ s u iw x s2 s3 l fp size rt a off hint ord scope, issued s u iw = some (x, .store fp size rt a off hint ord scope, s2) →
    s2.checkAll x { need := .store, size := 2 ^ size, ordered := ord != 0, excl := false } (laneAddr s2 u a off) x.act = .ok s3 l →
    done s s3 x l hint (fun i => (if fp then (s2.thr u i).getF rt else (s2.thr u i).getG rt).toNat) (if ord = 0 then none else some scope)
      (if fp then .fst u iw else .st u iw)) ∧
  (∀ s u iw x s2 s3 l size rt a off hint ord scope, issued s u iw = some (x, .ostore size rt a off hint ord scope, s2) →
    s2.checkAll x { need := .store, size := 2 ^ size, ordered := ord != 0, excl := false } (laneAddr s2 u a off) x.act = .ok s3 l →
    done s s3 x l hint (fun i => ((s2.thr u i).getG rt).toNat) (if ord = 0 then none else some scope) (.orderedStore u iw)) ∧
  (∀ s u iw x s2 s3 l a, issued s u iw = some (x, .zerol a, s2) →
    s2.checkAll x { need := .store, size := 128, ordered := false, excl := false } (fun i => laneAddr s2 u a 0 i / 128 * 128) x.act = .ok s3 l →
    done s s3 x l 0 (fun _ => 0) none (.zeroL u iw))

end Sys2Proof

/-- Stores enter the store buffer with their address, mask and data; memory keeps its bytes until they drain. -/
def Obligations.StoresAreBuffered : Prop :=
  Sys2Proof.Parts.StoresOnCores ∧ Sys2Proof.Parts.StoresOnUnits

namespace Sys2Proof

/-- R37, R228, R229: an SC.D without a reservation on its line writes 1 and stores nothing; one whose lane holds the
reservation and runs a conforming loop goes to its cache with the value. -/
def Parts.StoreConditional : Prop :=
  (∀ s n iw rd a b off hint scope, CoreAt s n iw (.sc rd a b off hint 0 scope) →
    isLocal (laneAddr s (.core n) a off 0) = true → laneAddr s (.core n) a off 0 % 8 = 0 →
    Runs (.scD (.core n) iw) s (fun t =>
      (t.core n).thr.g = ((s.core n).thr.setG rd 1).g ∧ (t.core n).thr.f = (s.core n).thr.f ∧ (t.core n).thr.p = (s.core n).thr.p ∧
      (t.core n).thr.pc = (s.core n).thr.pc + BitVec.ofNat 64 (decodeI iw).len ∧ (t.core n).thr.resv = none ∧
      t.mem = s.mem ∧ t.sb = s.sb ∧ t.net = s.net ∧ t.regs = s.regs)) ∧
  (∀ s n iw x s2 s3 tr rd a b off hint ord scope, issued s (.core n) iw = some (x, .sc rd a b off hint ord scope, s2) → ord ≠ 2 →
    s2.checkAll x { need := .store, size := 8, ordered := true, excl := true, llsc := true } (laneAddr s2 (.core n) a off) x.act = .ok s3 [tr] →
    tr.dev = false → tr.p1.mem = .cached → tr.a.lane = 0 → tr.a.touches = [tr.a.pa / 128] → (s3.core n).thr.resv = some (tr.a.pa / 128) →
    (s3.core n).thr.llOk = true → (s3.core n).thr.llLen + 1 ≤ 16 → (s3.core n).thr.scSince < 16 →
    (∀ e ∈ s3.sbOf (.core n), e.2.line ≠ tr.a.pa / 128) →
    Runs (.scD (.core n) iw) s (fun t => (∃ q, t.ops.find? s3.ctr.tag = some q ∧ q.u = .core n ∧ q.kind = .sc ∧ q.rd = rd ∧
      q.lines.map (·.line) = [tr.a.pa / 128] ∧ q.accs.map (fun y => (y.va, y.pa, y.op1, y.old)) =
        [(tr.a.va, tr.a.pa, ((s3.core n).thr.getG b).toNat, 0)]) ∧ (t.core n).op = some s3.ctr.tag ∧
      (t.core n).thr.resv = some (tr.a.pa / 128) ∧ t.mem = s3.mem ∧ t.sb = s3.sb))

/-- The fences of R38 with the older stores that each awaits and the scope at which they must be performed (R218, R222,
R226, R227): all of them, or at GROUP or CORE but for device stores that their home has accepted and a processor core's cached
ones; none for an acquire; all for FENCE.IO and FENCE.I. -/
def fenceRow (s : State) (u : Agent) : Op → Option ((Agent → IWord → Instr) × List Nat × Nat)
  | .fence k scope =>
    let done := fun (e : SbE) => (e.mem == .nc && e.accepted) || (e.mem == .cached && match e.u with | .core _ => true | .grp .. => false)
    let rel := ((s.ownSb u).filter (fun e => !(decide (scope ≤ 1) && done e.2))).map (·.1)
    if k = 0 then some (.fence, rel, scope) else if k = 1 then some (.fenceAcq, [], 4) else if k = 2 then some (.fenceRel, rel, scope) else none
  | .fenceIo => some (.fenceIo, (s.ownSb u).map (·.1), 4)
  | .fenceI => some (.fenceI, (s.ownSb u).map (·.1), 4)
  | _ => none

/-- A fence that awaits nothing lets the unit go on at once; another waits for the stores it names (R236). FENCE.I empties
the fetch buffer of a compute-die core (R197). -/
def Parts.Fences : Prop :=
  (∀ s u iw x op s2 mk l sc, issued s u iw = some (x, op, s2) → fenceRow s2 u op = some (mk, l, sc) →
    exec (mk u iw) s = .next ((if op = .fenceI then s2.dropIbuf u else s2).runBarrier u { sids := l, adv := x.len, act := x.act.length, scope := sc } x.all)) ∧
  (∀ (s : State) c sl, ((s.dropIbuf (.grp c sl)).coreS c).ibuf = []) ∧
  (∀ s n iw op mk sc, CoreAt s n iw op → fenceRow s (.core n) op = some (mk, [], sc) →
    exec (mk (.core n) iw) s = .next (s.tlbiMove (coreTo s n iw (s.core n)) (.core n))) ∧
  (∀ (s t : State) u, (∀ e ∈ t.tlbi, e.2.units.elem u = false) → s.tlbiMove t u = t) ∧
  (∀ s n iw op mk l sc, CoreAt s n iw op → fenceRow s (.core n) op = some (mk, l, sc) → l ≠ [] →
    exec (mk (.core n) iw) s = .next (s.setCore n { s.core n with barrier := some { sids := l, adv := (decodeI iw).len, act := 1, scope := sc } }))

/-- PF.R and PF.W never fault (R39): the core goes on, and its registers, memory and the stores are as before. -/
def Parts.Prefetches : Prop :=
  ∀ s n iw w a, CoreAt s n iw (.pf w a) → isLocal (laneAddr s (.core n) a 0 0) = true →
    Runs (if w then .pfW (.core n) iw else .pfR (.core n) iw) s (fun t =>
      (t.core n).thr = { (s.core n).thr with pc := (s.core n).thr.pc + BitVec.ofNat 64 (decodeI iw).len } ∧
      t.mem = s.mem ∧ t.sb = s.sb ∧ t.regs = s.regs)

/-- R31, R220, R234 to R236, R240: the answer of a load's last line writes its register, extended as the instruction says,
and the core goes on; an error or poison takes BUS_ERROR or POISON in its place. The answer of a store takes it out of the
buffer; an error is recorded for its core, which a store beyond its bound gets as well. -/
def Parts.Answers : Prop :=
  (∀ s n tag line data p a size sgn fp, isMmio line = false → (s.core n).tagged = none → s.ops.find? tag = some p → p.u = .core n →
    p.kind = .load size sgn fp → p.accs = [a] → p.lines.map (fun r => (r.line, r.st, r.mem, r.lane)) = [(line, 0, .cached, none)] →
    a.lane = 0 → a.pa2 = none → a.size = size → a.pa / 128 = line → 0 < size → a.pa % 128 + size ≤ 128 →
    let v := lineBytes (s.forward (.core n) line data) (a.pa % 128) size
    let w : Word := if sgn then BitVec.ofInt 64 (sext (8 * size) v) else BitVec.ofNat 64 v
    Runs (.loadResponse tag line data false false) s (fun t =>
      (t.core n).op = none ∧ t.ops.find? tag = none ∧ t.mem = s.mem ∧ t.sb = s.sb ∧
      (t.core n).thr = { (if fp then (s.core n).thr.setF p.rd w else (s.core n).thr.setG p.rd w) with
        pc := (s.core n).thr.pc + BitVec.ofNat 64 p.len }) ∧
    (∀ poison err, (poison || err) = true → Runs (.loadResponse tag line data poison err) s (fun t =>
      Entered { s.core n with op := none } (t.core n) (toM (s.core n) (if err then 8 else 7)) (if err then 8 else 7) ∧
      t.ops.find? tag = none ∧ t.mem = s.mem ∧ t.sb = s.sb))) ∧
  (∀ s sid e, s.sb.find? sid = some e → s.barrierOf e.u = none → Runs (.storeResponse sid false) s (fun t =>
      t.sb.find? sid = none ∧ t.mem = s.mem ∧ t.ops = s.ops ∧ t.pd = s.pd)) ∧
  (∀ s sid e b, s.sb.find? sid = some e → s.barrierOf e.u = some b → Runs (.storeResponse sid false) s (fun t =>
      (b.sids.any (fun i => i ≠ sid) = true → t.barrierOf e.u = some { b with sids := b.sids.filter (fun i => i ≠ sid) } ∧
        t.sb.find? sid = none ∧ t.mem = s.mem))) ∧
  (∀ s sid e n, s.sb.find? sid = some e → e.u = .core n → e.word = false → e.orphan = false →
    s.fld .serrStatus n 0 0 1 = 0 → (s.core n).barrier = none →
    let bad (t : State) : Prop := t.sb.find? sid = none ∧ (t.core n).serr.map (·.va) = [e.va] ∧ t.mem = s.mem
    Runs (.storeResponse sid true) s bad ∧
    (e.sent = true → (e.mem = .mmio ∨ e.mem = .pcie ∨ e.mem = .remote ∨ e.mem = .unmapped) → e.since + e.bound ≤ s.now →
      Runs (.writeResponseTimeout sid) s bad))

end Sys2Proof

/-- Store conditional, fences, prefetches and the answers that complete pending instructions. -/
def Obligations.OrderingInstructions : Prop :=
  Sys2Proof.Parts.StoreConditional ∧ Sys2Proof.Parts.Fences ∧ Sys2Proof.Parts.Prefetches ∧ Sys2Proof.Parts.Answers

namespace Sys2Proof

/- Instructions of a group. -/

end Sys2Proof

/-- UPCALL stalls the group in the fault queue of its die with a service record; DBGTRAP halts the path set under a
debugger with EV_DBG_HALT, and takes a group fault otherwise; a failed store's error takes a group fault (R49, R235,
R250, R343). -/
def Obligations.TrapsOfGroups : Prop :=
  (∀ s c sl iw x s2 g, issued s (.grp c sl) iw = some (x, .upcall, s2) → s2.grp c sl = some g →
    let lane := (x.act.head?).getD 0
    exec (.upcall (.grp c sl) iw) s = .next (((s2.setGrp c sl { g with opLanes := x.all }).untag (.grp c sl) true).groupStall c sl lane 9 0
      x.pc.toNat 0 0 0 (if g.gn > 9 then ((g.lane lane).thr.getG 9).toNat else 0) true x.act.length x.len)) ∧
  (∀ s c sl iw x s2 g, issued s (.grp c sl) iw = some (x, .dbgtrap, s2) → s2.grp c sl = some g → s2.cp.attach = true →
    exec (.dbgtrap (.grp c sl) iw) s = .next ((s2.setGrp c sl
        { x.all.foldl (fun g1 i => g1.setLane i { g1.lane i with wait := .dbg }) g with dbgLen := x.len }).post evDbgHalt (c / 64)
        [(1, 1), (2, c), (8, x.pc.toNat)])) ∧
  (∀ s c sl iw x s2, issued s (.grp c sl) iw = some (x, .dbgtrap, s2) → s2.cp.attach = false →
    exec (.dbgtrap (.grp c sl) iw) s = .next (s2.raise x ((x.act.head?).getD 0) 12 0 x.pc 0 0)) ∧
  (∀ s c sl g e r, (Agent.grp c sl).wf = true → s.atBoundary (.grp c sl) = true → s.grp c sl = some g → g.serr = e :: r →
    exec (.storeBusError (.grp c sl)) s = .next (s.groupFault c sl e.lane 8 e.va e.pc.toNat 16 e.leaf.1 e.leaf.2))

namespace Sys2Proof

/-- An exchange within segments of sw lanes (R62): the lane that lane i reads, none where the instruction's edge rule keeps
or zeroes; k is R, FWD, BWD, FLIP, BCST and edge is KEEP, ZERO, WRAP. -/
def xlFrom (k edge sw d i idx : Nat) : Option Nat :=
  let b : Int := i / sw * sw
  let j : Int := at' [b + idx, (i : Int) + d, (i : Int) - d, ((i ^^^ d : Nat) : Int), b + d] 0 k
  if b ≤ j ∧ j < b + sw then some j.toNat else if edge = 2 then some (b + (j - b) % sw).toNat else none

/-- The group instructions of R62 over segments, each with its row, its segment field and the new thread of an active
lane i, from the segment's width, the active lanes and every lane's old thread. -/
def segRow : Op → Option ((Agent → IWord → Instr) × Nat × (Nat → List Nat → (Nat → Thr) → Nat → Thr))
  | .xl k fl edge seg d rd a b => if k < 5 then some (rowOf (.xl k fl edge seg d rd a b), seg, fun sw act old i =>
      let src := fun j => if fl then (old j).getF a else (old j).getG a
      let v : Word := match xlFrom k edge sw d i (((old i).getG b).toNat % 64) with
        | some j => if act.elem j then src j else 0
        | none => if edge = 0 then src i else 0
      if fl then (old i).setF rd v else (old i).setG rd v) else none
  | .lv k seg pd pa rd => if k < 6 then some (rowOf (.lv k seg pd pa rd), seg, fun sw act old i =>
      let here := act.filter (fun j => j / sw = i / sw)
      let set := here.filter (fun j => (old j).getP pa)
      let mask := fun (l : List Nat) => l.foldl (fun m j => m ||| BitVec.ofNat 64 (2 ^ j)) (0 : Word)
      if k = 0 then (old i).setP pd (here.all (fun j => (old j).getP pa))
      else if k = 1 then (old i).setP pd (here.any (fun j => (old j).getP pa))
      else if k = 2 then (old i).setG rd (mask set)
      else if k = 3 then (old i).setG rd (mask here)
      else if k = 4 then (old i).setP pd (here.all (fun j => i ≤ j))
      else (old i).setG rd (BitVec.ofNat 64 set.length)) else none
  | .fold k seg rd a => if k < 6 then some (.fold, seg, fun sw act old i =>
      let l := (act.filter (fun j => j / sw = i / sw)).map (fun j => (old j).getG a)
      (old i).setG rd (match l.reverse with
        | [] => 0
        | w :: r => r.foldl (fun acc y => at' [y + acc, if y.toInt ≤ acc.toInt then y else acc,
            if y.toInt ≤ acc.toInt then acc else y, y ||| acc, if y.toNat ≤ acc.toNat then y else acc,
            if y.toNat ≤ acc.toNat then acc else y] 0 k) w)) else none
  | _ => none

/-- R62, R63: every lane reads before any lane writes, the active lanes write their one register, and the group goes on; a
segment wider than the group is ILLEGAL. -/
def Parts.LaneExchanges : Prop :=
  ∀ op row, segRow op = some row → ∀ s c sl iw x s2 g, issued s (.grp c sl) iw = some (x, op, s2) → s2.grp c sl = some g →
    let sw := if row.2.1 = 0 then g.width else 2 ^ row.2.1
    (sw ≤ g.width → 0 < g.width → exec (row.1 (.grp c sl) iw) s = .next (
      let g1 := x.act.foldl (fun g1 i => g1.setThr i (row.2.2 sw x.act (fun j => (g.lane j).thr) i)) g
      ((s2.setGrp c sl g1).noteF (.grp c sl) op.fDst).next x)) ∧
    (sw > g.width → exec (row.1 (.grp c sl) iw) s = .next (s2.raiseWord x 1))

/-- GBAR is an arrival after the lanes' older writes of scope GROUP, TBAR one of scope CORE (R64, R65). With none
outstanding the lanes of the path set wait at the barrier, which opens when every lane of the group, for TBAR of the
team, has come. -/
def Parts.GroupBarriers : Prop :=
  (∀ s c sl iw x s2, issued s (.grp c sl) iw = some (x, .gbar, s2) →
    exec (.gbar (.grp c sl) iw) s = .next (s2.runBarrier (.grp c sl) { sids := s2.relStores (.grp c sl) 0, arrive := 1, act := x.act.length, scope := 0 } x.all)) ∧
  (∀ s c sl iw x s2, issued s (.grp c sl) iw = some (x, .tbar, s2) →
    exec (.tbar (.grp c sl) iw) s = .next (s2.runBarrier (.grp c sl) { sids := s2.relStores (.grp c sl) 1, arrive := 2, act := x.act.length, scope := 1 } x.all)) ∧
  (∀ s : State, ∀ c sl g k lanes n sc, s.grp c sl = some g → (k = 1 ∨ k = 2) →
    let s1 := s.setGrp c sl { g with opLanes := lanes }
    s.runBarrier (.grp c sl) { sids := [], arrive := k, act := n, scope := sc } lanes =
      s1.tlbiMove (((s1.setGrp c sl { g with opLanes := lanes, lanes := (upTo g.width).map (fun i =>
        if lanes.elem i then { g.lane i with wait := if k = 1 then .gbar else .tbar } else g.lane i) }).retire (.grp c sl) n).settle c sl) (.grp c sl))

end Sys2Proof

/-- Exchanges between lanes and barriers of groups and teams. -/
def Obligations.LaneExchanges : Prop :=
  Sys2Proof.Parts.LaneExchanges ∧ Sys2Proof.Parts.GroupBarriers

namespace Sys2Proof

/-- Engine that a slot's matrix instructions use (R56, R96). -/
def portEngine (c sl : Nat) : Nat := 4 * c + sl % 4

/-- A matrix instruction meets no error, or one that its engine corrects and counts (R106). -/
def eccState (s : State) (e : Nat) (ecc : Ecc) : State :=
  if ecc = .corrected then (s.incFld .mxStatus e 0 8 8).wsReport 2 else s

/-- R95, R96 to R101, R103: at convergence, on an engine that no channel holds, MLD.S binds and keeps the stationary
fragment, MMA and MMA.N write C + A × B of the bound fragment into the registers of the C fragment, and MST stores the
rows of C as ordinary stores. -/
def Parts.MatrixInstructions : Prop :=
  ∀ s c sl iw x op s2 g ecc, issued s (.grp c sl) iw = some (x, op, s2) → s2.grp c sl = some g →
    (∀ s0, s.fetchAll x false = (.ok s0, false) → (s0.tagIssue x).converged x = true) →
    (s2.eng (portEngine c sl)).owner = none → s2.mstElsewhere c sl = false → ecc ≠ .uncorrectable →
    let s3 := eccState s2 (portEngine c sl) ecc
    (∀ shape fmt a, op = .mlds shape fmt a → g.width ≠ 8 → (shape = 0 ∨ (shape = 1 ∧ g.width = 64)) → fmt ≤ 4 →
      let size := if shape = 1 then 4096 else 2048
      a + size / 8 / g.width ≤ g.fn →
      exec (.mldS (.grp c sl) iw ecc) s = .next ((s3.setGrp c sl { g with
        bind := some ⟨a, size / 8 / g.width, shape, fmt, readFrag g x.act a size⟩ }).next x)) ∧
    (∀ n shape fmt z rd b bd, op = .mma n shape fmt z rd b → mmaOk op g = true → g.bind = some bd →
      let csize := if shape = 1 then 16384 else 4096
      let bsize := if shape = 1 then 4096 else 2048
      let cw := if z then [] else readFrag g x.act rd csize
      let out := mmaAll n shape bd.fmt fmt s3.ctr.free bd.words (readFrag g x.act b bsize) (fun e => fragElt cw (4 * e) 4)
      exec (if n then .mmaN (.grp c sl) iw ecc else .mma (.grp c sl) iw ecc) s = .next (
        ((({ s3 with ctr := { s3.ctr with free := s3.ctr.free + 1 } } : State).setGrp c sl (writeFrag g x.act rd out)).noteF (.grp c sl)
          ((upTo (csize / 8 / g.width)).map (fun r => rd + r))).next x)) ∧
    (∀ shape ofmt sr sat iacc rd a b, op = .mst shape ofmt sr sat iacc rd a b → g.width ≠ 8 →
      (shape = 0 ∨ (shape = 1 ∧ g.width = 64)) → mstOut ofmt iacc = true →
      rd + (if shape = 1 then 16384 else 4096) / 8 / g.width ≤ g.fn →
      let lane := (x.act.head?).getD 0
      let addr := (g.lane lane).thr.getG a
      let pitch := (g.lane lane).thr.getG b
      let m := if shape = 1 then 64 else 32
      addr.toNat % (eltBits ofmt / 8) = 0 → pitch.toNat % (eltBits ofmt / 8) = 0 →
      exec (.mst (.grp c sl) iw ecc) s = .next (mstRows x c sl shape ofmt sr sat (readFrag g x.act rd (4 * m * m)) addr pitch (m - g.mstRow) s3))

/-- One row of MST (R96, R101): it draws once where the rounding is stochastic and its stores enter the buffer; a row of which
some bytes lie in lanes that are not active stores nothing. A row that fails its checks or finds no room in the buffer is the
next to be tried, and after the last row the group goes on. -/
def Parts.MatrixStoreRows : Prop :=
  ∀ x c sl shape ofmt sr sat cw addr pitch (s : State) g, s.grp c sl = some g →
    (mstRows x c sl shape ofmt sr sat cw addr pitch 0 s = (s.setGrp c sl { g with mstRow := 0 }).next x) ∧
    (∀ left, left < (if shape = 1 then 64 else 32) →
      let m := if shape = 1 then 64 else 32
      let i := m - (left + 1)
      let es := eltBits ofmt / 8
      let va := (addr + BitVec.ofNat 64 i * pitch).toNat
      let drawn (s1 : State) : State := if sr then s1.setReg .mxSeed (portEngine c sl) 0 (rngNext (s1.reg .mxSeed (portEngine c sl) 0)) else s1
      let row (s1 : State) : Nat := (upTo m).foldl (fun acc k =>
        let w := fragElt cw (4 * (m * i + k)) 4
        let bits := if sr then some (rngBits (rngNext (s1.reg .mxSeed (portEngine c sl) 0)) k) else none
        acc ||| (convElt ofmt sat bits (if ofmt = 4 ∨ ofmt = 12 then w else scaleY fpOne w) <<< (8 * es * k))) 0
      (((rowLanes g.width m i).any (fun j => !x.act.elem j) = true) → s.sbRoom x.u [] = true →
        mstRows x c sl shape ofmt sr sat cw addr pitch (left + 1) s = mstRows x c sl shape ofmt sr sat cw addr pitch left (drawn s)) ∧
      (∀ s1, (rowLanes g.width m i).all (fun j => x.act.elem j) = true →
        mstPieces s x ((x.act.head?).getD 0) es (cutLines va (m * es)) = .bad s1 →
        ∀ g1, s1.grp c sl = some g1 →
        mstRows x c sl shape ofmt sr sat cw addr pitch (left + 1) s = s1.setGrp c sl { g1 with mstRow := i }) ∧
      (∀ s1 l, (rowLanes g.width m i).all (fun j => x.act.elem j) = true →
        mstPieces s x ((x.act.head?).getD 0) es (cutLines va (m * es)) = .ok s1 l →
        let es' := mstStores (drawn s1) x va l (row s1)
        (s1.sbRoom x.u es' = false → mstRows x c sl shape ofmt sr sat cw addr pitch (left + 1) s = s.setGrp c sl { g with mstRow := i }) ∧
        (s1.sbRoom x.u es' = true → mstRows x c sl shape ofmt sr sat cw addr pitch (left + 1) s =
          mstRows x c sl shape ofmt sr sat cw addr pitch left (es'.foldl (fun s2 e => s2.sbAdd e) (drawn s1)))))

/-- R103: a path set that meets a matrix instruction before the group has converged waits there. -/
def Parts.MatrixConvergence : Prop :=
  ∀ s c sl iw x op s2, issued s (.grp c sl) iw = some (x, op, s2) →
    ((∃ f h a, op = .mlds f h a) ∨ (∃ n f h z r b, op = .mma n f h z r b) ∨ (∃ f o a b i r y z, op = .mst f o a b i r y z)) →
    ∀ s0, s.fetchAll x false = (.ok s0, false) → (s0.tagIssue x).converged x = false →
    exec (rowOf op (.grp c sl) iw) s = .next ((s0.tagIssue x).waitMat x)

end Sys2Proof

/-- Matrix instructions of a group, and when they wait or fault. -/
def Obligations.MatrixOperations : Prop :=
  Sys2Proof.Parts.MatrixInstructions ∧ Sys2Proof.Parts.MatrixStoreRows ∧ Sys2Proof.Parts.MatrixConvergence

namespace Sys2Proof

/-- R137: a hand-off instruction executes once for its path set. SCH.START starts a free channel at the descriptor and
writes 0, a busy one writes 1; SCH.POST counts up; SCH.WAIT passes when the signal counter has reached its target and
blocks before; SCH.START and SCH.POST are releases, whose effect comes when the older stores are complete (R236); SCH.STAT reads the channel's status. -/
def Parts.ChannelInstructions : Prop :=
  ∀ s c sl iw x op s2 g, issued s (.grp c sl) iw = some (x, op, s2) → s2.grp c sl = some g →
    let t := (g.lane ((x.act.head?).getD 0)).thr
    (∀ ch rd a, op = .schStart ch rd a → exec (.schStart (.grp c sl) iw) s = .next (s2.runBarrier (.grp c sl)
      { sids := s2.relStores (.grp c sl) 1, start := some (ch, (t.getG a).toNat, rd, x.act), adv := x.len, act := x.act.length, scope := 1 } x.all)) ∧
    (∀ ch scope, op = .schPost ch scope → exec (.schPost (.grp c sl) iw) s = .next (s2.runBarrier (.grp c sl)
      { sids := s2.relStores (.grp c sl) scope, post := some ch, adv := x.len, act := x.act.length, scope := scope } x.all)) ∧
    (∀ ch a rd act n, 0 < x.len → s2.barrierDone (.grp c sl) { start := some (ch, a, rd, act), adv := x.len, act := n, scope := 1 } =
      s2.tlbiMove ((act.foldl (fun s3 i => s3.setThr (.grp c sl) i ((s3.thr (.grp c sl) i).setG rd (if s2.chanBusy c ch then 1 else 0)))
        (if s2.chanBusy c ch then s2 else
          ((s2.setChan c ch { team := some g.team, lid := g.lid, pc := a, lastDesc := (s2.chan c ch).lastDesc, ord := (s2.chan c ch).ord }).setFld
            .tsChStatus c ch 0 2 1).setReg .tsChCount c ch 0)).finishLanes (.grp c sl) x.len false n) (.grp c sl)) ∧
    (∀ ch sc n, 0 < x.len → s2.frozen c ch = false → s2.barrierDone (.grp c sl) { post := some ch, adv := x.len, act := n, scope := sc } =
      s2.tlbiMove ((s2.addFld .tsChCount c ch 32 32).finishLanes (.grp c sl) x.len false n) (.grp c sl)) ∧
    (∀ ch a, op = .schWait ch a → (t.getG a).toNat ≤ s2.fld .tsChCount c ch 0 32 →
      exec (.schWait (.grp c sl) iw) s = .next (s2.next x)) ∧
    (∀ ch a, op = .schWait ch a → s2.fld .tsChCount c ch 0 32 < (t.getG a).toNat →
      exec (.schWait (.grp c sl) iw) s = .next (s2.waitHand x)) ∧
    (∀ ch rd, op = .schStat ch rd →
      exec (.schStat (.grp c sl) iw) s = .next ((s2.mapThr x (fun t => t.setG rd (s2.regNow .tsChStatus c ch))).next x))

/-- R137, R98, R126: TFENCE passes when the tile writes that its channels had started are complete; TS.RD of a FULL slot
copies its lines into the active lanes' registers, word w of the lines into register rd + w / width of lane w mod width;
TS.WR writes whole lines with zero for lanes that are not active; a slot that TS.RD frees is EMPTY, one that TS.WR marks
is FULL. -/
def Parts.TileInstructions : Prop :=
  ∀ s c sl iw x op s2 g, issued s (.grp c sl) iw = some (x, op, s2) → s2.grp c sl = some g →
    let t := (g.lane ((x.act.head?).getD 0)).thr
    (∀ mask scope, op = .tfence mask scope → (g.lane ((x.act.head?).getD 0)).await = none →
      (∀ e ∈ s2.twr, e.2.c = c → (mask >>> e.2.ch) % 2 = 0) →
      exec (.tfence (.grp c sl) iw) s = .next ((s2.setAwait x c sl none).next x)) ∧
    (∀ n free rd a k ln, op = .tsRd n free rd a → s2.tsLines g (t.getG a).toNat n rd = some (k, ln) →
      (s2.slot c k).st = 2 → (∀ i < n, (s2.slot c k).bad (ln + i) = false) →
      exec (.tsRd (.grp c sl) iw) s = .next (
        let g1 := (upTo (16 * n)).foldl (fun g1 w => if x.act.elem (w % g.width) then
          g1.setThr (w % g.width) ((g1.lane (w % g.width)).thr.setF (rd + w / g.width)
            (BitVec.ofNat 64 (lineBytes ((s2.slot c k).line (ln + w / 16)) (8 * (w % 16)) 8))) else g1) g
        let s3 := (s2.setGrp c sl g1).noteF (.grp c sl) ((upTo (ceilDiv (n * 16) g.width)).map (fun r => rd + r))
        (if free then s3.slotState c k 0 else s3).next x)) ∧
    (∀ n free rd a k ln, op = .tsRd n free rd a → s2.tsLines g (t.getG a).toNat n rd = some (k, ln) →
      (s2.slot c k).st ≠ 2 → exec (.tsRd (.grp c sl) iw) s = .next (s2.waitHand x)) ∧
    (∀ n mark a b k ln, op = .tsWr n mark a b → s2.tsLines g (t.getG a).toNat n b = some (k, ln) → (s2.slot c k).st ≠ 1 →
      exec (.tsWr (.grp c sl) iw) s = .next (
        let word := fun w => if x.act.elem (w % g.width) then ((g.lane (w % g.width)).thr.getF (b + w / g.width)).toNat else 0
        let k1 := (upTo n).foldl (fun k1 i => k1.put (ln + i)
          (BitVec.ofNat 1024 ((upTo 16).foldr (fun j acc => acc * 2 ^ 64 + word (16 * i + j)) 0)) false) (s2.slot c k)
        (if mark then (s2.setSlot c k k1).slotState c k 2 else s2.setSlot c k k1).next x))

end Sys2Proof

/-- Channel and tile instructions of a group. -/
def Obligations.ChannelsAndTiles : Prop :=
  Sys2Proof.Parts.ChannelInstructions ∧ Sys2Proof.Parts.TileInstructions

namespace Sys2Proof

/-- The commands of mailboxes with their opcodes (R333); some opcodes select their row by an argument of the command m. -/
def MailboxRow (f : Nat → Instr) (op : Nat) (m : Mbx) : Prop :=
  (f = .sysNop ∧ op = 1) ∨ (f = .sysInfo ∧ op = 2) ∨ (f = .sysDelegate ∧ op = 3) ∨ (f = .sysEvrConfig ∧ op = 4) ∨
  (f = .sysEvFetch ∧ op = 5) ∨ (f = .memCopy ∧ op = 0x101) ∨ (f = .memAdvise ∧ op = 0x102) ∨ (f = .dqCreate ∧ op = 0x201) ∨
  (f = .dqDisable ∧ op = 0x202) ∨ (f = .dqEnable ∧ op = 0x203) ∨ (f = .dqDestroy ∧ op = 0x204) ∨ (f = .dqQuery ∧ op = 0x205) ∨
  (f = .fabRtWrite ∧ op = 0x302) ∨ (f = .fabRtSwitch ∧ op = 0x303) ∨ (f = .fabCgCreate ∧ op = 0x310) ∨ (f = .fabCgDestroy ∧ op = 0x311) ∨
  (f = .wsSnapshot ∧ op = 0x401) ∨ (f = .wsCgExport ∧ op = 0x402) ∨ (f = .wsCgImport ∧ op = 0x403) ∨ (f = .pwrState ∧ op = 0x501) ∨
  (f = .pwrCap ∧ op = 0x502) ∨ (f = .pwrSlew ∧ op = 0x503) ∨ (f = .pwrLevelDraw ∧ op = 0x504) ∨ (f = .pwrQuery ∧ op = 0x505) ∨
  (f = .telRead ∧ op = 0x601) ∨ (f = .telAlertSet ∧ op = 0x602) ∨ (f = .secFwStage ∧ op = 0x701) ∨ (f = .secFwChunk ∧ op = 0x705) ∨
  (f = .seqCreate ∧ op = 0x801) ∨ (f = .seqExtend ∧ op = 0x802) ∨ (f = .seqTrim ∧ op = 0x803) ∨ (f = .seqMigrate ∧ op = 0x804) ∨
  (f = .seqRelayout ∧ op = 0x805) ∨ (f = .seqRetire ∧ op = 0x806) ∨ (f = .seqQuery ∧ op = 0x807) ∨ (f = .dbgAttach ∧ op = 0xF01) ∨
  (f = .dbgHalt ∧ op = 0xF02) ∨ (f = .dbgResume ∧ op = 0xF03) ∨ (f = .dbgRead ∧ op = 0xF04) ∨ (f = .dbgWrite ∧ op = 0xF05) ∨
  (∃ ok, f = (fun mb => .memSplitSet mb ok) ∧ op = 0x103) ∨
  (∃ ok, f = (fun mb => .fabConfig mb ok) ∧ op = 0x301) ∨
  (∃ ok, f = (fun mb => .secFwActivate mb ok) ∧ op = 0x702) ∨
  (f = .dqCoreDisable ∧ op = 0x206 ∧ m.arg 6 1 ≠ 1) ∨
  (f = .dqCoreEnable ∧ op = 0x206 ∧ m.arg 6 1 = 1) ∨
  (f = .fabPortDisable ∧ op = 0x304 ∧ m.arg 5 1 ≠ 1) ∨
  (f = .fabPortEnable ∧ op = 0x304 ∧ m.arg 5 1 = 1) ∨
  (f = .secAttestRead ∧ op = 0x703 ∧ m.arg 4 1 = 1) ∨
  (f = .secAttestPubkey ∧ op = 0x703 ∧ m.arg 4 1 = 2) ∨
  (f = .sysReset ∧ op = 6 ∧ m.arg 4 1 ≠ 5) ∨
  (f = .secIdRead ∧ op = 0x704 ∧ m.arg 4 1 ≠ 14) ∨
  (∃ ok, f = (fun mb => .secAttestCreate mb ok) ∧ op = 0x703 ∧ m.arg 4 1 ≠ 1 ∧ m.arg 4 1 ≠ 2)

/-- The commands whose object is the auxiliary site (R272), and those that name it by an argument. -/
def AuxRow (f : Nat → Instr) (op : Nat) (m : Mbx) : Prop :=
  (f = .fwGrantIn ∧ op = 0x720) ∨ (f = .fwGrantOut ∧ op = 0x721) ∨ (f = .fwGrantCmd ∧ op = 0x722) ∨ (f = .fwRevoke ∧ op = 0x723) ∨
  (f = .sysReset ∧ op = 6 ∧ m.arg 4 1 = 5) ∨ (f = .secIdRead ∧ op = 0x704 ∧ m.arg 4 1 = 14)

/-- R328, R333: a command that its mailbox may not issue answers ST_UNAUTHORISED and has no other effect (MB5's own mask has
its own statement); one with flags answers ST_BAD_ARG; a command of the auxiliary site answers ST_NOT_PRESENT where the
site is empty. -/
def Parts.MailboxChecks : Prop :=
  ∀ (s : State) f op mb, mb < 8 → mb ≠ 5 → (s.mbox mb).busy = true → (s.mbox mb).held = false → (s.mbox mb).waiting = false →
    (s.mbox mb).res = none → (s.mbox mb).remote = none → (s.mbox mb).opcode = op →
    let site := s.fld .fwStatus 0 0 0 1
    ((MailboxRow f op (s.mbox mb) ∨ (AuxRow f op (s.mbox mb) ∧ site = 1)) →
      (s.mayRun mb op = false → exec (f mb) s = .next (answer s mb 2)) ∧
      (s.mayRun mb op = true → (s.mbox mb).flags ≠ 0 → exec (f mb) s = .next (answer s mb 4))) ∧
    (AuxRow f op (s.mbox mb) → site = 0 → exec (f mb) s = .next (answer s mb 1))

/- Dispatch queues. -/

/-- R69: an 8 B store to the doorbell of an ACTIVE queue moves it forward within the ring, and rings beyond the ring or of
a queue that is not ACTIVE set DBERR; a value not above the doorbell, a smaller store and a page with no queue change
nothing. The store is answered. -/
def Parts.Doorbells : Prop :=
  ∀ (s : State) iss q v, q < 1024 → s.reach iss (regAddr .dqDoorbell q 0) = .ok →
    (∀ x, s.queues.find? q = some x → s.fld .dqStatus q 0 0 1 = 1 → (s.reg .dqDoorbell q 0).toNat < v.toNat →
      v.toNat ≤ (s.reg .dqRidx q 0).toNat + 2 ^ x.log2 →
      exec (.cdDqDoorbell iss q 8 v) s = .next (({ (s.setReg .dqDoorbell q 0 v) with queues := s.queues.set q { x with rung := s.now } } : State).wrote iss)) ∧
    (∀ x, s.queues.find? q = some x → s.fld .dqStatus q 0 0 1 = 1 → (s.reg .dqDoorbell q 0).toNat < v.toNat →
      (s.reg .dqRidx q 0).toNat + 2 ^ x.log2 < v.toNat →
      exec (.cdDqDoorbell iss q 8 v) s = .next ((s.setFld .dqStatus q 0 1 1 1).wrote iss)) ∧
    (∀ x, s.queues.find? q = some x → s.fld .dqStatus q 0 0 1 = 0 →
      exec (.cdDqDoorbell iss q 8 v) s = .next ((s.setFld .dqStatus q 0 1 1 1).wrote iss)) ∧
    (∀ x, s.queues.find? q = some x → s.fld .dqStatus q 0 0 1 = 1 → v.toNat ≤ (s.reg .dqDoorbell q 0).toNat →
      exec (.cdDqDoorbell iss q 8 v) s = .next (s.wrote iss)) ∧
    (∀ size, (size = 1 ∨ size = 2 ∨ size = 4) → exec (.cdDqDoorbell iss q size v) s = .next (s.wrote iss)) ∧
    (s.queues.find? q = none → exec (.cdDqDoorbell iss q 8 v) s = .next (s.wrote iss))

/-- A queue may take the packet at its read index, and the slot reads as d. -/
def slotReads (s : State) (q : Nat) (x : Queue) (s1 : State) (d : Line) : Prop :=
  s.queues.find? q = some x ∧ s.pwr.phase = .on ∧ s.fld .dqStatus q 0 0 1 = 1 ∧ x.cur = none ∧
  (s.reg .dqRidx q 0).toNat < (s.reg .dqDoorbell q 0).toNat ∧
  s.ncRead (x.ring / 128 + (s.reg .dqRidx q 0).toNat % 2 ^ x.log2) 1 = .ok s1 d false

/-- R71 to R73, R77: an empty slot is read again and nothing advances; a valid KERNEL packet becomes the queue's launch; a
BARRIER is consumed at once, and so is a packet that fails a check, which ends with ST_BAD_PACKET and starts no team. -/
def Parts.Packets : Prop :=
  ∀ s q x s1 d, slotReads s q x s1 d →
    let head := lineBytes d 0 2
    let lid := s1.ctr.lid
    let s2 : State := { s1 with ctr := { s1.ctr with lid := lid + 1 } }
    let l := launchOfPacket q (s.reg .dqRidx q 0).toNat x d
    exec (.emptySlotReread q) s = .next s1 ∧
    (head % 16 = 0 → exec (.packetConsume q) s = .next s1) ∧
    (packetOk d = true → head % 16 = 1 →
      exec (.packetConsume q) s = .next ((s2.setLaunch lid l).setQueue q { x with cur := some lid })) ∧
    (packetOk d = true → head % 16 = 2 → ∀ t, (s2.setLaunch lid l).consume q x lid = some t → exec (.packetConsume q) s = .next t) ∧
    (packetOk d = false → head % 16 ≠ 0 → ∀ t,
      (s2.setLaunch lid { l with bad := true, ended := true, barrier := false, compl := if l.compl % 8 = 0 then l.compl else 0 }).consume q x lid = some t →
      exec (.packetConsume q) s = .next t)

/-- R19, R52, R74: a team that starts is the launch's next one; each of its groups has the launch's width, and every lane
starts at the entry with the exit address in g1, the arguments in g2 and the team's place in g3 to g5. -/
def Parts.TeamsStart : Prop :=
  ∀ (s : State) c lid,
    let l := s.launchOf lid
    let t := s.startTeam c lid
    let n := l.started
    (t.launchOf lid).started = n + 1 ∧ (t.launchOf lid).live = l.live + 1 ∧
    (∃ m, t.teams.find? s.ctr.tid = some m ∧ m.lid = lid ∧ m.c = c ∧ m.x = n % l.tx ∧ m.y = n / l.tx % l.ty ∧ m.z = n / (l.tx * l.ty) ∧
      m.tiles = l.tiles ∧ m.live = m.slots ∧ ∀ sl ∈ m.slots, ∃ g, t.grp c sl = some g ∧ g.team = s.ctr.tid ∧ g.lid = lid ∧ g.width = l.width ∧
        ∀ i < l.width, (g.lane i).thr.pc = BitVec.ofNat 64 l.entry ∧ (g.lane i).thr.getG 1 = exitAddr ∧
          (g.lane i).thr.getG 2 = BitVec.ofNat 64 l.args ∧ (g.lane i).thr.getG 3 = BitVec.ofNat 64 m.x ∧
          (g.lane i).thr.getG 4 = BitVec.ofNat 64 m.y ∧ (g.lane i).thr.getG 5 = BitVec.ofNat 64 m.z) ∧
    t.mem = s.mem ∧ t.pd = s.pd

/-- R71, R75: a core starts a team of the best queue that has one for a core of its die, where that team fits it; the packet
is consumed with its last team. Where another core is the one that it fits, the core starts none. -/
def Parts.TeamStartCommand : Prop :=
  ∀ s c q x lid, c < 512 → s.pwr.phase = .on → bestQueue (s.startable (c / 64)) = some (q, x) → x.cur = some lid →
    let s1 := s.startTeam c lid
    let x1 := { x with rr := s1.ctr.age + 1 }
    let s2 := ({ s1 with ctr := { s1.ctr with age := s1.ctr.age + 1 } } : State).setQueue q x1
    (s.fits c (s.launchOf lid) = false → exec (.teamStart c) s = .next s) ∧
    (s.fits c (s.launchOf lid) = true → (s2.launchOf lid).started ≠ (s2.launchOf lid).total → exec (.teamStart c) s = .next s2) ∧
    (∀ t, s.fits c (s.launchOf lid) = true → (s2.launchOf lid).started = (s2.launchOf lid).total → s2.consume q x1 lid = some t → exec (.teamStart c) s = .next t)

end Sys2Proof

/-- Dispatch queues: doorbells, packets, and the start of teams. -/
def Obligations.Dispatch : Prop :=
  Sys2Proof.Parts.Doorbells ∧ Sys2Proof.Parts.Packets ∧ Sys2Proof.Parts.TeamsStart ∧ Sys2Proof.Parts.TeamStartCommand

namespace Sys2Proof

/-- R76, R78, R340: a packet that is over completes while a compute die is out of reset: with no completion word at once, otherwise when its word, the status
with the packet's number above it, is written to memory; the interrupt of its queue's core is pending if it asked for
one. -/
def Parts.PacketCompletion : Prop :=
  (∀ s q p lid l d, List.find? (fun (e : Nat × Launch) => e.2.q = q && e.2.pkt = p) s.launches = some (lid, l) →
    s.launches.find? lid = some l → s.launchOver lid l = true → l.wordStalled = false → s.complDie = some d →
    ((l.compl = 0 ∨ l.wordSkip = true) → exec (.packetCompletion q p) s = .next (s.packetDone lid l)) ∧
    (∀ s1 pa h w lf s2 dd pp, l.compl ≠ 0 → l.wordSkip = false →
      s.translate (.cd (64 * d) (s.asidOf lid)) .store l.compl = .ok s1 pa false h w lf → s1.memKind pa false = .cached →
      s1.ncPut pa (leBytes 8 (l.status + 2 ^ 16 * (l.pkt % 2 ^ 48))) 1 = .ok s2 dd pp →
      exec (.packetCompletion q p) s = .next (s2.packetDone lid l))) ∧
  (∀ (s : State) lid l, (s.packetDone lid l).launches = s.launches.del lid ∧ (s.packetDone lid l).mem = s.mem ∧
    (l.int = true → (s.packetDone lid l).fld .dqint l.intcore 0 0 1 = 1) ∧ (l.int = false → (s.packetDone lid l).regs = s.regs))

/-- R79: when its grace is over, or nothing is left, a disabled queue ends: what its launches still hold is cancelled, it is
no longer DRAINING, and the command that disabled it is answered; a disabled core likewise. -/
def Parts.DisableEnds : Prop :=
  (∀ (s : State) q x e, s.queues.find? q = some x → x.drainEnd = some e → (e ≤ s.now ∨ s.openOf q = []) →
    exec (.queueDisableCancel q) s = .next (
      let left := s.openOf q
      let n := x.cancelled + (left.filter (fun l => !l.2.bad && !s.launchOver l.1 l.2)).length
      (((s.cancelLaunches left).setQueue q { x with drainEnd := none, drainMb := none, cancelled := 0 }).setFld .dqStatus q 0 2 1 0).mbResult?
        x.drainMb 0 (leBytes 8 x.stopRidx ++ leBytes 4 n))) ∧
  (∀ (s : State) c e, c < 512 → (s.coreS c).drainEnd = some e → (e ≤ s.now ∨ s.teamsOn c = []) →
    exec (.coreDisableCancel c) s = .next (
      let lids := ((s.teamsOn c).map (fun t => t.2.lid)).eraseDups
      let s1 := s.cancelLaunches (lids.map (fun lid => (lid, s.launchOf lid)))
      (s1.setCoreS c { s1.coreS c with drainEnd := none, drainMb := none }).mbResult? (s.coreS c).drainMb 0))

/-- R337, R338: DQ_CREATE gives a free queue number its ring with indices zero, ACTIVE, and answers the number and the
doorbell's address; DQ_DISABLE makes the queue DRAINING and answers later; DQ_ENABLE makes a stopped queue ACTIVE with
its doorbell at the read index; DQ_DESTROY removes it; DQ_QUERY reads it. -/
def Parts.QueueCommands : Prop :=
  (∀ s mb s1 d p f, Ready s mb 0x201 [(4, 2), (6, 1), (7, 1), (8, 8), (0x10, 8), (0x18, 1), (0x1A, 2), (0x1C, 1), (0x20, 4)] →
    s.memOk = true → (argOf s mb 4 2 < 1024 ∨ argOf s mb 4 2 = 0xFFFF) → argOf s mb 6 1 ≤ 7 → argOf s mb 7 1 ≤ 1 →
    6 ≤ argOf s mb 0x18 1 → argOf s mb 0x18 1 ≤ 16 → argOf s mb 8 8 % 128 = 0 → argOf s mb 0x10 8 % 8 = 0 →
    localRange (argOf s mb 8 8) (128 * 2 ^ argOf s mb 0x18 1) = true → localRange (argOf s mb 0x10 8) 8 = true →
    (argOf s mb 0x10 8 < argOf s mb 8 8 ∨ argOf s mb 8 8 + 128 * 2 ^ argOf s mb 0x18 1 ≤ argOf s mb 0x10 8) →
    argOf s mb 0x1C 1 ≤ 63 → argOf s mb 0x20 4 ≤ 1000000 → s.queues.has (argOf s mb 4 2) = false → s.freeQueue = some f →
    s.ncPut (argOf s mb 0x10 8) (leBytes 8 0) 1 = .ok s1 d p →
    exec (.dqCreate mb) s = .next (
      let q := if argOf s mb 4 2 = 0xFFFF then f else argOf s mb 4 2
      let x : Queue := { ring := argOf s mb 8 8, ridxAddr := argOf s mb 0x10 8, log2 := argOf s mb 0x18 1, asid := argOf s mb 0x1A 2, prio := argOf s mb 6 1, intcore := argOf s mb 0x1C 1, grace := argOf s mb 0x20 4, qflags := argOf s mb 7 1 }
      (((((s1.setReg .dqDoorbell q 0 0).setReg .dqRidx q 0 0).setReg .dqStatus q 0 1).setQueue q x).mbResult mb 0
        (leBytes 8 q ++ leBytes 8 (0xF00040000000 + q * 0x4000))))) ∧
  (∀ s mb x, Ready s mb 0x202 [(4, 2), (8, 4)] → s.queues.find? (argOf s mb 4 2) = some x → (mb = 1 → (s.mbox 1).deleg = some x.asid) →
    s.fld .dqStatus (argOf s mb 4 2) 0 0 1 = 1 → x.cur = none → (argOf s mb 8 4 = 0xFFFFFFFF ∨ argOf s mb 8 4 ≤ 1000000) → x.grace ≤ 1000000 →
    exec (.dqDisable mb) s = .next (
      let q := argOf s mb 4 2
      let g := if argOf s mb 8 4 = 0xFFFFFFFF then x.grace else argOf s mb 8 4
      later (((s.setFld .dqStatus q 0 0 1 0).setFld .dqStatus q 0 2 1 1).setQueue q
        { x with drainEnd := some (s.now + g * 1000), drainMb := some mb, stopRidx := (s.reg .dqRidx q 0).toNat }) mb)) ∧
  (∀ s mb x, Ready s mb 0x203 [(4, 2)] → s.queues.find? (argOf s mb 4 2) = some x → mb ≠ 1 →
    s.fld .dqStatus (argOf s mb 4 2) 0 0 1 = 0 → s.fld .dqStatus (argOf s mb 4 2) 0 2 1 = 0 →
    exec (.dqEnable mb) s = .next (answer ((s.setReg .dqDoorbell (argOf s mb 4 2) 0 (s.reg .dqRidx (argOf s mb 4 2) 0)).setFld .dqStatus
      (argOf s mb 4 2) 0 0 1 1) mb 0)) ∧
  (∀ s mb x, Ready s mb 0x204 [(4, 2)] → s.queues.find? (argOf s mb 4 2) = some x → mb ≠ 1 →
    s.fld .dqStatus (argOf s mb 4 2) 0 0 1 = 0 → s.fld .dqStatus (argOf s mb 4 2) 0 2 1 = 0 →
    exec (.dqDestroy mb) s = .next (answer { s with queues := s.queues.del (argOf s mb 4 2) } mb 0)) ∧
  (∀ s mb x, Ready s mb 0x205 [(4, 2)] → s.queues.find? (argOf s mb 4 2) = some x → (mb = 1 → (s.mbox 1).deleg = some x.asid) →
    exec (.dqQuery mb) s = .next (
      let q := argOf s mb 4 2
      answer s mb 0 (leBytes 8 (s.reg .dqDoorbell q 0).toNat ++ leBytes 8 (s.reg .dqRidx q 0).toNat ++ leBytes 8 (s.reg .dqStatus q 0).toNat ++
        leBytes 4 ((s.openOf q).filter (fun e => e.2.started ≠ 0)).length ++ leBytes 1 x.prio ++ leBytes 1 x.qflags ++ leBytes 2 x.asid)))

/-- DQ_CORE_CTRL (R79, R338): a disabled core starts no team and answers later; enabling it ends that. -/
def Parts.CoreControl : Prop :=
  (∀ s mb, Ready s mb 0x206 [(4, 2), (6, 1), (8, 4)] → argOf s mb 4 2 < 512 → argOf s mb 6 1 = 0 → argOf s mb 8 4 ≤ 1000000 →
    (s.coreS (argOf s mb 4 2)).disabled = false → exec (.dqCoreDisable mb) s = .next (later (s.setCoreS (argOf s mb 4 2)
      { s.coreS (argOf s mb 4 2) with disabled := true, drainEnd := some (s.now + argOf s mb 8 4 * 1000), drainMb := some mb }) mb)) ∧
  (∀ s mb, Ready s mb 0x206 [(4, 2), (6, 1), (8, 4)] → argOf s mb 4 2 < 512 → argOf s mb 6 1 = 1 → argOf s mb 8 4 ≤ 1000000 →
    (s.coreS (argOf s mb 4 2)).disabled = true → (s.coreS (argOf s mb 4 2)).drainEnd = none →
    exec (.dqCoreEnable mb) s = .next (answer (s.setCoreS (argOf s mb 4 2) { s.coreS (argOf s mb 4 2) with disabled := false }) mb 0))

end Sys2Proof

/-- The end of a packet and of a disable, and the commands of queues and cores. -/
def Obligations.DispatchEnds : Prop :=
  Sys2Proof.Parts.PacketCompletion ∧ Sys2Proof.Parts.DisableEnds ∧ Sys2Proof.Parts.QueueCommands ∧ Sys2Proof.Parts.CoreControl

namespace Sys2Proof

/- Tile streamers. -/

/-- A channel decodes its next descriptor: it runs, END has not been decoded, no fetch of it stalls, its pc is aligned, and
the line of the pc is read from local memory (R127, R128, R422). -/
def descLine (s : State) (c ch : Nat) (s2 : State) (d : Line) : Prop :=
  c < 512 ∧ ch < 8 ∧ s.chanRuns c ch = true ∧ (s.chan c ch).ending = false ∧ (s.chan c ch).stall.elem 1 = false ∧
  (s.chan c ch).pc % 64 = 0 ∧ ∃ s1 pa dev h w, s.chanXlate c ch (s.chan c ch).pc (s.chan c ch).pc 1 = .ok s1 pa dev h w ∧
    (s1.memKind pa dev = .cached ∨ s1.memKind pa dev = .nc) ∧ s1.agentRead (c / 8) (pa / 128) 6 = .ok s2 d false

/-- R128, R130, R135, R136: a descriptor that fails a check halts the channel with ST_BAD_DESC; LOOP changes the indices and
the pc; END lets the channel end; any other enters the queues of its type when they have room, and decoding goes on at
the next one. A fetch error or poison halts the channel (R422). -/
def Parts.DescriptorsDecode : Prop :=
  (∀ s c ch s2 l, descLine s c ch s2 l →
    let x2 := s2.chan c ch
    let d0 := parseDesc l x2.pc x2.i0 x2.i1
    let d := { d0 with ord := x2.ord + 1, n0 := x2.cnt.get 0 x2.pc }
    let tiles := match x2.team with | some tid => (s2.teams.get {} tid).tiles | none => 0
    let good := d.ok (lineBytes l (x2.pc % 128 + 56) 8) tiles (s2.launchOf x2.lid).remote x2.bound
    (good = false → exec (.descriptorDecode c ch) s = .next ((s2.setChan c ch { x2 with lastDesc := x2.pc, fetched := none }).chanHalt c ch x2.pc 1 0 0x0211)) ∧
    (good = true → d.op = 0x1F → exec (.descriptorDecode c ch) s = .next (s2.setChan c ch { x2 with lastDesc := x2.pc, fetched := none, ending := true })) ∧
    (good = true → d.op = 0x13 → exec (.descriptorDecode c ch) s = .next (s2.setChan c ch { x2 with
      lastDesc := x2.pc, fetched := none,
      i0 := if d.p0 % 2 = 0 then (if d.i0 < d.count then d.i0 + 1 else 0) else (if d.i1 < d.count then 0 else d.i0),
      i1 := if d.p0 % 2 = 0 then d.i1 else (if d.i1 < d.count then d.i1 + 1 else 0),
      pc := if (if d.p0 % 2 = 0 then d.i0 else d.i1) < d.count then d.adr else (x2.pc + 64) % 2 ^ 64 })) ∧
    (good = true → d.isMem = true → accUsed x2.acc < 16 → exec (.descriptorDecode c ch) s = .next (s2.setChan c ch { x2 with
      lastDesc := x2.pc, fetched := none, pc := (x2.pc + 64) % 2 ^ 64, ord := x2.ord + 1,
      cnt := x2.cnt.set x2.pc (d.n0 + d.count), acc := x2.acc ++ [d] })) ∧
    (good = true → d.isMem = true → 16 ≤ accUsed x2.acc → exec (.descriptorDecode c ch) s = .next s)) ∧
  (∀ s c ch poison, c < 512 → ch < 8 → s.chanRuns c ch = true → (s.chan c ch).ending = false → (s.chan c ch).stall.elem 1 = false →
    exec (.descriptorFetchError c ch poison) s = .next ((s.setChan c ch { s.chan c ch with fetching := false }).chanHalt
      c ch (s.chan c ch).pc (if poison then 7 else 8) 0 0x0201))

/-- The channel's next tile of a direction may issue. -/
def tileNext (s : State) (c ch : Nat) (write : Bool) (d : Desc) : Prop :=
  c < 512 ∧ ch < 8 ∧ s.chanRuns c ch = true ∧ (s.chan c ch).stall.elem (if write then 3 else 2) = false ∧
  nextMem write (s.chan c ch).acc = some d ∧
  (if write then (s.slot c (s.tileSlot c ch d)).st = 2 ∧
      (∀ e ∈ s.twr, e.2.c = c → e.2.ch = ch → e.2.slot = s.tileSlot c ch d → e.2.free = false)
   else (s.slot c (s.tileSlot c ch d)).st = 0 ∧ s.coreInflight c < 96 ∧ s.inflight c ch < s.fld .tsChCtrl c ch 0 7)

/-- R128, R129, R131, R139: a tile read issues into an EMPTY slot, which is then FILLING, with the deadline of its descriptor
or of its channel; a tile write issues from a FULL slot. The descriptor's tile count goes up, and every line leaves. A
gather first asks for its lookup (R151). -/
def Parts.TilesIssue : Prop :=
  ∀ s c ch d, (tileNext s c ch false d →
      let sl := s.tileSlot c ch d
      let begun (s1 : State) (n : Nat) (look : Bool) : State :=
        let s2 : State := { s1 with ctr := { s1.ctr with tag := s1.ctr.tag + 1 } }
        let s3 := (s2.setSlot c sl { s2.slot c sl with st := 1, part := 0 }).descIssued c ch d.ord
        let y : TileRd := { c := c, slot := sl, ch := ch, ord := d.ord, lid := (s.chan c ch).lid, k := d.k, deadline := s.now + 1000 * (if d.deadline = 0 then s.fld .tsChCtrl c ch 8 16 else d.deadline), issued := s.now, nln := n, look := look }
        { s3 with trd := s3.trd.set s1.ctr.tag y }
      (∀ s1 plan, d.op ≠ 4 → s.planTile c ch d false = .inr (s1, plan) →
        exec (.tileReadIssue c ch) s = .next ((begun s1 plan.length false).tileGo c s1.ctr.tag false plan)) ∧
      (d.op = 4 → exec (.tileReadIssue c ch) s = .next ((begun s 64 true).gatherStart c ch d d.k s.ctr.tag false))) ∧
    (tileNext s c ch true d →
      let begun (s1 : State) (n : Nat) (look : Bool) : State :=
        let s3 := ({ s1 with ctr := { s1.ctr with tag := s1.ctr.tag + 1 } } : State).descIssued c ch d.ord
        let y : TileWr := { c := c, slot := s.tileSlot c ch d, ch := ch, ord := d.ord, lid := (s.chan c ch).lid, k := d.k, free := d.flag 1, left := upTo n, look := look }
        { s3 with twr := s3.twr.set s1.ctr.tag y }
      (∀ s1 plan, d.op ≠ 4 → s.planTile c ch d true = .inr (s1, plan) →
        exec (.tileWriteIssue c ch) s = .next ((begun s1 plan.length false).tileGo c s1.ctr.tag true plan)) ∧
      (d.op = 4 → exec (.tileWriteIssue c ch) s = .next ((begun s 64 true).gatherStart c ch d d.k s.ctr.tag true)))

/-- R125, R126: a line of a tile read is stored in its slot, the poison bit following it, and is counted as arrived; with
the last one the slot is FULL. A line that has come, one past the tile, and one of a tile that has ended change nothing
but the message. -/
def Parts.TileLines : Prop :=
  let turn (s : State) (id ln : Nat) : Prop := s.inTurn (fun m => match m with | .dat w _ _ _ => w == .tileR id ln | _ => false) = true
  (∀ (s : State) id ln d p r, turn s id ln → s.trd.find? id = some r → r.got.elem ln = false → ln < r.nln → r.got.length + 1 < r.nln →
    Runs (.tileLineArrival id ln d p false) s (fun t =>
      (t.slot r.c r.slot).line ln = d ∧ (ln < 64 → (t.slot r.c r.slot).bad ln = p) ∧
      (∀ i, i ≠ ln → (t.slot r.c r.slot).line i = (s.slot r.c r.slot).line i) ∧
      (t.trd.find? id).map (fun r1 => (r1.got, r1.deadline, r1.nln)) = some (ln :: r.got, r.deadline, r.nln) ∧
      t.mem = s.mem ∧ t.regs = s.regs)) ∧
  (∀ (s : State) id ln d p r, turn s id ln → s.trd.find? id = some r → r.got.elem ln = false → ln < r.nln → r.got.length + 1 = r.nln →
    exec (.tileLineArrival id ln d p false) s = .next (
      let s1 := s.took (fun m => match m with | .dat w _ _ _ => w == .tileR id ln | _ => false)
      let r1 := { r with got := ln :: r.got, pz := if p && 64 ≤ ln then r.pz ||| scaleMask ln else r.pz }
      ({ s1.setSlot r.c r.slot ((s.slot r.c r.slot).put ln d p) with trd := s.trd.set id r1 } : State).readEnd id 0)) ∧
  (∀ (s : State) id ln d p r, turn s id ln → s.trd.find? id = some r → r.got.elem ln = false → ln < r.nln →
    exec (.tileLineArrival id ln d p true) s = .next (
      (s.took (fun m => match m with | .dat w _ _ _ => w == .tileR id ln | _ => false)).readEnd id 3)) ∧
  (∀ (s : State) id ln d p f, turn s id ln → (s.trd.find? id = none ∨ ∃ r, s.trd.find? id = some r ∧ (r.got.elem ln = true ∨ r.nln ≤ ln)) →
    exec (.tileLineArrival id ln d p f) s = .next (s.took (fun m => match m with | .dat w _ _ _ => w == .tileR id ln | _ => false)))

/-- R129, R139: a tile read that ends leaves its slot FULL, every line that has not come poisoned, and no read of that tile
in flight; a deadline that has passed ends it so with DEADMISS. -/
def Parts.TileReadsEnd : Prop :=
  (∀ s c sl id r, c < 512 → sl < 128 → List.find? (fun (e : Nat × TileRd) => e.2.c = c && e.2.slot = sl) s.trd = some (id, r) →
    r.deadline ≤ s.now → exec (.tileDeadlineExpiry c sl) s = .next (s.readEnd id 2)) ∧
  (∀ s c sl id r, c < 512 → sl < 128 → List.find? (fun (e : Nat × TileRd) => e.2.c = c && e.2.slot = sl) s.trd = some (id, r) →
    s.now < r.deadline → exec (.tileDeadlineExpiry c sl) s = .next s)

/-- R131, R139: the acceptance of a line of a tile write leaves that line no longer awaited; with the last one the write is
over, its slot is EMPTY where the descriptor frees it, and a failure sets TIERERR. -/
def Parts.TileWritesEnd : Prop :=
  let turn (s : State) (id ln : Nat) : Prop := s.inTurn (fun m => match m with | .dat w _ _ _ => w == .tileW id ln | _ => false) = true
  (∀ (s : State) id ln w, turn s id ln → s.twr.find? id = some w → w.left.elem ln = true → w.left.any (fun i => i ≠ ln) = true →
    Runs (.tileWriteAccept id ln false) s (fun t => (t.twr.find? id).map (·.left) = some (w.left.filter (fun i => i ≠ ln)) ∧
      t.cores = s.cores ∧ t.mem = s.mem ∧ t.regs = s.regs)) ∧
  (∀ (s : State) id ln fail w, turn s id ln → s.twr.find? id = some w → w.left.elem ln = true → w.left.any (fun i => i ≠ ln) = false →
    exec (.tileWriteAccept id ln fail) s = .next (
      let s0 := s.took (fun m => match m with | .dat w _ _ _ => w == .tileW id ln | _ => false)
      let s1 := if fail then s0.tierError w.c w.ch w.lid 3 else s0
      let s2 : State := { s1 with twr := s.twr.del id }
      (if w.free && (s2.slot w.c w.slot).st == 2 then s2.slotState w.c w.slot 0 else s2.wakeHand w.c).descTile w.c w.ch w.ord))

end Sys2Proof

/-- Tile reads and writes: issue, their lines, and their ends. -/
def Obligations.Tiles : Prop :=
  Sys2Proof.Parts.TilesIssue ∧ Sys2Proof.Parts.TileLines ∧ Sys2Proof.Parts.TileReadsEnd ∧ Sys2Proof.Parts.TileWritesEnd

namespace Sys2Proof

/-- R127, R135: SIGNAL waits for every earlier write and output and counts up, TFENCE waits for them alone, WAIT waits for
the post counter, and END ends the channel when every earlier descriptor is complete. -/
def Parts.SynchronisingDescriptors : Prop :=
  ∀ s c ch, c < 512 → ch < 8 → s.chanRuns c ch = true →
    (∀ d, reachedSync (s.chan c ch) 0x11 = some d → earlierDone (s.chan c ch) d = true →
      exec (.signal c ch) s = .next (((s.syncDone c ch d.ord).addFld .tsChCount c ch 0 32).wakeHand c)) ∧
    (∀ d, reachedSync (s.chan c ch) 0x10 = some d → earlierDone (s.chan c ch) d = true →
      exec (.tfenceDescriptor c ch) s = .next (s.syncDone c ch d.ord)) ∧
    (∀ d, reachedSync (s.chan c ch) 0x12 = some d → d.p1 ≤ s.fld .tsChCount c ch 32 32 → exec (.wait c ch) s = .next (s.syncDone c ch d.ord)) ∧
    (∀ d, reachedSync (s.chan c ch) 0x12 = some d → s.fld .tsChCount c ch 32 32 < d.p1 → exec (.wait c ch) s = .next s) ∧
    (∀ d, reachedSync (s.chan c ch) 0x11 = some d → earlierDone (s.chan c ch) d = false → exec (.signal c ch) s = .next s) ∧
    ((s.chan c ch).ending = true → (s.chan c ch).acc = [] → (s.chan c ch).exe = [] →
      exec (.endComplete c ch) s = .next ((s.endChan c ch 0 0).wakeHand c))

end Sys2Proof

/-- Tile streamers: fetch and checks of a descriptor, and the descriptors that synchronise. -/
def Obligations.StreamerDescriptors : Prop :=
  Sys2Proof.Parts.DescriptorsDecode ∧ Sys2Proof.Parts.SynchronisingDescriptors

namespace Sys2Proof

/-- R151, R159: the record's die resolves a channel's oldest lookup, and the streamer takes the result, from which the tiles of
that block go on; the lookup of a descriptor that has gone is over, and a move that waited for it with it. -/
def Parts.GatherLookups : Prop :=
  ∀ (s : State) c ch, c < 512 → ch < 8 →
    (∀ l s1 l1, s.seq.looks.find? (fun l => l.c == c && l.ch == ch && l.st == 0) = some l → s.resolve l = some (s1, l1) →
      exec (.gatherLookup c ch) s = .next { s1 with seq := { s1.seq with looks := s1.seq.looks.map (fun x => if x.n = l.n then l1 else x) } }) ∧
    (∀ l, s.seq.looks.find? (fun l => l.c == c && l.ch == ch && l.st == 1) = some l →
      exec (.lookupResponse c ch) s = .next (
        let mine (o k : Nat) (look : Bool) : Bool := look && o == l.ord &&
          (match s.descOf c ch l.ord with | some d => d.tokOf k / 128 == l.blk | none => false)
        let s1 : State := { s with seq := { s.seq with
          looks := s.seq.looks.map (fun (x : Lookup) => if x.n = l.n then { x with st := 2 } else x) } }
        let s2 := (List.filter (fun (e : Nat × TileRd) => e.2.c = c && e.2.ch = ch && mine e.2.ord e.2.k e.2.look) s1.trd).foldl
          (fun (s2 : State) (e : Nat × TileRd) => s2.gatherGo c ch l.ord e.2.k e.1 false { l with st := 2 }) s1
        let s3 := (List.filter (fun (e : Nat × TileWr) => e.2.c = c && e.2.ch = ch && mine e.2.ord e.2.k e.2.look) s2.twr).foldl
          (fun (s3 : State) (e : Nat × TileWr) => s3.gatherGo c ch l.ord e.2.k e.1 true { l with st := 2 }) s2
        s3.dropLooks (fun x => x.n == l.n && (s3.descOf c ch l.ord).isNone)))

/- Engines of a channel's program. -/

/-- The next descriptor of operation eop of a channel has its turn (R81, R94, R125, R129): its channel binds the engine,
nothing before it or running holds it back, and its slots are in the states that it needs. -/
def engTurn (s : State) (c ch eop : Nat) (d : Desc) : Prop :=
  c < 512 ∧ ch < 8 ∧ s.chanRuns c ch = true ∧ ∃ pre, nextExe eop [] (s.chan c ch).exe = some (d, pre) ∧
    (s.eng (4 * c + d.p0 % 4)).owner = some ch ∧ engOk (s.eng (4 * c + d.p0 % 4)) d = true ∧
    pre.any (fun f => s.holdsBack c ch ch f d) = false ∧ s.engFree c ch d = true ∧ s.slotsReady c ch d = true

/-- The engine after an operation's computation (R83 to R85, R89, R90): SLOAD loads the shadow copy, SWAP exchanges the
copies and their formats, WEST and NORTH accumulate into banks, SMAX makes probabilities of a bank, SMRESET resets the
softmax state, SLIMIT loads the limits from two lines. -/
def engResult (s : State) (c ch : Nat) (d : Desc) (x : Engine) : Engine :=
  let tiles := (s.descSlots c ch d).map (fun i => s.slot c i)
  let ln (h : Nat) : Line × Bool :=
    let t := s.slot c (s.tileSlot c ch { slot := (d.adr + h) / 64, slotn := 1 })
    (t.line ((d.adr + h) % 64), t.bad ((d.adr + h) % 64))
  match d.eop with
  | 0 => { x with shadow := { at' tiles {} 0 with st := 0, part := 0 }, shFmt := some d.fmt }
  | 1 => { x with act := x.shadow, shadow := x.act, actFmt := x.shFmt, shFmt := x.actFmt }
  | 2 => x.west d.bank d.fmt d.zero s.ctr.free tiles
  | 3 => x.north d.bank d.fmt d.col d.zero (d.flag 4) s.ctr.free tiles
  | 5 => x.smax d.bank (d.p1 % 2 ^ 32) d.tb.toNat d.fmt d.col
  | 7 => { x with m := [], ls := [], pend := [], limit := [], smPoison := 0 }
  | 8 => x.slimit (ln 0) (ln 1)
  | _ => x

/-- An operation that has its turn starts: its engine computes, and it is busy until its clocks have passed (R93); the
output operations take their slots, which are then FILLING. Memory and the other engines are as before. -/
def Parts.EngineOperations : Prop :=
  let row (eop c ch : Nat) (i : Instr) : Prop :=
    (eop = 0 ∧ i = .sload c ch) ∨ (eop = 1 ∧ i = .swap c ch) ∨ (eop = 2 ∧ i = .west c ch .good) ∨ (eop = 3 ∧ i = .north c ch .good) ∨
    (eop = 5 ∧ i = .smax c ch .good) ∨ (eop = 7 ∧ i = .smreset c ch) ∨ (eop = 8 ∧ i = .slimit c ch)
  ∀ s c ch eop d i, row eop c ch i → engTurn s c ch eop d → Runs i s (fun t =>
    let e := 4 * c + d.p0 % 4
    (∃ o, t.eng e = { engResult s c ch d (s.eng e) with busy := (s.eng e).busy ++ [o] } ∧ o.ch = ch ∧ o.d = d ∧
      o.startClk = s.cdClk ∧ o.endClk = s.cdClk + d.clocks ∧ o.dst = []) ∧
    (∀ f, f ≠ e → t.eng f = s.eng f) ∧ t.mem = s.mem ∧ (∀ k, t.slot c k = s.slot c k) ∧
    (t.chan c ch).exe = (s.chan c ch).exe.map (fun f => if f.ord = d.ord then { f with started := true } else f))

/-- DRAIN and NORM start likewise (R87, R92); the engine's banks stay, the seed takes the last draw of the rows that round
stochastically (R88), and an operation ends by making its destination slots FULL, its freed source slots EMPTY, and its
descriptor complete (R94, R125, R127). -/
def Parts.EngineOutputs : Prop :=
  (∀ s c ch eop d ecc, (eop = 4 ∨ eop = 6) → engTurn s c ch eop d →
    exec (if eop = 4 then .drain c ch ecc else .norm c ch ecc) s = .next (s.engStart c ch d ecc)) ∧
  (∀ (s : State) c ch (d : Desc), c < 512 → d.eop = 4 →
    let t := s.engStart c ch d .good
    let e := 4 * c + d.p0 % 4
    (t.eng e).banks = (s.eng e).banks ∧ t.mem = s.mem ∧ (d.part = 0 → ∀ i ∈ s.descSlots c ch d, (t.slot c i).st = 1) ∧
    t.reg .mxSeed e 0 = (if d.flag 7 then (upTo 64).foldl (fun x _ => rngNext x) (s.reg .mxSeed e 0) else s.reg .mxSeed e 0)) ∧
  (∀ s e o, e < 2048 → firstOp (s.eng e).busy = some o → o.endClk ≤ s.cdClk →
    exec (.engineOpComplete e) s = .next (
      let s1 := s.setEng e { s.eng e with busy := eraseFirst (fun p => p == o) (s.eng e).busy }
      let s2 := o.src.foldl (fun s2 i => s2.slotState (e / 4) i 0) s1
      let s3 := o.dst.foldl (fun s3 i => if o.d.eop = 4 ∧ o.d.part + 1 < partsOf o.d.fmt then
        s3.setSlot (e / 4) i { s3.slot (e / 4) i with part := o.d.part + 1 } else s3.slotState (e / 4) i 2) s2
      ((s3.setChan (e / 4) o.ch { s3.chan (e / 4) o.ch with
        exe := (s3.chan (e / 4) o.ch).exe.filter (fun f => !(f.ord == o.d.ord && f.started)) }).wakeHand (e / 4)).chSettle (e / 4) o.ch)) ∧
  (∀ s e o, e < 2048 → firstOp (s.eng e).busy = some o → s.cdClk < o.endClk → exec (.engineOpComplete e) s = .next s)

/-- BIND takes a free engine for its channel and UNBIND ends the binding once nothing runs (R95, R134): the banks and
copies of a new binding hold values that nothing constrains and the softmax state is reset. An operation on an engine that
the channel does not bind halts the channel with ST_BAD_DESC (R136). -/
def Parts.EngineBindings : Prop :=
  (∀ s c ch d pre, c < 512 → ch < 8 → s.chanRuns c ch = true → nextExe 9 [] (s.chan c ch).exe = some (d, pre) →
    pre.any (fun f => s.holdsBack c ch ch f d) = false → (s.eng (4 * c + d.p0 % 4)).owner = none → Runs (.bind c ch) s (fun t =>
      let x := t.eng (4 * c + d.p0 % 4)
      x.owner = some ch ∧ x.busy = [] ∧ x.m = [] ∧ x.ls = [] ∧ x.pend = [] ∧ x.limit = [] ∧ x.bankFill = some s.ctr.free ∧
      t.reg .mxBind (4 * c + d.p0 % 4) 0 = BitVec.ofNat 64 (1 + 2 * ch) ∧ t.mem = s.mem ∧
      (t.chan c ch).exe = (s.chan c ch).exe.filter (fun f => f.ord ≠ d.ord))) ∧
  (∀ s c ch d pre, c < 512 → ch < 8 → s.chanRuns c ch = true → nextExe 10 [] (s.chan c ch).exe = some (d, pre) →
    pre.any (fun f => s.holdsBack c ch ch f d) = false → (s.eng (4 * c + d.p0 % 4)).owner = some ch → (s.eng (4 * c + d.p0 % 4)).busy = [] →
    exec (.unbind c ch) s = .next (((s.unbindEng (4 * c + d.p0 % 4)).bindDone c ch d.ord).wakeHand c)) ∧
  (∀ s c ch d, c < 512 → ch < 8 → s.chanRuns c ch = true → nextExe 7 [] (s.chan c ch).exe = some (d, []) →
    (s.eng (4 * c + d.p0 % 4)).owner ≠ some ch → exec (.smreset c ch) s = .next (s.chanHalt c ch d.addr 1 0 0x0211))

/-- R82, R84: in INT8, word j of row i of the bank is its old value, or zero, plus the products of line i of the stationary
copy with line j of every streamed tile, modulo 2^32. -/
def Parts.WestInt8 : Prop :=
  ∀ (x : Engine) b zero stamp tiles i j, b < 4 → i < 64 → j < 64 → x.actFmt = some 4 →
    let s8 (l : Line) (k : Nat) : Int := sext 8 (lineByte l k).toNat
    ((at' ((x.west b 4 zero stamp tiles).row b i) 0 j : Nat) : Int) =
      ((if zero then 0 else ((at' (x.row b i) 0 j : Nat) : Int)) +
        (tiles.map (fun t => ((upTo 128).map (fun k => s8 (x.act.line i) k * s8 (t.line j) k)).sum)).sum) % 2 ^ 32

/-- R88, R109, R421: a store to an engine's seed register replaces its bytes, and a value of zero stores 1; no engine draws
while none runs a rounding output. -/
def Parts.SeedWrites : Prop :=
  ∀ (s : State) iss e size v, e < 2048 → (size = 1 ∨ size = 2 ∨ size = 4 ∨ size = 8) → (∀ o ∈ (s.eng e).busy, o.draws = []) →
    s.reach iss (regAddr .mxSeed e 0) = .ok → exec (.cdMxSeedWrite iss e size v) s = .next (
      let w := setBits (s.reg .mxSeed e 0) 0 (8 * size) v.toNat
      (s.setReg .mxSeed e 0 (if w = 0 then 1 else w)).wrote iss)

end Sys2Proof

/-- Matrix engines: operations, outputs, bindings and seeds. -/
def Obligations.MatrixEngines : Prop :=
  Sys2Proof.Parts.EngineOperations ∧ Sys2Proof.Parts.EngineOutputs ∧ Sys2Proof.Parts.EngineBindings ∧ Sys2Proof.Parts.WestInt8 ∧ Sys2Proof.Parts.SeedWrites

namespace Sys2Proof

/- The sequence directory. -/

/-- A sequence command in progress that may run: memory is enabled, its context holds a live record, for MB1 of the address
space delegated to it, and its unused bytes are zero (R153). -/
def SeqReady (s : State) (mb op : Nat) (fields : List (Nat × Nat)) (r : SeqRec) : Prop :=
  Ready s mb op ((4, 4) :: fields) ∧ s.memOk = true ∧ argOf s mb 4 4 < 262144 ∧ s.seqRec (argOf s mb 4 4) = r ∧ r.live = true ∧
  (mb = 1 → (s.mbox 1).deleg = some r.asid)

/-- R155 to R158: SEQ_CREATE makes a record of an unused context, its table cleared unless it is adopted, and no
cached line of that table stays; SEQ_EXTEND writes
the new blocks' entries and then the length; SEQ_TRIM writes the length and then clears entries; SEQ_RETIRE empties the
record and answers what it held, as SEQ_QUERY does (R147). -/
def Parts.SequenceRecords : Prop :=
  (∀ s mb, Ready s mb 0x801 [(4, 4), (8, 8), (0x10, 8), (0x18, 2), (0x1A, 1), (0x1B, 1), (0x1C, 2), (0x20, 4)] → mb ≠ 1 → s.memOk = true →
    argOf s mb 4 4 < 262144 → (s.seqRec (argOf s mb 4 4)).live = false →
    let ctx := argOf s mb 4 4
    let w := argOf s mb 0x10 8
    let layers := argOf s mb 0x18 2
    let len := argOf s mb 0x20 4
    0 < layers → layers ≤ 1024 → 0 < argOf s mb 0x1A 1 → argOf s mb 0x1A 1 ≤ 64 → s.twOk ctx w layers = true →
    len ≤ 2 ^ 22 → len ≤ twCap w →
    let new : SeqRec := { live := true, seqid := argOf s mb 8 8, length := len, layers := layers, rowb := argOf s mb 0x1A 1, asid := argOf s mb 0x1C 2, root0 := w }
    (argOf s mb 0x1B 1 = 1 → exec (.seqCreate mb) s = .next (answer ((s.setRec ctx new).btcForget (twArea w / 128) (layers * twStride w)) mb 0)) ∧
    (∀ s2 bad, argOf s mb 0x1B 1 = 0 → len = 0 →
      ((s.setRec ctx new).btcForget (twArea w / 128) (layers * twStride w)).tableUpds ctx false (fun _ _ => (true, fun _ => 0))
        ((upTo layers).flatMap (fun l => (upTo (twStride w)).map (fun i => (l, i)))) = some (s2, bad) →
      exec (.seqCreate mb) s = .next (s2.mbResult mb 0))) ∧
  (∀ s mb r s1 es s2, SeqReady s mb 0x802 [(8, 4), (0x10, 8)] r →
    let ctx := argOf s mb 4 4
    let len := argOf s mb 8 4
    let b0 := blocksOf r.length
    let k := blocksOf len - b0
    r.length < len → len ≤ 2 ^ 22 → len ≤ twCap r.table → (r.cpt = true → len ≤ twCap r.shadow) →
    s.readEntries (argOf s mb 0x10 8) (r.layers * k) = some (s1, es) → listFault r.rowb es = none →
    s1.tableUpds ctx true (fun l i => (16 * i ≥ b0, fun d => (upTo 16).foldl (fun d n =>
        if b0 ≤ 16 * i + n ∧ 16 * i + n < b0 + k then putEntry d n ((at' es none (l * k + (16 * i + n - b0))).getD 0) else d) d))
      (if k = 0 then [] else (upTo r.layers).flatMap (fun l => (upTo ((b0 + k - 1) / 16 - b0 / 16 + 1)).map (fun j => (l, b0 / 16 + j)))) = some (s2, false) →
    exec (.seqExtend mb) s = .next ((s2.setRec ctx { s2.seqRec ctx with length := len }).mbResult mb 0 (leBytes 4 k))) ∧
  (∀ s mb r s2 bad, SeqReady s mb 0x803 [(8, 4)] r →
    let ctx := argOf s mb 4 4
    let len := argOf s mb 8 4
    let b0 := blocksOf len
    len < r.length → (r.mig = true → r.miglo + r.mign ≤ b0) →
    (s.setRec ctx { r with length := len }).tableUpds ctx false (fun _ i => (16 * i ≥ b0, fun d =>
        (upTo 16).foldl (fun d n => if b0 ≤ 16 * i + n then putEntry d n (2 * (entryOf d n / 2)) else d) d))
      ((upTo r.layers).flatMap (fun l => (upTo (twStride r.table - b0 / 16)).map (fun j => (l, b0 / 16 + j)))) = some (s2, bad) →
    exec (.seqTrim mb) s = .next (s2.mbResult mb (if bad then stSeqTableError else 0) (leBytes 4 (blocksOf r.length - b0)))) ∧
  (∀ s mb r, SeqReady s mb 0x806 [] r → r.cpt = false → r.mig = false → Runs (.seqRetire mb) s (fun t =>
    t.seqRec (argOf s mb 4 4) = {} ∧ (∀ c, c ≠ argOf s mb 4 4 → t.seqRec c = s.seqRec c) ∧ (t.mbox mb).res = some (0, padTo 64 (r.image s.stamp.1)) ∧ t.mem = s.mem)) ∧
  (∀ s mb r, SeqReady s mb 0x807 [] r → exec (.seqQuery mb) s = .next (answer s.stamp.2 mb 0 (r.image s.stamp.1)))

/-- R159 to R163: SEQ_RELAYOUT starts the copy of a table into its shadow; each line is copied when its time has come, and
after the last one the record uses the new table and the event waits for the lookups of the old one. A SEQ_MIGRATE
starts the copy of its blocks, and their entries are installed once the blocks are copied. -/
def Parts.SequenceMoves : Prop :=
  (∀ s mb r, SeqReady s mb 0x805 [(8, 8)] r → r.cpt = false → r.mig = false →
    let ctx := argOf s mb 4 4
    let w := argOf s mb 8 8
    let size (x : Nat) : Nat := r.layers * twStride x * 128
    s.twOk ctx w r.layers = true → (twArea r.table + size r.table ≤ twArea w ∨ twArea w + size w ≤ twArea r.table) → r.length ≤ twCap w →
    exec (.seqRelayout mb) s = .next (answer (s.setRec ctx { (if r.ver then { r with root0 := w } else { r with root1 := w }) with
      cpt := true, copied := 0, copiedAt := s.now }) mb 0)) ∧
  (∀ s mb r, SeqReady s mb 0x804 [(8, 4), (0xC, 4), (0x10, 8)] r → (r.cpt = true ∨ r.mig = true) →
    exec (.seqMigrate mb) s = .next (answer s mb 0x0802)) ∧
  (∀ s mb r s1 olds s2 es, SeqReady s mb 0x804 [(8, 4), (0xC, 4), (0x10, 8)] r → r.cpt = false → r.mig = false →
    let ctx := argOf s mb 4 4
    let fb := argOf s mb 8 4
    let nb := argOf s mb 0xC 4
    let first := fb / 16
    let cnt := (fb + nb - 1) / 16 - first + 1
    let step (acc : Option (State × List (Option Nat))) (l : Nat) : Option (State × List (Option Nat)) :=
      acc.bind (fun a => (a.1.readLines (twArea r.table / 128 + l * twStride r.table + first) cnt).map (fun b =>
        (b.1, a.2 ++ (upTo nb).map (fun j => (at' b.2 none ((fb + j) / 16 - first)).map (fun d => entryOf d (fb + j))))))
    0 < nb → nb ≤ 32768 → fb + nb ≤ blocksOf r.length → (upTo r.layers).foldl step (some (s, [])) = some (s1, olds) →
    (∀ e ∈ olds, ∃ x, e = some x ∧ x % 2 = 1) → s1.readEntries (argOf s mb 0x10 8) (r.layers * nb) = some (s2, es) →
    listFault r.rowb es = none →
    exec (.seqMigrate mb) s = .next (
      let os := olds.map (fun e => e.getD 0)
      let ns := es.map (fun e => e.getD 0)
      let job : Job := { kind := 1, ctx := ctx, src := entryAddr (at' os 0 0), dst := entryAddr (at' ns 0 0), len := 32768 * r.rowb, hint := 1 }
      let r1 := { r with mig := true, miglo := fb, mign := nb, olds := os, blist := ns, migDone := false }
      ({ s2.setRec ctx r1 with jobs := s2.jobs ++ [job] } : State).mbResult mb 0)) ∧
  (∀ s ctx s1 d s2, ctx < 262144 →
    let r := s.seqRec ctx
    let ns := twStride r.shadow
    r.live = true → r.cpt = true → r.copiedAt + s.fld .seqCptRate (ctx / 65536) 0 0 8 ≤ s.now → s.pwr.phase = .on →
    ((r.copied % ns < twStride r.table ∧
        s.ncRead (twArea r.table / 128 + r.copied / ns * twStride r.table + r.copied % ns) 1 = .ok s1 d false) ∨
      (twStride r.table ≤ r.copied % ns ∧ s1 = s ∧ d = 0)) →
    s1.tableWrite (twArea r.shadow / 128 + r.copied) d true = some s2 →
    (r.copied + 1 < r.layers * ns → exec (.relayoutLineCopy ctx) s = .next (s2.setRec ctx { r with copied := r.copied + 1, copiedAt := s.now })) ∧
    (r.layers * ns ≤ r.copied + 1 → exec (.relayoutLineCopy ctx) s = .next (
      let s3 := s2.setRec ctx { r with copied := r.copied + 1, copiedAt := s.now, ver := !r.ver, cpt := false }
      let ev : SeqEv := { ctx := ctx, seqid := r.seqid, word := r.shadow, waits := s3.openLooks ctx }
      { s3 with seq := { s3.seq with evs := s3.seq.evs ++ [ev] } }))) ∧
  (∀ (s : State) ctx e, s.seq.evs.find? (fun e => e.ctx == ctx && !e.mig && s.looksDone e.waits) = some e →
    exec (.evSeqRelayoutDone ctx) s = .next (relayoutEvent { s with seq := { s.seq with
      evs := eraseFirst (fun e => e.ctx == ctx && !e.mig && s.looksDone e.waits) s.seq.evs } } ctx e.seqid 0 e.word)) ∧
  (∀ (s : State) ctx s1, ctx < 262144 →
    let r := s.seqRec ctx
    r.live = true → r.mig = true → r.migDone = true →
    r.blist.zipIdx.foldl (fun (acc : Option State) p => acc.bind (fun s1 => s1.installEntry r (p.2 / r.mign) (r.miglo + p.2 % r.mign) p.1)) (some s) = some s1 →
    exec (.migrateInstall ctx) s = .next (
      let s2 := s1.setRec ctx { r with mig := false, miglo := 0, mign := 0, olds := [], blist := [], migDone := false }
      let ev : SeqEv := { ctx := ctx, seqid := r.seqid, mig := true, waits := s2.openLooks ctx }
      State.migEvents { s2 with seq := { s2.seq with evs := s2.seq.evs ++ [ev] } }))

end Sys2Proof

/-- The sequence directory: look-ups, records, and the moves of pages. -/
def Obligations.SequenceDirectory : Prop :=
  Sys2Proof.Parts.GatherLookups ∧ Sys2Proof.Parts.SequenceRecords ∧ Sys2Proof.Parts.SequenceMoves

namespace Sys2Proof

/- Memory commands, and the memory-side cache's. -/

/-- R166, R193: the stores SEQ_BTC_FLUSH, MD_MSC_UNKEEP and MD_MSC_FLUSH complete wherever their register can be reached.
SEQ_BTC_FLUSH empties the block-table cache of a die; MD_MSC_UNKEEP clears the marks of its memory-side cache; MD_MSC_FLUSH
writes its dirty lines back and drops all of them. Each store is answered. -/
def Parts.CacheRegisterCommands : Prop :=
  (∀ (s : State) iss m, m < 4 → s.reach iss (regAddr .seqBtcCtrl m 0) = .ok →
    exec (.seqBtcFlush iss m) s = .next (({ s with seq := { s.seq with btc := s.seq.btc.filter (fun e => s.homeOf e.1 ≠ m) } } : State).wrote iss)) ∧
  (∀ (s : State) iss m, m < 4 → s.reach iss (regAddr .mscCtrl m 0) = .ok →
    exec (.mdMscUnkeep iss m) s = .next (({ s with msc := s.msc.map (fun e =>
      if s.homeOf e.1 = m then (e.1, { e.2 with keep := false }) else e) } : State).wrote iss) ∧
    exec (.mdMscFlush iss m) s = .next (((s.msc.filter (fun e => s.homeOf e.1 = m)).foldl (fun s1 e => s1.mscEvict e.1 true) s).wrote iss))

/-- R189 to R191: MEM_COPY, MEM_ADVISE and MEM_SPLIT_SET complete for every argument that the rules accept. MEM_COPY queues a
job for the mover and answers at once; MEM_ADVISE does its lines and answers their number and how many were filled without
the mark, and to take marks off needs no line to be free; MEM_SPLIT_SET stores the split in both boot records and leaves
memory as it is until the next cold reset. -/
def Parts.MemoryCommands : Prop :=
  (∀ s mb, Ready s mb 0x101 [(8, 8), (0x10, 8), (0x18, 8), (0x20, 1), (0x24, 4)] → s.memOk = true →
    let src := argOf s mb 8 8
    let dst := argOf s mb 0x10 8
    let len := argOf s mb 0x18 8
    0 < len → len % 128 = 0 → len ≤ 2 ^ 40 → argOf s mb 0x20 1 ≤ 4 → copyRange src len = true → copyRange dst len = true →
    (isLocal src = true → isLocal dst = true → dst + len ≤ src ∨ src + len ≤ dst) → s.moverJobs < 64 →
    exec (.memCopy mb) s = .next (answer { s with jobs := s.jobs ++ [{ kind := 0, tag := argOf s mb 0x24 4, src := src, dst := dst, len := len, hint := if argOf s mb 0x20 1 = 0 then 1 else argOf s mb 0x20 1 }] } mb 0)) ∧
  (∀ s mb, Ready s mb 0x102 [(8, 8), (0x10, 8), (0x18, 1)] → s.memOk = true → argOf s mb 8 8 % 128 = 0 →
    128 ≤ argOf s mb 0x10 8 → argOf s mb 0x10 8 ≤ 2 ^ 26 → argOf s mb 0x18 1 ≤ 3 → localRange (argOf s mb 8 8) (argOf s mb 0x10 8) = true →
    let l := argOf s mb 8 8 / 128
    let n := ceilDiv (argOf s mb 0x10 8) 128
    (∀ s1 u, s.adviseLines l (argOf s mb 0x18 1) n = some (s1, u) →
      exec (.memAdvise mb) s = .next (s1.mbResult mb 0 (leBytes 4 n ++ leBytes 4 u))) ∧
    (argOf s mb 0x18 1 = 2 → Runs (.memAdvise mb) s (fun t =>
      (t.mbox mb).res = some (0, padTo 64 (leBytes 4 n ++ leBytes 4 0)) ∧ t.mem = s.mem ∧ t.regs = s.regs ∧
      (∀ i, i < n → ∀ e, t.msc.find? (l + i) = some e → e.keep = false) ∧
      (∀ k, (∀ i, i < n → k ≠ l + i) → t.msc.find? k = s.msc.find? k)))) ∧
  (∀ s mb, Ready s mb 0x103 [(8, 1), (9, 1)] → s.memOk = true → argOf s mb 8 1 ≤ 48 → argOf s mb 9 1 ≤ 64 →
    Runs (.memSplitSet mb true) s (fun t => (t.mbox mb).res = some (0, padTo 64 []) ∧
      (∀ b, b < 2 → (t.sec.cfg.get {} b).hp = argOf s mb 8 1 ∧ (t.sec.cfg.get {} b).sp = argOf s mb 9 1) ∧
      t.pwr = s.pwr ∧ t.mem = s.mem ∧ t.regs = s.regs)) ∧
  (∀ s mb, Ready s mb 0x103 [(8, 1), (9, 1)] → s.memOk = true → argOf s mb 8 1 ≤ 48 → argOf s mb 9 1 ≤ 64 →
    exec (.memSplitSet mb false) s = .next (answer s mb 0x0106))

/-- R189, R159: DATA_MOVER_LINE completes in every state: the data mover reads the next line of its first job at its home and
writes it at its destination; a job goes
on with its next line, gives its turn up after 64 lines, and ends after its last; a copy that meets a bus error fails. -/
def Parts.DataMover : Prop :=
  (∀ s x p f, ∃ t, exec (.dataMoverLine x p f) s = .next t) ∧
  (∀ (s : State) j r x p f, s.jobs = j :: r → j.asked = 0 → isLocal (j.src + j.off) = true →
    (∀ s1 d q, s.ncRead ((j.src + j.off) / 128) 2 = .ok s1 d q → exec (.dataMoverLine x p f) s = .next (s1.jobWrite j d q)) ∧
    (s.ncRead ((j.src + j.off) / 128) 2 = .bus → exec (.dataMoverLine x p f) s = .next (s.jobFail j))) ∧
  (∀ (s : State) j r d p s1 d1 p1, s.jobs = j :: r → isLocal (j.dst + j.off) = true → j.kind = 0 →
    s.ncWrite ((j.dst + j.off) / 128) (BitVec.allOnes 128) d p j.hint = .ok s1 d1 p1 → s.jobWrite j d p = s1.jobLine j p) ∧
  (∀ (s : State) j r p, s.jobs = j :: r → j.kind = 0 → s.pmuOn 580 = false →
    let j1 := { j with off := j.off + 128, poisoned := j.poisoned + p.toNat, burst := j.burst + 1, asked := 0, data := 0, bad := false }
    (j1.off ≠ j.len → j1.burst ≠ 64 → s.jobLine j p = { s with jobs := j1 :: r }) ∧
    (j1.off ≠ j.len → j1.burst = 64 → s.jobLine j p = { s with jobs := r ++ [{ j1 with burst := 0 }] }) ∧
    (j1.off = j.len → s.jobLine j p = copyEvent { s with jobs := r } j1 0 0)) ∧
  (∀ (s : State) j, j.kind = 0 → s.jobFail j = copyEvent { s with jobs := s.jobs.drop 1 } j 0x0104 j.off)

/-- R173 to R176, R185, R186: a stack or an interface that trains at its step of the boot sequence is marked, its repairs are
kept, and memory is enabled as a whole when all have trained; PATROL_SCRUB completes wherever its die's scrubber runs: it
checks a line, against the error that the line holds where the command names none, corrects and counts, and a line that
cannot be corrected is poisoned and its address kept. -/
def Parts.MemoryHealth : Prop :=
  (∀ s unit repairs, unit < 24 → (∀ r ∈ repairs, r.1 < 129 ∧ r.2 < 64) → s.pwr.phase = .boot 5 → Runs (.memoryTraining unit true false repairs) s (fun t =>
    (if unit < 8 then t.fld .hbmStatus unit 0 0 1 = 1 ∧ t.fld .hbmStatus unit 0 1 1 = 0 else t.fld .lpStatus (unit - 8) 0 0 1 = 1 ∧ t.fld .lpStatus (unit - 8) 0 1 1 = 0) ∧
    t.mem = s.mem ∧ t.poison = s.poison)) ∧
  (∀ (s : State), (s.enableMem.fld .memStatus 0 0 0 6 = if (upTo 8).all (fun i => s.fld .hbmStatus i 0 0 1 == 1) && (upTo 16).all (fun i => s.fld .lpStatus i 0 0 1 == 1) then 0x3F else 0)) ∧
  (∀ s m, m < 4 → s.fld .scrubCtrl m 0 0 1 = 1 → s.memOk = true → s.pwr.phase = .on →
    ∀ ecc, ∃ l, exec (.patrolScrub m ecc) s = .next (({ s with ctr := { s.ctr with free := s.ctr.free + 1 } } : State).memCheck l ecc true)) ∧
  (∀ (s : State) l ecc scrub, s.memCheck l ecc scrub =
    (if ecc = .good ∧ s.errs.get .good l = .good then s
     else ({ s with errs := s.errs.del l } : State).memEcc l (if ecc = .good then s.errs.get .good l else ecc) scrub)) ∧
  (∀ (s : State) l scrub, (s.memEcc l .corrected scrub) = (s.incFld .memStatus (s.homeOf l) 0 16 16).wsReport (if isHbm (l * 128) then 0 else 1) ∧
    (s.ueSent.elem l = true → let t := s.memEcc l .uncorrectable scrub
      t.poison = setPoison s.poison l true ∧ t.fld .memStatus (s.homeOf l) 0 8 1 = 1 ∧ t.reg .memUeAddr (s.homeOf l) 0 = BitVec.ofNat 64 (l * 128) ∧ t.mem = s.mem))

end Sys2Proof

/-- Memory-side caches and their registers, memory commands, the data mover, and memory health. -/
def Obligations.MemorySide : Prop :=
  Sys2Proof.Parts.CacheRegisterCommands ∧ Sys2Proof.Parts.MemoryCommands ∧ Sys2Proof.Parts.DataMover ∧ Sys2Proof.Parts.MemoryHealth

namespace Sys2Proof

/- Coherence. -/

/-- A request of agent a on its way to the home of a line. -/
def askOf (k : RqKind) (a line : Nat) : Msg → Bool | .req r => r.kind == k && r.a == a && r.line == line | _ => false

def ncOf (k : RqKind) (w : Who) (line : Nat) : Msg → Bool | .req r => r.kind == k && r.w == w && r.line == line | _ => false

/-- A message of an agent that its home does not hold for lost, to a line of local memory, over a link that does not train. -/
def homeHears (s : State) (a line : Nat) : Prop :=
  a < 66 ∧ isLocal (line * 128) = true ∧ s.isLost (s.homeOf line) a = false ∧ s.linkWaits (agentDie a) line = false

/-- The agent that a non-caching request counts for: the one that its message names, or that of its unit. -/
def ncFor (s : State) (k : RqKind) (w : Who) (line : Nat) : Nat :=
  match s.net.find? (ncOf k w line) with | some (.req q) => q.a | _ => s.ncAgent w

/-- A non-caching request whose home hears it in its turn, and which is no half of a burst. -/
def homeHearsNc (s : State) (k : RqKind) (w : Who) (line : Nat) : Prop :=
  let a := ncFor s k w line
  isLocal (line * 128) = true ∧ s.linkWaits (if a < 66 then agentDie a else s.whoDie w) line = false ∧
  s.inTurn (ncOf k w line) = true ∧ (a < 66 → s.isLost (s.homeOf line) a = false) ∧ (∀ q, s.net.find? (ncOf k w line) = some (.req q) → q.burst = false)

/-- R194, R205, R208, R214, R261, R272: every request that arrives at its home leaves the network and joins its line's queue, from
which the home takes it in order; a request of a lost agent, caching or not, is discarded and counted, and one that meets a
link in training, or comes before one that was sent earlier on its channel, waits. A request of the auxiliary die that is not on its way yet needs a window with the cache right. -/
def Parts.RequestsArrive : Prop :=
  (∀ s a line, homeHears s a line →
    let sent (k : RqKind) : Prop := s.inTurn (askOf k a line) = true ∧ (a = 65 → s.net.any (askOf k 65 line) = true)
    (sent .rds → exec (.rds a line) s = .next ((s.took (askOf .rds a line)).accept { kind := .rds, a := a, line := line, hint := s.hintOf (askOf .rds a line) })) ∧
    (sent .rdx → exec (.rdx a line) s = .next ((s.took (askOf .rdx a line)).accept { kind := .rdx, a := a, line := line, hint := s.hintOf (askOf .rdx a line) })) ∧
    (sent .upg → exec (.upg a line) s = .next ((s.took (askOf .upg a line)).accept { kind := .upg, a := a, line := line, hint := s.hintOf (askOf .upg a line) })) ∧
    (∀ d p, sent .wbd → exec (.wbd a line d p) s = .next ((s.took (askOf .wbd a line)).accept { kind := .wbd, a := a, line := line, data := d, poison := p })) ∧
    (sent .evc → exec (.evc a line) s = .next ((s.took (askOf .evc a line)).accept { kind := .evc, a := a, line := line }))) ∧
  (∀ s line, isLocal (line * 128) = true → s.net.any (askOf .rds 65 line) = false →
    (s.fld .fwStatus 0 0 1 1 = 0 → exec (.rds 65 line) s = .next s) ∧
    (s.fld .fwStatus 0 0 1 1 = 1 → s.aux.inw.any (fun w => w.2.covers (line * 128) 128 && w.2.right 3) = false →
      exec (.rds 65 line) s = .next (s.fwViolation 3 (line * 128))) ∧
    (s.fld .fwStatus 0 0 1 1 = 1 → s.aux.inw.any (fun w => w.2.covers (line * 128) 128 && w.2.right 3) = true → homeHears s 65 line →
      exec (.rds 65 line) s = .next ((s.took (askOf .rds 65 line)).accept { kind := .rds, a := 65, line := line, hint := s.hintOf (askOf .rds 65 line) }))) ∧
  (∀ s w line, (∀ h, homeHearsNc s .rdnc w line → exec (.rdnc w line h) s =
      .next ((s.took (ncOf .rdnc w line)).accept { kind := .rdnc, a := ncFor s .rdnc w line, w := w, line := line, hint := h })) ∧
    (∀ m d p h, homeHearsNc s .wrnc w line → (∀ sid, w ≠ .store sid) → exec (.wrnc w line m d p h) s = .next ((s.took (ncOf .wrnc w line)).accept
      { kind := .wrnc, a := ncFor s .wrnc w line, w := w, line := line, hint := h, mask := m, data := d, poison := p })) ∧
    (∀ sid m d p h, homeHearsNc s .wrnc w line → w = .store sid → exec (.wrnc w line m d p h) s = .next (((s.took (ncOf .wrnc w line)).accept
      { kind := .wrnc, a := ncFor s .wrnc w line, w := w, line := line, hint := h, mask := m, data := d, poison := p }).sbAccept sid)) ∧
    (∀ q, homeHearsNc s .atmh w line → s.net.find? (ncOf .atmh w line) = some (.req q) → exec (.atmh w line) s =
      .next ((s.took (ncOf .atmh w line)).accept { kind := .atmh, a := q.a, w := w, line := line, hint := q.hint, amo := q.amo, accs := q.accs })) ∧
    (∀ n k tag, isLocal (line * 128) = true → n < 64 → (s.core n).op = some tag → s.isLost (s.homeOf line) 64 = false →
      s.linkWaits 8 line = false → s.inTurn (ncOf (.cmo k) (.op tag) line) = true → exec (.cmoMessage n k line) s = .next ((s.took (ncOf (.cmo k) (.op tag) line)).accept { kind := .cmo k, a := 66, w := .op tag, line := line }))) ∧
  (∀ s a line, a < 65 → isLocal (line * 128) = true → s.isLost (s.homeOf line) a = true → s.linkWaits (agentDie a) line = false → s.inTurn (askOf .rds a line) = true →
    exec (.rds a line) s = .next ((s.took (askOf .rds a line)).incFld .cohStatus (s.homeOf line) 0 16 16)) ∧
  (∀ s a line, a < 65 → isLocal (line * 128) = true → (s.linkWaits (agentDie a) line = true ∨ s.inTurn (askOf .rds a line) = false) → exec (.rds a line) s = .next s) ∧
  (∀ s w line h, let a := ncFor s .rdnc w line
    a < 66 → isLocal (line * 128) = true → s.linkWaits (agentDie a) line = false → s.inTurn (ncOf .rdnc w line) = true → s.isLost (s.homeOf line) a = true →
    exec (.rdnc w line h) s = .next ((s.took (ncOf .rdnc w line)).incFld .cohStatus (s.homeOf line) 0 16 16))

/-- R205, R206: a request of an agent that is not lost, which finds nothing queued and its line free, starts at once: a read snoops the line's owner, a
request for ownership every other holder, and with none to ask it goes on. -/
def Parts.TransactionsStart : Prop :=
  ∀ (s : State) r, s.hq = [] → s.txns.has r.line = false → s.needsEntry r = false → r.burst = false →
    (r.a < 66 → s.isLost (s.homeOf r.line) r.a = false) →
    s.accept r = s.startTxn r none ∧
    (∀ e, s.dir.find? r.line = some e → (∀ a, s.isLost (s.homeOf r.line) a = false) →
      (r.kind = .rds → e.st ≠ .HS → e.owner ≠ r.a → (s.startTxn r none).net = s.net ++ [.snp .s e.owner r.line]) ∧
      (r.kind = .rdx → (e.holders.filter (fun a => a ≠ r.a)) ≠ [] →
        (s.startTxn r none).net = s.net ++ (e.holders.filter (fun a => a ≠ r.a)).map (fun a => .snp .x a r.line)))

/-- R207, R208: the memory side's data completes the transaction that waits for it: a read of a line that nobody holds
grants it exclusively, a read for ownership grants it modified, the requester is recorded as its owner, and the
transaction stays open until CmpAck. A non-caching read gets the data and leaves the line as it was. -/
def Parts.HomesGrant : Prop :=
  (∀ (s : State) line t, s.txns.find? line = some t → t.phase = .mem → t.req.line = line → t.req.burst = false → t.d = none → t.od = none → t.h = [] → s.msc.has line = true →
    (t.req.kind = .rds ∨ t.req.kind = .rdx) → Runs (.homeMemoryData line .good) s (fun u =>
      (u.dir.find? line).map (fun e => (e.st, e.owner, e.sharers)) = some (.HX, t.req.a, []) ∧
      u.net = s.net ++ [if t.req.kind = .rds then .gnt t.req.a line true (s.memPeek line).1 (s.memPeek line).2
                        else .gntm t.req.a line (s.memPeek line).1 (s.memPeek line).2] ∧
      (u.txns.find? line).map (·.phase) = some .ack ∧ u.mem = s.mem)) ∧
  (∀ (s : State) line t, s.txns.find? line = some t → t.phase = .mem → t.req.line = line → t.req.burst = false → t.d = none → t.od = none → t.h = [] → s.msc.has line = true →
    t.req.kind = .rdnc → s.hq = [] → Runs (.homeMemoryData line .good) s (fun u =>
      u.net = s.net ++ [.dat t.req.w line (s.memPeek line).1 (s.memPeek line).2] ∧ u.txns.find? line = none ∧ u.mem = s.mem)) ∧
  (∀ (s : State) line t ecc, s.txns.find? line = some t → t.phase ≠ .mem →
    exec (.homeMemoryData line ecc) s = .next (s.incFld .cohStatus (s.homeOf line) 0 32 16)) ∧
  (∀ (s : State) a line t, homeHears s a line → s.inTurn (fun m => m == .cmpack a line) = true → s.txns.find? line = some t → t.phase = .ack → t.req.a = a → s.hq = [] →
    exec (.cmpack a line) s = .next { s.took (fun m => m == .cmpack a line) with txns := s.txns.del line })

end Sys2Proof

/-- Homes: requests, transactions and grants of the coherence protocol. -/
def Obligations.Homes : Prop :=
  Sys2Proof.Parts.RequestsArrive ∧ Sys2Proof.Parts.TransactionsStart ∧ Sys2Proof.Parts.HomesGrant

namespace Sys2Proof

/-- R207, R208: a snoop response takes its agent off the list of those awaited, and the transaction goes on with the last
one; one that was not awaited is a protocol error and has no other effect. -/
def Parts.SnoopResponses : Prop :=
  (∀ s a line toI t, homeHears s a line → s.inTurn (fun m => m == .rsp a line toI) = true → s.txns.find? line = some t → t.phase = .snp → t.await.elem a = true →
    let s1 := s.took (fun m => m == .rsp a line toI)
    let t1 := t.answer a (toI, none)
    exec (.rspsRspi a line toI) s = .next (if t1.await = [] then (s1.answered t1).pump else { s1 with txns := s.txns.set line t1 }) ∧
    t1.await = t.await.filter (fun b => b ≠ a) ∧ t1.d = t.d ∧ t1.h = if toI then t.h.filter (fun b => b ≠ a) else t.h) ∧
  (∀ s a line toI d p t, homeHears s a line → s.inTurn (fun m => match m with | .rspd b l _ _ _ => b == a && l == line | _ => false) = true → s.txns.find? line = some t → t.phase = .snp → t.await.elem a = true →
    let s1 := s.took (fun m => match m with | .rspd b l _ _ _ => b == a && l == line | _ => false)
    let t1 := t.answer a (toI, some (d, p))
    exec (.rspsdRspid a line toI d p) s = .next (if t1.await = [] then (s1.answered t1).pump else { s1 with txns := s.txns.set line t1 }) ∧
    t1.d = some (d, p)) ∧
  (∀ s a line toI t, homeHears s a line → s.inTurn (fun m => m == .rsp a line toI) = true → s.txns.find? line = some t → (t.phase ≠ .snp ∨ t.await.elem a = false) →
    exec (.rspsRspi a line toI) s = .next ((s.took (fun m => m == .rsp a line toI)).incFld .cohStatus (s.homeOf line) 0 32 16))

/-- R204: what a copy in a state becomes at a snoop of a kind, whether it answers that it is gone, and whether it sends its
data; none where the table says never. -/
def snoopTable : CSt → SnpK → Option (CSt × Bool × Bool)
  | .M, .s | .O, .s => some (.O, false, true)
  | .E, .s | .S, .s => some (.S, false, false)
  | .M, .x | .O, .x => some (.I, true, true)
  | .M, .i | .O, .i | .E, .x | .E, .i | .S, .x | .S, .i => some (.I, true, false)
  | .I, _ => some (.I, true, false)
  | .SMA, .s => some (.SMA, false, false)
  | .SMA, .x | .SMA, .i | .OMA, .i => some (.IMD, true, false)
  | .OMA, .s => some (.OMA, false, true)
  | .OMA, .x => some (.IMD, true, true)
  | .MIA, .s | .MIA, .x | .OIA, .s | .OIA, .x => some (.IIA, true, true)
  | .MIA, .i | .OIA, .i | .EIA, _ | .SIA, _ => some (.IIA, true, false)
  | .ISD, _ | .IMD, _ | .IIA, _ => none

/-- A message to a cache whose agent is there, over a link that does not train. -/
def cacheHears (s : State) (a line : Nat) : Prop :=
  a < 66 ∧ isLocal (line * 128) = true ∧ s.agentGone a = false ∧ s.linkWaits (agentDie a) line = false

/-- A snoop that arrives changes the copy's state as R204 says, keeps its data, and sends the answer to the home; where the
table says never it is counted as a protocol error and sends nothing. -/
def Parts.Snoops : Prop :=
  let holds (s t : State) (k : SnpK) (a line : Nat) : Prop :=
    let c := s.cline a line
    let rest := eraseFirst (fun m => m == .snp k a line) s.net
    match snoopTable c.st k with
    | some (st, toI, withData) =>
      (t.cline a line).st = st ∧ (st ≠ .I → (t.cline a line).data = c.data) ∧
      t.net = rest ++ [if withData then .rspd a line toI c.data c.poison else .rsp a line toI] ∧ t.mem = s.mem ∧ t.dir = s.dir
    | none => t.net = rest ∧ t.caches = s.caches ∧ t.mem = s.mem ∧ (a < 64 → t.fld .ccStatus a 0 1 1 = 1)
  ∀ s a line, cacheHears s a line →
    (s.inTurn (fun m => m == .snp .s a line) = true → Runs (.snps a line) s (fun t => holds s t .s a line)) ∧
    (s.inTurn (fun m => m == .snp .x a line) = true → Runs (.snpx a line) s (fun t => holds s t .x a line)) ∧
    (s.inTurn (fun m => m == .snp .i a line) = true → Runs (.snpi a line) s (fun t => holds s t .i a line))

end Sys2Proof

/-- Snoops of caches and what their answers do at the home. -/
def Obligations.SnoopsAndTheirAnswers : Prop :=
  Sys2Proof.Parts.SnoopResponses ∧ Sys2Proof.Parts.Snoops

namespace Sys2Proof

/-- R203, R204, R215: a grant installs the line in its state, is acknowledged, and the access that asked for it completes;
a flush that waited for the line and requests that waited for it go on. A grant that the copy does not wait for is a
protocol error. A completed write-back or eviction leaves the buffer. -/
def Parts.Grants : Prop :=
  let installed (s1 : State) (a line : Nat) (st : CSt) (d : Line) (p : Bool) : State :=
    let c := s1.cline a line
    ((((s1.setCline a line { c with st := st, data := d, poison := p, cause := .none' }).send (.cmpack a line)).runCause a line c.cause).flushDue
      a).pumpHeld.pumpDies
  (∀ s a line excl d p, cacheHears s a line → s.inTurn (fun m => match m with | .gnt b l _ _ _ => b == a && l == line | _ => false) = true →
    let s1 := s.took (fun m => match m with | .gnt b l _ _ _ => b == a && l == line | _ => false)
    ((s.cline a line).st = .ISD → exec (.gntsGnte a line excl d p) s = .next (installed s1 a line (if excl then .E else .S) d p)) ∧
    ((s.cline a line).st ≠ .ISD → exec (.gntsGnte a line excl d p) s = .next (s1.perr a))) ∧
  (∀ s a line d p, cacheHears s a line → s.inTurn (fun m => match m with | .gntm b l _ _ => b == a && l == line | _ => false) = true → (s.cline a line).st = .IMD → exec (.gntm a line d p) s = .next (
    installed (s.took (fun m => match m with | .gntm b l _ _ => b == a && l == line | _ => false)) a line .M d p)) ∧
  (∀ s a line, cacheHears s a line → s.inTurn (fun m => m == .gntupg a line) = true → ((s.cline a line).st = .SMA ∨ (s.cline a line).st = .OMA) → exec (.gntupg a line) s = .next (
    installed (s.took (fun m => m == .gntupg a line)) a line .M (s.cline a line).data (s.cline a line).poison)) ∧
  (∀ s a line, cacheHears s a line → s.inTurn (fun m => m == .gntwb a line) = true → (s.cline a line).st.inBuffer = true → exec (.gntwbGntev a line) s = .next (
    ((((s.took (fun m => m == .gntwb a line)).setCline a line {}).flushDue a).pumpHeld.pumpDies))) ∧
  (∀ s a line, cacheHears s a line → s.inTurn (fun m => m == .gntwb a line) = true → (s.cline a line).st.inBuffer = true → (∀ r ∈ s.rsts, r.writing = false) → s.held = [] →
    (∀ e ∈ (s.cacheOf a).lines, e.2.flush = false) → Runs (.gntwbGntev a line) s (fun t =>
    (t.cline a line).st = .I ∧ t.net = eraseFirst (fun m => m == .gntwb a line) s.net ∧ t.mem = s.mem ∧ t.dir = s.dir))

/-- The line requests of an instruction name a line's hint. -/
def hintAt (p : PendOp) (line : Nat) : Nat := match Machine.reqOf p.lines 0 line with | some r => r.hint | none => 1

/-- R196, R198, R200, R204, R210, R219: a load that hits gets its line's data, and the core keeps a copy; one that misses in
PD's cache asks the home for the line, where its set has room. A store that finds its line in M or E merges its bytes there
and leaves the buffer, the line then being in M and no other core's; one that misses asks for ownership. -/
def Parts.CacheAccesses : Prop :=
  (∀ (s : State) tag line v p n size sgn fp, s.ops.find? tag = some p → p.u = .core n → p.kind = .load size sgn fp →
    p.lines.any (fun r => r.line == line && r.mem == .cached && r.st == 0) = true →
    ((s.cline 64 line).st.readable = true → exec (.cacheLoad tag line v .good) s =
      .next ((s.setCline 64 line { s.cline 64 line with cores := insertN n (s.cline 64 line).cores }).answerLine tag line
        (s.cline 64 line).data (s.cline 64 line).poison false)) ∧
    ((s.cline 64 line).st = .I → s.agentBusy 64 line = false → s.pdRoom line none = some s → Runs (.cacheLoad tag line none .good) s (fun t =>
      (t.cline 64 line).st = .ISD ∧ (t.cline 64 line).cause = .ld tag ∧
      t.net = s.net ++ [.req { kind := .rds, a := 64, line := line, hint := hintAt p line }] ∧ t.mem = s.mem)) ∧
    ((s.cline 64 line).st = .I → s.agentBusy 64 line = true → exec (.cacheLoad tag line v .good) s = .next s)) ∧
  (∀ (s : State) sid v e n, s.sb.find? sid = some e → e.u = .core n → e.mem = .cached → e.sent = false →
    (∀ x ∈ s.sbOf e.u, x.1 < sid → x.2.line ≠ e.line) →
    (((s.cline 64 e.line).st = .M ∨ (s.cline 64 e.line).st = .E) → exec (.cacheStore sid v .good) s = .next (
      let c := s.cline 64 e.line
      let c1 : CLine := { c with st := .M, data := mergeLine c.data e.data e.mask, poison := c.poison && !(e.mask == BitVec.allOnes 128),
                                 cause := .none', cores := [n] }
      (((s.setCline 64 e.line c1).clearResv 64 e.line (some e.u)).sbRemove sid).pumpDies)) ∧
    ((s.cline 64 e.line).st = .I → s.agentBusy 64 e.line = false → s.pdRoom e.line none = some s → Runs (.cacheStore sid none .good) s (fun t =>
      (t.cline 64 e.line).st = .IMD ∧ (t.cline 64 e.line).cause = .st sid ∧
      t.net = s.net ++ [.req { kind := .rdx, a := 64, line := e.line, hint := e.hint }] ∧ t.mem = s.mem ∧ t.sb = s.sb)))

/-- R194, R203, R207: the data or the completion of a non-caching request reaches its requester: an instruction's line is
answered, a store leaves the buffer, and what waited for the line at its agent goes on. -/
def Parts.NonCachingAnswers : Prop :=
  let came (s : State) (w : Who) (line : Nat) : State :=
    ((s.outTake w line).took (fun m => match m with | .dat v l _ _ => v == w && l == line | _ => false)).ncDone w line
  let hears (s : State) (w : Who) (line : Nat) : Prop := isLocal (line * 128) = true →
    s.linkWaits (s.whoDie w) line = false ∧ s.inTurn (fun m => match m with | .dat v l _ _ => v == w && l == line | _ => false) = true
  (∀ (s : State) tag line d p, hears s (.op tag) line →
    exec (.datncCmpnc (.op tag) line d p) s = .next ((came s (.op tag) line).answerLine tag line d p false)) ∧
  (∀ (s : State) sid line d p e, hears s (.store sid) line → (came s (.store sid) line).sb.find? sid = some e → e.line = line →
    exec (.datncCmpnc (.store sid) line d p) s = .next (((came s (.store sid) line).sbRemove sid).pumpDies)) ∧
  (∀ (s : State) id ln line d p, hears s (.tileW id ln) line →
    exec (.datncCmpnc (.tileW id ln) line d p) s = .next ((came s (.tileW id ln) line).tileAccept id ln false)) ∧
  (∀ (s : State) w line d p, isLocal (line * 128) = true →
    (s.linkWaits (s.whoDie w) line = true ∨ s.inTurn (fun m => match m with | .dat v l _ _ => v == w && l == line | _ => false) = false) → exec (.datncCmpnc w line d p) s = .next s)

/-- R212 to R215: an agent that does not answer within the home's bound is lost: the event is posted, the count goes up and
the agent's domain is reset, and a line that it shared has it no longer; a line that a lost agent owned is poisoned and no longer owned; a die's write-back that
takes 100 µs after its stores have drained is cut off; and CD_CC_FLUSH writes every sector of a cluster cache back. -/
def Parts.LostAgents : Prop :=
  (∀ (s : State) line a t, s.txns.find? line = some t → t.phase = .ack → t.req.a = a → a < 66 →
    t.since + s.fld .cohCtrl (s.homeOf line) 0 0 10 * 1000 ≤ s.now →
    (∀ e, s.dir.find? line = some e → ¬(e.st = .HX ∧ e.owner = a)) →
    exec (.homeTimeout line a) s = .next (
      let m := s.homeOf line
      let s3 := ((s.setReg .cohToAddr m 0 (BitVec.ofNat 64 (line * 128))).incFld .cohStatus m 0 8 8).post evCohTimeout (9 + m)
        [(1, m), (8, line * 128), (1, a), (1, 1), (1, 0)]
      let s4 := State.pump { (s3.markLost a).forget line a with txns := ((s3.markLost a).forget line a).txns.del line }
      if s3.isLost m a then s4 else (s4.post evCohAgentLost (9 + m) [(1, a), (1, m)]).resetAgent a)) ∧
  (∀ (s : State) m e, m < 4 → List.find? (fun (e : Nat × DirE) => s.homeOf e.1 == m && e.2.st != HSt.HS && s.isLost m e.2.owner && !s.txns.has e.1) s.dir = some e →
    exec (.lostOwnerWalk m) s = .next (s.poisonOwned e.1).pump) ∧
  (∀ (s : State) l e, s.dir.find? l = some e → s.poisonOwned l = (s.poisonLine l).setSharers l (if e.st = .HO then e.sharers else [])) ∧
  (∀ (s : State) iss k, k < 64 → s.reach iss (regAddr .ccCtrl k 0) = .ok → exec (.cdCcFlush iss k) s = .next ((s.flushAgent k).wrote iss)) ∧
  (∀ (s : State) d, d < 8 → s.rsts.any (fun r => r.dom == .die d && r.writing && r.drained && r.since + 100000 ≤ s.now) = true →
    exec (.dieResetWritebackTimeout d) s = .next (s.dieDown d))

end Sys2Proof

/-- Grants, accesses of caches, answers of non-caching requests, and lost agents. -/
def Obligations.CachesAndLostAgents : Prop :=
  Sys2Proof.Parts.Grants ∧ Sys2Proof.Parts.CacheAccesses ∧ Sys2Proof.Parts.NonCachingAnswers ∧ Sys2Proof.Parts.LostAgents

namespace Sys2Proof

/- The fault queue. -/

/-- The requester that a response names, with the queue after it no longer stalls there (R253). -/
def answered (s : State) (d token : Nat) (x : Stall) : Prop :=
  d < 8 ∧ token < 2 ^ 32 ∧ (s.fq d).stalled.find? (fun x => x.token == some token) = some x

/-- R253, R255: a retry lets the requester translate again, an end or a fault ends its launch, cancelled or faulted; a token
that names no stalled requester is stale and changes nothing else, and so is one that comes when the deadline has, which
ends the requester as a fault does. -/
def Parts.FaultResponses : Prop :=
  (∀ (s : State) iss d token x, answered s d token x → s.reach iss (regAddr .fqResp d 0) = .ok →
    let s1 := ((s.dropStall d x).fqFull d).monRecord 13 ((s.now - x.since) / 1000)
    (s.now < x.deadline →
      exec (.cdFqRespRetry iss d token) s = .next ((s1.fqGo x).wrote iss) ∧
      exec (.cdFqRespEnd iss d token) s = .next ((s1.fqEnd x true).wrote iss) ∧
      exec (.cdFqRespFault iss d token) s = .next ((s1.fqEnd x false).wrote iss)) ∧
    (x.deadline ≤ s.now → ∀ c ∈ [Instr.cdFqRespRetry iss d token, .cdFqRespEnd iss d token, .cdFqRespFault iss d token],
      exec c s = .next (((((s.dropStall d x).fqEnd x false).fqFull d).setFld .fqStatus d 0 2 1 1).wrote iss))) ∧
  (∀ (s : State) iss d token, d < 8 → token < 2 ^ 32 → s.reach iss (regAddr .fqResp d 0) = .ok → (∀ x ∈ (s.fq d).stalled, x.token ≠ some token) →
    ∀ c ∈ [Instr.cdFqRespRetry iss d token, .cdFqRespEnd iss d token, .cdFqRespFault iss d token],
      exec c s = .next ((s.setFld .fqStatus d 0 2 1 1).wrote iss)) ∧
  (∀ (s : State) (x : Stall) c sl g, x.r = .grp c sl → s.grp c sl = some g → x.upcall = false →
    s.fqGo x = s.setGrp c sl { g with stalled := false } ∧ s.fqEnd x true = s.endLaunch g.lid true ∧ s.fqEnd x false = s.endLaunch g.lid false) ∧
  (∀ (s : State) (x : Stall) c ch, x.r = .chan c ch →
    s.fqGo x = s.setChan c ch { s.chan c ch with stall := (s.chan c ch).stall.filter (fun w => w ≠ x.what) })

/-- R254 to R256: the read index takes a value between itself and the write index, and held records then enter; any other
value sets ERR. A requester without a record retries after a microsecond: where its translation now succeeds it goes on, and
where it faults again its record enters as soon as there is room. At its deadline it ends as with a fault. -/
def Parts.FaultQueueUpkeep : Prop :=
  (∀ (s : State) iss d v, d < 8 → s.reach iss (regAddr .fqRidx d 0) = .ok →
    ((s.reg .fqRidx d 0).toNat ≤ v.toNat → v.toNat ≤ (s.reg .fqWidx d 0).toNat →
      exec (.cdFqRidxWrite iss d 8 v) s = .next (((s.setReg .fqRidx d 0 v).fqDrain d 16).wrote iss)) ∧
    ((v.toNat < (s.reg .fqRidx d 0).toNat ∨ (s.reg .fqWidx d 0).toNat < v.toNat) →
      exec (.cdFqRidxWrite iss d 8 v) s = .next ((s.setFld .fqStatus d 0 1 1 1).wrote iss))) ∧
  (∀ (s : State) r x, r.wf = true → (s.fq (Requester.die r)).stalled.filter (fun x => x.r == r && x.token.isNone) = [x] →
    (s.now < x.since + 1000 → exec (.fqRetryTimer r) s = .next s) ∧
    (x.upcall = false → x.since + 1000 ≤ s.now → ofLeBytes ((x.record.drop 16).take 2) = 5 →
      (∀ s1 pa dev h w lf, s.translate (s.stallWho r) .load x.va = .ok s1 pa dev h w lf →
        exec (.fqRetryTimer r) s = .next (((s1.dropStall (Requester.die r) x).fqGo x).fqFull (Requester.die r))) ∧
      (∀ s1 np perm lv t, s.translate (s.stallWho r) .load x.va = .fault s1 np perm false lv t →
        exec (.fqRetryTimer r) s = .next (s1.fqEnter (Requester.die r) x (refault x.record np perm lv t))))) ∧
  (∀ (s : State) r, r.wf = true → (s.fq (Requester.die r)).stalled.filter (fun x => x.r == r && x.token.isNone) = [] →
    exec (.fqRetryTimer r) s = .next s) ∧
  (∀ (s : State) r x, r.wf = true → (s.fq (Requester.die r)).stalled.find? (fun x => x.r == r && decide (x.deadline ≤ s.now)) = some x →
    exec (.faultDeadlineExpiry r) s = .next (((s.dropStall (Requester.die r) x).fqEnd x false).fqFull (Requester.die r)))

end Sys2Proof

/-- Fault queues: records, their answers, deadlines. -/
def Obligations.FaultQueues : Prop :=
  Sys2Proof.Parts.FaultResponses ∧ Sys2Proof.Parts.FaultQueueUpkeep

namespace Sys2Proof

/- Die-to-die links. -/

/-- R259 to R263: at a link end that is up, a flit whose CRC fails is counted and discarded, one of another epoch starts a new
one, one of another number or that its partner has not sent is discarded, and one with the expected number is accepted: the
next number is expected, what it acknowledges leaves the replay buffer, its slots enter the receive buffers, and its
credits return. A NAK sends again what is not acknowledged. An end that waits two microseconds for an acknowledgement
trains again. -/
def Parts.Flits : Prop :=
  ∀ (s : State) e f body crc, linkPartner e = some f → e ≠ f → s.fld .lnkStatus e 0 0 2 = 2 →
    let fl : BitVec 2048 := crc ++ body
    let h := flitHdr fl
    let same := h.epoch = s.fld .lnkStatus e 0 8 8
    (flitCrcOk fl = false → exec (.flitReceive e body crc) s = .next (
      let s0 := match (s.link f).sendOne 4096 64 s.now with | some (_, l) => s.setLink f l | none => s
      (((s0.incFld .lnkErr e 0 0 16).wsReport 4).setLink e { s.link e with dropping := true, nakOut := true }))) ∧
    (flitCrcOk fl = true → ¬same → exec (.flitReceive e body crc) s = .next ((s.newEpoch e).linkTrain e)) ∧
    (flitCrcOk fl = true → same → (s.link f).sendTo h.seq 4096 64 s.now 128 = none →
      exec (.flitReceive e body crc) s = .next (s.setLink e { s.link e with dropping := true, nakOut := true })) ∧
    (∀ lf, flitCrcOk fl = true → same → (s.link f).sendTo h.seq 4096 64 s.now 128 = some lf →
      (h.seq ≠ (s.link e).expect → exec (.flitReceive e body crc) s =
        .next ((s.setLink f lf).setLink e { s.link e with dropping := true, nakOut := true })) ∧
      (h.seq = (s.link e).expect → (h.nak = false ∨ (s.link e).replays < 7) → Runs (.flitReceive e body crc) s (fun t =>
        let left := ackUpTo (s.link e).sent h.ack
        (t.link e).expect = (h.seq + 1) % 4096 ∧ (t.link e).dropping = false ∧ (t.link e).nakOut = false ∧ (t.link e).sent = left ∧
        (t.link e).rx = (lf.loads.get [] h.seq).foldl (fun m v => m.upd 0 v (· + 1)) (s.link e).rx ∧
        (t.link e).credits.get 0 h.vc = min (creditsOf (s.fld .lnkStatus e 0 2 3) h.vc) ((s.link e).credits.get 0 h.vc + h.cred) ∧
        (h.nak = true → left ≠ [] → (t.link e).again = left) ∧ (h.nak = false → t.regs = s.regs) ∧ t.mem = s.mem))) ∧
    ((s.link e).sent ≠ [] → (s.link e).ackAt + 2000 ≤ s.now → exec (.ackTimeout e) s = .next (s.linkTrain e)) ∧
    (s.now < (s.link e).ackAt + 2000 → exec (.ackTimeout e) s = .next s)

/-- R264 to R266: a training attempt on which both ends agree brings both up on the lowest groups that are good at both, at
most the smaller MAXW that the training began with, marked with their number and mask; one that does not is counted at
both, and training goes on. A store to RETRAIN trains a link that is not training. -/
def Parts.LinkTraining : Prop :=
  (∀ (s : State) e f good pgood, linkPartner e = some f → e ≠ f → good < 64 → pgood < 64 → s.fld .lnkStatus e 0 0 2 = 1 →
    (s.link e).trained = false → (s.link e).attempts < 3 →
    let both := s.goodAt e good &&& s.goodAt f pgood
    let gs := ((upTo 6).filter (fun g => (both >>> g) % 2 = 1)).take (min (s.link e).maxw (s.link f).maxw)
    (gs ≠ [] → Runs (.linkTrainingAttempt e good pgood true ([], [])) s (fun t => (∀ i ∈ [e, f],
      t.fld .lnkStatus i 0 0 2 = 2 ∧ t.fld .lnkStatus i 0 2 3 = gs.length ∧ t.fld .lnkStatus i 0 5 1 = 0 ∧
      t.fld .lnkStatus i 0 22 6 = gs.foldl (fun m g => m ||| 2 ^ g) 0 ∧ (t.link i).trained = true) ∧ t.mem = s.mem)) ∧
    (Runs (.linkTrainingAttempt e good pgood false ([], [])) s (fun t =>
      (t.link e).attempts = (s.link e).attempts + 1 ∧ (t.link f).attempts = (s.link f).attempts + 1 ∧
      t.fld .lnkStatus e 0 0 2 = 1 ∧ t.fld .lnkStatus e 0 16 6 = s.goodAt e good ∧ t.mem = s.mem)) ∧
    (∀ g lane, g < linkGroups e → lane < 64 → (upTo 4).any (fun k => !bit (s.reg .lnkRepair e g) (8 * k + 6)) = true →
      Runs (.linkTrainingAttempt e good pgood false ([64 * g + lane], [])) s (fun t =>
        t.reg .lnkRepair e g = (addSpare (s.reg .lnkRepair e g) lane).1 ∧ (t.link e).attempts = (s.link e).attempts + 1 ∧ t.mem = s.mem))) ∧
  (∀ (s : State) iss e, (linkPartner e).isSome = true → s.reach iss (regAddr .lnkCtrl e 0) = .ok →
    exec (.lnkCtrlRetrain iss e) s = .next ((if s.fld .lnkStatus e 0 0 2 = 1 then s else s.retrain e).wrote iss))

end Sys2Proof

/-- Die-to-die links: flits, replay, training and fallback. -/
def Obligations.DieLinks : Prop :=
  Sys2Proof.Parts.Flits ∧ Sys2Proof.Parts.LinkTraining

namespace Sys2Proof

/- The auxiliary site. -/

/-- R271, R275: bring-up compares the die's identifier with the part number's and shows it, with the outcome, in FW_STATUS; a
link that goes down resets the die. -/
def Parts.AuxiliaryBringup : Prop :=
  (∀ (s : State) id, id < 2 ^ 16 → s.fld .fwStatus 0 0 0 1 = 1 → s.aux.inReset = true → id ≠ Config.auxId.toNat →
    exec (.auxBringup id) s = .next (
      (((s.setFld .fwStatus 0 0 8 16 id).setFld .fwStatus 0 0 1 1 0).setFld .fwStatus 0 0 2 1 1).post evAuxState 13 [(1, 0), (1, 1), (1, s.aux.cause)])) ∧
  (∀ (s : State), s.fld .fwStatus 0 0 0 1 = 1 → s.aux.inReset = true →
    exec (.auxBringup Config.auxId.toNat) s = .next (
      let s1 := (((s.setFld .fwStatus 0 0 8 16 Config.auxId.toNat).setFld .fwStatus 0 0 1 1 1).setFld .fwStatus 0 0 2 1 0)
      let s2 := ({ s1 with aux := { s1.aux with inReset := false } } : State).rejoin 65
      s2.post evAuxState 13 [(1, 1), (1, 0), (1, s2.aux.cause)])) ∧
  (∀ (s : State), s.fld .fwStatus 0 0 1 1 = 1 → exec .auxUcieLinkDown s = .next (s.resetAux 1))

/-- R272: an access of the auxiliary die passes inside a window in force that grants its right, and is then performed at its
home; any other is dropped and logged as a violation, a read with an error completion. An event of a granted code is
posted, any other is a violation. -/
def Parts.FirewallChecks : Prop :=
  (∀ (s : State) addr size w, (size = 1 ∨ size = 2 ∨ size = 4 ∨ size = 8 ∨ size = 128) → addr % size = 0 → addr < 2 ^ 56 → s.fld .fwStatus 0 0 1 1 = 1 →
    List.find? (fun (w : Nat × FwWin) => w.2.covers addr size && w.2.right 0) s.aux.inw = some w →
    ∀ s1 d p, s.ncRead (addr / 128) w.2.hint = .ok s1 d p → ∀ v,
    exec (.auxInboundAccess .read addr size v) s = .next { s1 with aux := { s1.aux with replies := s1.aux.replies ++ [(lineBytes d (addr % 128) size, p)] } }) ∧
  (∀ (s : State) addr size w, (size = 1 ∨ size = 2 ∨ size = 4 ∨ size = 8 ∨ size = 128) → addr % size = 0 → addr < 2 ^ 56 → s.fld .fwStatus 0 0 1 1 = 1 →
    List.find? (fun (w : Nat × FwWin) => w.2.covers addr size && w.2.right 1) s.aux.inw = some w → ∀ s1 d p v,
    s.ncWrite (addr / 128) (maskAt (addr % 128) size) (lineAt (addr % 128) size v.toNat) false w.2.hint = .ok s1 d p →
    exec (.auxInboundAccess .write addr size v) s = .next s1) ∧
  (∀ (s : State) addr size v, (size = 1 ∨ size = 2 ∨ size = 4 ∨ size = 8 ∨ size = 128) → addr % size = 0 → addr < 2 ^ 56 → s.fld .fwStatus 0 0 1 1 = 1 →
    ((∀ w ∈ s.aux.inw, (w.2.covers addr size && w.2.right 0) = false) → exec (.auxInboundAccess .read addr size v) s = .next ((s.fwViolation 1 addr).auxReply 0 true)) ∧
    ((∀ w ∈ s.aux.inw, (w.2.covers addr size && w.2.right 1) = false) → exec (.auxInboundAccess .write addr size v) s = .next (s.fwViolation 2 addr))) ∧
  (∀ (s : State) code p f, code < 2 ^ 16 → p.length ≤ 48 → s.fld .fwStatus 0 0 1 1 = 1 → s.aux.evFirst = some f →
    exec (.auxEventPost code p) s = .next (if f ≤ code ∧ code ≤ f + 15 then s.post code 14 (p.map (fun b => (1, b.toNat))) else s.fwViolation 6 code))

/-- R273, R274: a grant puts its window into its slot; a revoke ends the slot's grant at once for new accesses and answers
when its grace is over or nothing is in flight; then the slot is empty. With the last window that lets the die cache, the
recall of its lines begins with the revoke, and the slot is empty once no directory names the die. -/
def Parts.FirewallGrants : Prop :=
  (∀ s mb, Ready s mb 0x720 [(4, 1), (8, 8), (0x10, 8), (0x18, 1)] → s.fld .fwStatus 0 0 0 1 = 1 → argOf s mb 4 1 < 16 → argOf s mb 0x18 1 < 80 →
    powerOf2 (argOf s mb 0x10 8) = true → 2 ^ 12 ≤ argOf s mb 0x10 8 → argOf s mb 0x10 8 ≤ 2 ^ 40 → argOf s mb 8 8 % argOf s mb 0x10 8 = 0 →
    localRange (argOf s mb 8 8) (argOf s mb 0x10 8) = true → s.aux.inw = [] → Runs (.fwGrantIn mb) s (fun t =>
      t.aux.inw = [(argOf s mb 4 1, { base := argOf s mb 8 8, size := argOf s mb 0x10 8, rights := argOf s mb 0x18 1 % 16, hint := if argOf s mb 0x18 1 / 16 = 0 then 1 else argOf s mb 0x18 1 / 16 })] ∧
      (t.mbox mb).res = some (0, padTo 64 []) ∧ t.mem = s.mem ∧ t.regs = s.regs)) ∧
  (∀ s mb, Ready s mb 0x721 [(4, 1), (8, 8), (0x10, 8), (0x18, 8), (0x20, 1)] → s.fld .fwStatus 0 0 0 1 = 1 → argOf s mb 4 1 < 16 → argOf s mb 0x20 1 < 4 →
    0 < argOf s mb 0x10 8 → isAuxWin (argOf s mb 8 8) = true → isAuxWin (argOf s mb 8 8 + argOf s mb 0x10 8 - 1) = true →
    exec (.fwGrantOut mb) s = .next (answer { s with aux := { s.aux with outw := s.aux.outw.set (argOf s mb 4 1) { base := argOf s mb 8 8, size := argOf s mb 0x10 8, rights := argOf s mb 0x20 1, offset := argOf s mb 0x18 8 } } } mb 0)) ∧
  (∀ s mb, Ready s mb 0x722 [(8, 2), (0xA, 2)] → s.fld .fwStatus 0 0 0 1 = 1 → 0xF00 ≤ argOf s mb 0xA 2 → argOf s mb 0xA 2 + 15 ≤ 0xFFF →
    exec (.fwGrantCmd mb) s = .next (answer { s with aux := { s.aux with mask := argOf s mb 8 2, evFirst := some (argOf s mb 0xA 2) } } mb 0)) ∧
  (∀ s mb w, Ready s mb 0x723 [(4, 1), (5, 1), (8, 4)] → s.fld .fwStatus 0 0 0 1 = 1 → argOf s mb 4 1 = 1 → argOf s mb 5 1 < 16 →
    s.aux.outw.find? (argOf s mb 5 1) = some w → Runs (.fwRevoke mb) s (fun t =>
      (t.aux.outw.find? (argOf s mb 5 1)) = some { w with revoking := some (s.now + argOf s mb 8 4 * 1000, some mb) } ∧
      (t.mbox mb).waiting = true ∧ (t.mbox mb).res = none ∧ t.mem = s.mem ∧ t.regs = s.regs)) ∧
  (∀ (s : State) slot dl mb, slot < 16 → (s.aux.outw.get {} slot).revoking = some (dl, mb) →
    exec (.fwRevokeCancel 1 slot) s = .next (({ s with aux := { s.aux with outw := s.aux.outw.del slot } } : State).mbResult? mb 0)) ∧
  (∀ (s : State) slot dl mb, slot < 16 → (s.aux.inw.get {} slot).revoking = some (dl, mb) → dl ≤ s.now →
    let s1 := s.auxCancel (s.aux.inw.get {} slot)
    (s.lastCache slot = false → exec (.fwRevokeCancel 0 slot) s = .next (s1.fwRevoked 0 slot mb)) ∧
    (s.lastCache slot = true → (s1.auxOut && s1.auxQuiet) = true → exec (.fwRevokeCancel 0 slot) s = .next (s1.fwRevoked 0 slot mb)) ∧
    (s.lastCache slot = true → (s1.auxOut && s1.auxQuiet) = false → exec (.fwRevokeCancel 0 slot) s = .next s1.recallAux)) ∧
  (∀ s mb w, Ready s mb 0x723 [(4, 1), (5, 1), (8, 4)] → s.fld .fwStatus 0 0 0 1 = 1 → argOf s mb 4 1 = 0 → argOf s mb 5 1 < 16 →
    s.aux.inw.find? (argOf s mb 5 1) = some w → exec (.fwRevoke mb) s = .next (
      let rv : FwWin := { w with revoking := some (s.now + argOf s mb 8 4 * 1000, some mb) }
      let s1 : State := { s with aux := { s.aux with inw := s.aux.inw.set (argOf s mb 5 1) rv } }
      later (if s.lastCache (argOf s mb 5 1) then s1.recallAux else s1) mb))

end Sys2Proof

/-- The auxiliary site: bring-up, firewall checks and grants. -/
def Obligations.AuxiliarySite : Prop :=
  Sys2Proof.Parts.AuxiliaryBringup ∧ Sys2Proof.Parts.FirewallChecks ∧ Sys2Proof.Parts.FirewallGrants

namespace Sys2Proof

/- The Col fabric: ports. -/

/-- R280, R281: light on a DARK or DOWN port that no margin holds dark makes it train; an attempt that succeeds brings it
UP, ends the dead mark on its partner and tells the partner of the best time source (R301, R304), and a third failure DOWN; a
store of light is kept in every state. -/
def Parts.PortsTrain : Prop :=
  (∀ (s : State) p, p < 48 → (s.portState p = 0 ∨ s.portState p = 4) → (s.port p).dark = false → exec (.lightDetected p) s =
    .next ((s.setPort p { s.port p with light := true, lnk := {}, part := [], missed := 0, known := false }).toState p 1)) ∧
  (∀ (s : State) p, p < 48 → ((s.portState p ≠ 0 ∧ s.portState p ≠ 4) ∨ (s.port p).dark = true) → exec (.lightDetected p) s = .next (s.setPort p { s.port p with light := true })) ∧
  (∀ (s : State) p, p < 48 → s.portState p = 1 →
    let s1 := s.setPort p ((s.port p).up s.now)
    let s2 : State := { s1 with fab := { s1.fab with deadPhys := s1.fab.deadPhys.filter (· ≠ s.partnerPos p) } }
    exec (.colPortTraining p true) s = .next ((s2.toState p 2).tellPort p)) ∧
  (∀ (s : State) p, p < 48 → s.portState p = 1 → (s.port p).lnk.attempts < 2 → exec (.colPortTraining p false) s =
    .next (s.setPort p { s.port p with lnk := { (s.port p).lnk with attempts := (s.port p).lnk.attempts + 1 } })) ∧
  (∀ (s : State) p, p < 48 → s.portState p = 1 → 2 ≤ (s.port p).lnk.attempts → exec (.colPortTraining p false) s =
    .next ((s.setPort p { s.port p with lnk := { (s.port p).lnk with attempts := 0 } }).toState p 4)) ∧
  (∀ (s : State) p st, p < 48 → st < 8 → s.portState p ≠ st → ∃ s1, s.toState p st =
    State.post s1 evFabPort 13 [(1, p), (1, st), (2, physPos (s1.fld .fabPortStatus p 0 8 9) (s1.fld .fabPortStatus p 0 17 5))] ∧
    s1.portState p = st ∧ s1.fld .fabPortStatus p 0 32 4 = (if st = 2 then 15 else 0) ∧ s1.mem = s.mem)

/-- R262, R263, R280, R284: a frame whose FEC block is uncorrectable is counted, and like one whose CRC fails or one out of
turn it is discarded; the expected frame is accepted, the port expects the next, and the packets that its slots complete
wait for the module, in order. A port that waits two microseconds for an acknowledgement trains again. -/
def Parts.Frames : Prop :=
  ∀ (s : State) p fl, p < 48 → s.oeUp p = true → (s.portState p = 2 ∨ s.portState p = 3 ∨ s.portState p = 6) →
    let h := colHdr fl
    exec (.colFrameReceive p fl false) s = .next (((s.incFld .fabPortErr p 0 0 16).wsReport 7).setPort p { s.port p with lnk := (s.port p).lnk.discard }) ∧
    ((flitCrcOk fl = false ∨ h.seq ≠ (s.port p).lnk.expect) →
      exec (.colFrameReceive p fl true) s = .next (s.setPort p { s.port p with lnk := (s.port p).lnk.discard })) ∧
    (flitCrcOk fl = true → h.seq = (s.port p).lnk.expect → h.nak = false → s.pmuOn 580 = false → Runs (.colFrameReceive p fl true) s (fun t =>
      let all := (s.port p).part ++ colPayload fl
      (t.port p).lnk.expect = (h.seq + 1) % 65536 ∧ (t.port p).lnk.dropping = false ∧ (t.port p).txq = (s.port p).txq ∧
      (t.port p).lnk.sent = ackUpTo (s.port p).lnk.sent h.ack ∧
      (s.portState p ≠ 6 → (t.port p).arrived = (s.port p).arrived ++ (takePkts (all.length / 4 + 1) all).1 ∧
        (t.port p).part = (takePkts (all.length / 4 + 1) all).2) ∧
      (s.portState p = 6 → (t.port p).arrived = (s.port p).arrived) ∧ t.regs = s.regs ∧ t.mem = s.mem)) ∧
    ((s.port p).lnk.sent ≠ [] → (s.port p).lnk.ackAt + 2000 ≤ s.now → exec (.ackTimeout (1024 + p)) s = .next (s.portRetrain p)) ∧
    (s.now < (s.port p).lnk.ackAt + 2000 → exec (.ackTimeout (1024 + p)) s = .next s)

/-- R281, R303: an UP port that loses its light, or the third heartbeat in a row, becomes SUSPECT; a port that trains or is
MISWIRED and loses its light goes dark. A probe that is answered leaves the port DOWN, and one that is not in 20 µs leaves
it DOWN with its partner declared dead. -/
def Parts.LostPartners : Prop :=
  (∀ (s : State) p, p < 48 → (s.portState p = 2 →
      exec (.lossOfLight p) s = .next ((s.setPort p { s.port p with light := false }).suspect p)) ∧
    ((s.portState p = 1 ∨ s.portState p = 6) →
      exec (.lossOfLight p) s = .next (((s.setPort p { s.port p with light := false }).toState p 0).portLeft p))) ∧
  (∀ (s : State) p, p < 48 → s.portState p = 2 →
    let s1 := ((s.incFld .fabPortErr p 0 32 8).wsReport 8).setPort p { s.port p with missed := (s.port p).missed + 1 }
    ((s.port p).missed < 2 → exec (.heartbeatMiss p) s = .next s1) ∧
    (2 ≤ (s.port p).missed → exec (.heartbeatMiss p) s = .next (s1.suspect p))) ∧
  (∀ (s : State) p t, p < 48 → s.portState p = 3 → (s.port p).probeAt = some t →
    exec (.probeReply p) s = .next ((s.setPort p { s.port p with probeAt := none }).toState p 4) ∧
    (t + 20000 ≤ s.now → exec (.probeTimeout p) s = .next (((s.setPort p { s.port p with probeAt := none }).toState p 4).declareDead p)) ∧
    (s.now < t + 20000 → exec (.probeTimeout p) s = .next s)) ∧
  (∀ (s : State) p k, p < 48 → k.wf = true → k.tc = 3 → k.op = 0x32 → exec (.probe p k) s =
    .next (let r := (s.takePkt k).injected { pktBlank with dst := k.src, tc := 3, op := 0x33 }
      r.1.movePkt r.2)) ∧
  (∀ (s : State) a v, let r := s.injected { pktBlank with dst := a, tc := 3, op := 0x32 }
    let l := (r.1.stamp.2.viaPlains r.2.epoch).filter (fun q => q ≠ a / 32)
    (a / 32 = r.1.plainNo → s.sendProbe a = r.1.routePkt r.2) ∧
    (a / 32 ≠ r.1.plainNo → l[Config.viaPick r.1.stamp.1 % max 1 l.length]? = some v →
      s.sendProbe a = r.1.stamp.2.routePkt { r.2 with nm := true, via := v }))

/-- R304: a notice is dealt with once: it is sent on to every port that is UP, its subject is marked dead, what waits for
that module fails, and the event is posted. -/
def Parts.DeadNotices : Prop :=
  ∀ (s : State) (d : DeadN), d.plain < 512 → d.member < 32 → d.laddr < 2 ^ 14 → d.declarer < 2 ^ 14 → d.time < 2 ^ 64 →
    (d ∈ s.fab.notices → exec (.deadNotice d) s = .next s) ∧
    (d ∉ s.fab.notices → exec (.deadNotice d) s = .next ((s.flood { pktBlank with src := (s.laddr).getD 0, tc := 3, op := 0x31, tstamp := s.tstamp, data := noticeBytes d } none).applyDead d)) ∧
    (s.fab.rem = [] → s.ws.snap = none → s.cgs = [] → d.laddr % 32 < 24 → s.fab.dead.length < 2 ^ 14 - 1 → ∃ s1 : State,
      s.applyDead d = s1.post evFabDead 13 [(2, d.laddr), (2, physPos d.plain d.member), (2, d.declarer), (8, d.time)] ∧
      d.laddr ∈ s1.fab.dead ∧ (d.plain, d.member) ∈ s1.fab.deadPhys ∧ s1.fld .fabStatus 0 0 40 14 = s1.fab.dead.length ∧ s1.mem = s.mem)

/-- R280, R282, R294: on their timers an UP port whose optical engine's link is up sends a HELLO, with what the module knows of
itself, and a heartbeat, with its stamps and flags. A partner's HELLO leaves its plain, its member and
whether that is known in FAB_PORT_STATUS; a module without a number takes the one the rule finds, and every port is then
checked. -/
def Parts.Discovery : Prop :=
  (∀ (s : State) p, p < 48 → s.oeUp p = true →
    ((s.portState p = 2 ∨ s.portState p = 6) → exec (.helloTimer p) s = .next (s.setPort p { s.port p with
      hellos := (s.port p).hellos + 1,
      helloOut := some { serial := Config.serial.toNat, plain := s.plainNo, port := p, member := (s.memberNo).getD 0, mvalid := s.memberNo.isSome, root := s.root } })) ∧
    ((s.portState p = 2 ∨ s.portState p = 3) → exec (.heartbeatTimer p) s = .next (s.setPort p { s.port p with
      beats := (s.port p).beats + 1,
      beatOut := some { stamp := s.now, echo := (s.port p).echo.1, echoAt := (s.port p).echo.2, inReset := s.inReset .warm, parked := s.fld .pwrStatus 0 0 0 3 == 3 } }))) ∧
  (∀ (s : State) p (h : HelloF), p < 47 → h.plain < 512 → h.port < 48 → h.member < 24 → h.serial < 2 ^ 64 → h.root < 2 ^ 64 →
    s.oeUp p = true → (s.portState p = 2 ∨ s.portState p = 6) →
    let x := { s.port p with serial := h.serial, root := h.root, plain := h.plain, member := h.member, mvalid := h.mvalid, pport := h.port, known := true }
    let s1 := (((s.setPort p x).setFld .fabPortStatus p 0 8 9 h.plain).setFld .fabPortStatus p 0 17 5 h.member).setFld .fabPortStatus p 0 22 1 h.mvalid.toNat
    let s2 := s1.checkPort p
    exec (.hello p h) s = .next (State.checkPorts (match s2.memberNo, s2.findMember with
      | none, some m => (s2.setFld .fabId 0 0 25 5 m).setFld .fabId 0 0 30 1 1
      | _, _ => s2))) ∧
  (∀ (s : State), s.partners = [] → s.findMember = some 0) ∧
  (∀ (s : State) e, s.partners.find? (fun (e : Nat × ColPort) => e.2.mvalid) = some e → s.findMember = some ((e.2.member + 47 - e.1) % 24))

/-- R280, R300: a heartbeat clears the misses of its port, keeps the partner's stamp for the answer, and shows whether its
partner is in reset or parked; on the port toward the master its offset is kept, an offset within 10 ns begins or continues
a good time, and the count has that far to go. -/
def Parts.Heartbeats : Prop :=
  ∀ (s : State) p h, p < 48 → -(2 ^ 31) ≤ h.offset → h.offset < 2 ^ 31 → h.stamp < 2 ^ 64 → s.oeUp p = true → s.portState p = 2 →
    let s1 := (s.setPort p { s.port p with missed := 0, echo := (h.stamp, s.now) }).setFld .fabPortStatus p 0 7 1 (h.inReset || h.parked).toNat
    (s.fld .fabTimeStatus 0 0 16 6 ≠ p → exec (.heartbeatReceive p h) s = .next s1) ∧
    (s.fld .fabTimeStatus 0 0 16 6 = p → Runs (.heartbeatReceive p h) s (fun t =>
      (t.port p).missed = 0 ∧ (t.port p).echo = (h.stamp, s.now) ∧ t.fld .fabPortStatus p 0 7 1 = (h.inReset || h.parked).toNat ∧
      t.fld .fabTimeStatus 0 0 32 32 = (h.offset % 2 ^ 32).toNat ∧ t.fab.slewLeft = h.offset ∧ t.fab.up = some (h.stamp, s.ref) ∧
      t.fab.goodSince = (if h.offset.natAbs ≤ 10 then some ((s.fab.goodSince).getD s.ref) else none) ∧ t.mem = s.mem))

end Sys2Proof

/-- Lost partners, dead notices, discovery and heartbeats. -/
def Obligations.FabricMembers : Prop :=
  Sys2Proof.Parts.LostPartners ∧ Sys2Proof.Parts.DeadNotices ∧ Sys2Proof.Parts.Discovery ∧ Sys2Proof.Parts.Heartbeats

namespace Sys2Proof

/- The Col fabric: packets. -/

/-- R284 to R289: the packet that has arrived first, whole, at a port is taken from it, and is delivered, sent on one hop
further, or fails: of an unknown kind, older than the lifetime, or without a route; only a request is answered by a failure,
to its source. The map of the bank that its epoch names decides whether it is delivered. A packet that has not arrived first
changes nothing. -/
def Parts.FabricPackets : Prop :=
  ∀ (s : State) p k, k.wf = true → p < 48 →
    ((s.port p).arrived.head? ≠ some k → exec (.packetReceive (some p) k) s = .next s) ∧
    ((s.port p).arrived.head? = some k →
      let s0 := s.takeArrived p
      (pktKnown k = false → exec (.packetReceive (some p) k) s = .next (if k.tc = 0 then s0.respond k 0x12 1 false [] else s0)) ∧
      (pktKnown k = true →
        let old := (s.tstamp + 2 ^ 16 - k.tstamp) % 2 ^ 16 * 1024 > s.fab.lifetime * 1000
        (old → k.tc = 0 → exec (.packetReceive (some p) k) s = .next (s0.respond k 0x12 11 false [])) ∧
        (old → k.tc ≠ 0 → exec (.packetReceive (some p) k) s = .next (s0.incFld .fabStatus 0 0 8 16)) ∧
        (¬ old → (k.tc = 4 ∨ k.op = 0x31) → exec (.packetReceive (some p) k) s = .next (s0.deliverPkt k)) ∧
        (¬ old → k.tc ≠ 4 → k.op ≠ 0x31 → ∀ m, k.dst / 32 = s.plainNo → (k.nm = false ∨ s.plainNo ≠ k.via) → s.memberNo = some m →
          s.mapOf k.epoch (k.dst % 32) = some m → Runs (.packetReceive (some p) k) s (fun t =>
            t.fab.inbox = s.fab.inbox ++ [k] ∧ t.fab.ports = s0.fab.ports ∧ t.regs = s.regs ∧ t.mem = s.mem)) ∧
        (¬ old → k.tc ≠ 4 → k.op ≠ 0x31 → s.pmuOn 580 = false → ∀ q k1, k1.hops < 7 → s0.stamp.2.route s0.stamp.1 k 2 = .port q k1 →
          exec (.packetReceive (some p) k) s = .next (s0.stamp.2.sendOn q k1))))

/-- R284, R287: a request that a module sends carries its address and epoch, no hops, and the time; within the own plain it
takes the port of the member its address is mapped to. -/
def Parts.Routing : Prop :=
  (∀ (s : State) pick k m d p n, s.plainNo = k.dst / 32 → (k.nm = false ∨ s.plainNo ≠ k.via) → s.memberNo = some m →
    s.mapOf k.epoch (k.dst % 32) = some d → d ≠ m → s.toMember m d = some p → s.route pick k (n + 1) = .port p k) ∧
  (∀ (s : State) m d, m < 24 → d < 24 → d ≠ m → s.portState ((d + 23 - m) % 24) = 2 → s.toMember m d = some ((d + 23 - m) % 24)) ∧
  (∀ (s : State) m d p, m < 24 → d < 24 → s.toMember m d = some p → s.portState p = 2 ∧ (p < 23 ∨ p = 47)) ∧
  (∀ (s : State) k, s.stamp.2.memberNo.isSome = true → k.dst / 32 = s.plainNo → s.inject k = s.stamp.2.routePkt
    { k with src := (s.laddr).getD 0, epoch := s.epoch, hops := 0, nm := false, tstamp := s.tstamp })

end Sys2Proof

/-- Packets of the fabric: checks, routing and forwarding. -/
def Obligations.FabricPackets : Prop :=
  Sys2Proof.Parts.FabricPackets ∧ Sys2Proof.Parts.Routing

namespace Sys2Proof

/-- R293, R294: a fabric-remote request for a line that is free is performed at its home and answered: a read with the line,
a write with an acknowledgement, unless an earlier write of the same source waits, an atomic with what stood there; a module in reset, parked, disabled, or without memory
answers its status instead. -/
def Parts.RemoteRequests : Prop :=
  ∀ (s : State) k, k.wf = true → k.tc = 0 → pktKnown k = true →
    let s0 := s.takePkt k
    (s.inReset .warm = true → exec (.fabricRemoteRequest k) s = .next (s0.respond k 0x12 9 false [])) ∧
    (s.inReset .warm = false → s.fld .fabCtrl 0 0 0 1 = 0 → exec (.fabricRemoteRequest k) s = .next (s0.respond k 0x12 8 false [])) ∧
    (s.inReset .warm = false → s.fld .fabCtrl 0 0 0 1 = 1 → s.fld .pwrStatus 0 0 0 3 = 3 →
      exec (.fabricRemoteRequest k) s = .next (s0.respond k 0x12 10 false [])) ∧
    (s.inReset .warm = false → s.fld .fabCtrl 0 0 0 1 = 1 → s.fld .pwrStatus 0 0 0 3 ≠ 3 → s.memOk = true →
      (s.writeWaits k = true → exec (.fabricRemoteRequest k) s = .next s) ∧
      (s.writeWaits k = false → (∀ i, s.lineBusy (k.offset / 128 + i) = false) →
      (k.op = 1 → localRange (k.offset / 128 * 128) 128 = true → ∀ s1 d p, s0.ncRead (k.offset / 128) k.hint = .ok s1 d p →
        exec (.fabricRemoteRequest k) s = .next (s1.respond k 0x10 0 p ((upTo 128).map (fun i => lineByte d i)))) ∧
      (k.op = 2 → k.data.length = 128 → k.offset % 128 = 0 → localRange k.offset 128 = true → ∀ s1 d p,
        s0.ncWrite (k.offset / 128) (BitVec.allOnes 128) (lineOfBytes (k.data.take 128)) k.poison 1 = .ok s1 d p →
        exec (.fabricRemoteRequest k) s = .next (s1.respond k 0x11 0 false [])) ∧
      (k.op = 3 → k.data.length = 24 → ofLeBytes (k.data.take 1) ≤ 10 → ofLeBytes ((k.data.drop 1).take 1) = 1 → k.offset % 8 = 0 →
        localRange k.offset 8 = true → ∀ s1 d p, s0.ncAmo k.offset 8 (ofLeBytes (k.data.take 1)) (BitVec.ofNat 64 (ofLeBytes ((k.data.drop 8).take 8)))
          (BitVec.ofNat 64 (ofLeBytes ((k.data.drop 16).take 8))) k.hint = .ok s1 d p →
        exec (.fabricRemoteRequest k) s = .next (s1.respond k 0x10 0 p (leBytes 8 (lineBytes d (k.offset % 128) 8))))))

/-- R234, R293: a response ends the request of its tag that waits for it, with data or as a failure, and an answer to no
request is dropped; a request unanswered for the time of ORD_CTRL ends as a bus error. -/
def Parts.RemoteAnswers : Prop :=
  (∀ (s : State) k, k.wf = true → k.tc = 1 → pktKnown k = true →
    ((s.fab.rem.any (fun r => r.tag == k.tag && r.dst == k.src && r.sent)) = true →
      exec (.fabricResponse k) s = .next ((s.takePkt k).remEnd k.tag (k.op == 0x12) k.poison k.data)) ∧
    ((s.fab.rem.any (fun r => r.tag == k.tag && r.dst == k.src && r.sent)) = false → exec (.fabricResponse k) s = .next (s.takePkt k))) ∧
  (∀ (s : State) tag r, s.fab.rem.find? (fun r => r.tag == tag) = some r → r.sent = true → (∀ i, r.w ≠ .store i) →
    (r.started + s.fld .ordCtrl 0 0 0 10 * 1000 ≤ s.now → exec (.fabricRequestTimeout tag) s = .next (s.remEnd tag true false [])) ∧
    (s.now < r.started + s.fld .ordCtrl 0 0 0 10 * 1000 → exec (.fabricRequestTimeout tag) s = .next s))

end Sys2Proof

/-- Memory requests of other modules, and the answers to the module's own. -/
def Obligations.RemoteMemory : Prop :=
  Sys2Proof.Parts.RemoteRequests ∧ Sys2Proof.Parts.RemoteAnswers

namespace Sys2Proof

/- The Col fabric: time and routing banks. -/

/-- R300, R301: a better announcement makes its sender the master and goes on; a module that is better announces itself. A
module whose offset has been good for a millisecond locks; only from UNLOCKED, and not as the master, it steps its count, to
within 10 ns of the count that its port toward the master tells. Afterwards the count moves by 1 ns in 10 µs at
most. After twenty milliseconds
in HOLDOVER it is UNLOCKED again. -/
def Parts.FabricTime : Prop :=
  (∀ (s : State) p prio serial hops, p < 48 → prio < 256 → serial < 2 ^ 64 → hops < 6 → s.portState p = 2 →
    let less (a b : Nat × Nat) : Prop := a.1 < b.1 ∨ (a.1 = b.1 ∧ a.2 < b.2)
    let own := (s.fld .fabTimeCfg 0 0 0 8, Config.serial.toNat)
    less (prio, serial) own → (s.fab.masterSet = true → less (prio, serial) s.fab.master) → Runs (.timePacket p prio serial hops) s (fun t =>
      t.fab.master = (prio, serial) ∧ t.fab.masterSet = true ∧ (t.port p).dist = hops + 1 ∧ t.fld .fabTimeStatus 0 0 2 1 = 0)) ∧
  (∀ (s : State) t count, s.fab.goodSince = some t → t + 100000 ≤ s.ref →
    let locked (u : State) : State :=
      ((({ u with fab := { u.fab with holdSince := none } } : State).setFld .fabTimeStatus 0 0 0 2 1).timeEvent 0).wakeIdle
    (s.fld .fabTimeStatus 0 0 0 2 = 0 → s.fld .fabTimeStatus 0 0 2 1 = 0 →
      (s.disciplined ≤ count + 10 → count ≤ s.disciplined + 10 →
        exec (.fabricTimeLock count) s = .next (locked { s with now := count })) ∧
      ((count + 10 < s.disciplined ∨ s.disciplined + 10 < count) → exec (.fabricTimeLock count) s = .next s)) ∧
    (s.fld .fabTimeStatus 0 0 0 2 = 0 → s.fld .fabTimeStatus 0 0 2 1 = 1 → exec (.fabricTimeLock count) s = .next (locked s)) ∧
    (2 ≤ s.fld .fabTimeStatus 0 0 0 2 → exec (.fabricTimeLock count) s = .next (locked s))) ∧
  (∀ (s : State), s.slew.now = s.now ∨ (9990 ≤ s.fab.slewRoom ∧ s.slew.fab.slewRoom = 0 ∧ (s.slew.now = s.now + 1 ∨ s.slew.now + 1 = s.now))) ∧
  (∀ (s : State) t, s.fab.holdSince = some t → s.fld .fabTimeStatus 0 0 0 2 = 2 → t + 2000000 ≤ s.ref → s.pwr.slewPend = none →
    s.pwr.ldPend = none → s.fab.switchAt = none → s.ws.snap = none → s.cgs = [] → exec .holdoverTimeout s = .next
      ((((({ s with fab := { s.fab with holdSince := none, goodSince := none } } : State).setFld .pwrStatus 0 0 13 2 0).setFld .fabRtStatus 0 0 1 1 0).setFld
        .fabTimeStatus 0 0 0 2 0).timeEvent 0))

/-- R283, R290 to R292: at the time of its switch the other routing bank becomes active, the old one is held for two
lifetimes, and the module's logical address is the one the new map gives it; when the hold is over EV_FAB_EPOCH says so.
FAB_RT_SWITCH sets the time, at least 20 µs ahead, of a locked module whose bank is not held; refused, EV_FAB_EPOCH carries the
refusal. -/
def Parts.RoutingBanks : Prop :=
  (∀ (s : State) t, s.fab.switchAt = some t → t ≤ s.now → Runs .rtBankFlip s (fun u =>
    u.epoch = 1 - s.epoch ∧ u.fab.switchAt = none ∧ u.fab.heldUntil = some (t + 2 * s.fab.lifetime * 1000) ∧
    u.fab.lifetime = s.fld .fabCtrl 0 0 1 10 ∧ u.fld .fabRtStatus 0 0 1 1 = 0 ∧ u.fld .fabRtStatus 0 0 2 1 = 1 ∧
    (∀ m lm, s.memberNo = some m → (upTo 24).find? (fun lm => s.mapOf (1 - s.epoch) lm == some m) = some lm → u.laddr = some (s.plainNo * 32 + lm)) ∧
    (∀ m, s.memberNo = some m → (∀ lm < 24, s.mapOf (1 - s.epoch) lm ≠ some m) → u.laddr = none) ∧
    u.fab.map = s.fab.map ∧ u.fab.plain = s.fab.plain ∧ u.mem = s.mem)) ∧
  (∀ (s : State) t, s.fab.heldUntil = some t → t ≤ s.now → exec .bankHeldExpiry s = .next
    ((({ s with fab := { s.fab with heldUntil := none } } : State).setFld .fabRtStatus 0 0 2 1 0).post evFabEpoch 13 [(1, s.epoch), (8, (s.reg .fabRtAt 0 0).toNat)])) ∧
  (∀ s mb, Ready s mb 0x303 [(8, 8)] →
    (s.fld .fabTimeStatus 0 0 0 2 ≠ 1 → exec (.fabRtSwitch mb) s = .next (answer (s.post evFabEpoch 13 [(2, 0x0302)]) mb 0x0302)) ∧
    (s.fld .fabTimeStatus 0 0 0 2 = 1 → argOf s mb 8 8 < s.now + 20000 → exec (.fabRtSwitch mb) s = .next (answer (s.post evFabEpoch 13 [(2, 0x0303)]) mb 0x0303)) ∧
    (s.fld .fabTimeStatus 0 0 0 2 = 1 → s.now + 20000 ≤ argOf s mb 8 8 → s.fab.heldUntil.isSome = true → exec (.fabRtSwitch mb) s = .next
      (answer (s.post evFabEpoch 13 [(2, 0x0304)]) mb 0x0304)) ∧
    (s.fld .fabTimeStatus 0 0 0 2 = 1 → s.now + 20000 ≤ argOf s mb 8 8 → s.fab.heldUntil = none → s.fab.switchAt = none →
      exec (.fabRtSwitch mb) s = .next (answer ((({ s with fab := { s.fab with switchAt := some (argOf s mb 8 8) } } : State).setFld .fabRtStatus 0 0 1 1 1).setReg
        .fabRtAt 0 0 (BitVec.ofNat 64 (argOf s mb 8 8))) mb 0))) ∧
  (∀ s mb s1 b, Ready s mb 0x302 [(4, 1), (8, 2), (0xA, 2), (0x10, 8)] → argOf s mb 4 1 = 1 → 0 < argOf s mb 0xA 2 → argOf s mb 8 2 + argOf s mb 0xA 2 ≤ 24 →
    localRange (argOf s mb 0x10 8) (argOf s mb 0xA 2) = true → s.fab.heldUntil = none → s.memOk = true →
    s.readBytes (argOf s mb 0x10 8) (argOf s mb 0xA 2) = some (s1, b, false) → (∀ x ∈ b, x.toNat % 32 < 24) →
    Runs (.fabRtWrite mb) s (fun t => ∃ f : FabS, t = (({ s1 with fab := f } : State).setFld .fabRtStatus 0 0 3 1 0).mbResult mb 0 ∧
      { f with map := s1.fab.map } = s1.fab ∧ (∀ lm < 32, f.map.get 0 (s.epoch * 32 + lm) = s1.fab.map.get 0 (s.epoch * 32 + lm)) ∧
      (∀ i < argOf s mb 0xA 2, f.map.get 0 ((1 - s.epoch) * 32 + argOf s mb 8 2 + i) = ofLeBytes ((b.drop i).take 1)))) ∧
  (∀ s mb, Ready s mb 0x301 [(8, 2)] → argOf s mb 8 2 < 512 →
    exec (.fabConfig mb false) s = .next (answer s mb 0x0305) ∧
    Runs (.fabConfig mb true) s (fun t => (∀ b < 2, (t.sec.cfg.get {} b).plain = argOf s mb 8 2) ∧ (t.mbox mb).res = some (0, padTo 64 []) ∧
      t.mem = s.mem ∧ t.regs = s.regs ∧ t.fab = s.fab))

end Sys2Proof

/-- Fabric time, and the banks of the routing table. -/
def Obligations.FabricTimeAndRouting : Prop :=
  Sys2Proof.Parts.FabricTime ∧ Sys2Proof.Parts.RoutingBanks

namespace Sys2Proof

/-- R305: FAB_PORT_CTRL disables a port, which carries no traffic from then on and drains; what it still holds when its
grace is over fails to its source, and the command is answered. Enabled again, the port trains where light arrives and is
DARK where none does. -/
def Parts.PortControl : Prop :=
  (∀ s mb, Ready s mb 0x304 [(4, 1), (5, 1), (8, 4)] → argOf s mb 4 1 < 48 → argOf s mb 5 1 = 0 → argOf s mb 8 4 ≤ 1000000 →
    let p := argOf s mb 4 1
    (s.port p).drainEnd = none → s.portState p ≠ 5 → exec (.fabPortDisable mb) s = .next (later
      (((s.setPort p { s.port p with drainEnd := some (s.now + argOf s mb 8 4 * 1000), drainMb := some mb, probeAt := none }).toState p 5).portLeft p) mb)) ∧
  (∀ s mb, Ready s mb 0x304 [(4, 1), (5, 1), (8, 4)] → argOf s mb 4 1 < 48 → argOf s mb 5 1 = 1 → argOf s mb 8 4 ≤ 1000000 →
    let p := argOf s mb 4 1
    (s.port p).drainEnd = none → s.portState p = 5 → ∃ s1,
      s1 = (if (s.port p).light = true ∧ (s.port p).dark = false then (s.setPort p { s.port p with lnk := {}, part := [], missed := 0, known := false }).toState p 1 else s.toState p 0) ∧
      exec (.fabPortEnable mb) s = .next (s1.mbResult mb 0)) ∧
  (∀ (s : State) p e, p < 48 → (s.port p).drainEnd = some e → (e ≤ s.now ∨ (s.port p).txq = []) →
    exec (.fabPortDrainEnd p) s = .next ((((s.port p).txq.foldl (fun s2 k => s2.failPkt k 2)
      (s.setPort p { s.port p with txq := [], drainEnd := none, drainMb := none })).mbResult? (s.port p).drainMb 0)))

end Sys2Proof

/-- Col ports: training, frames, and their control. -/
def Obligations.FabricPorts : Prop :=
  Sys2Proof.Parts.PortsTrain ∧ Sys2Proof.Parts.Frames ∧ Sys2Proof.Parts.PortControl

namespace Sys2Proof

/-- R295, R310: FAB_CG_CREATE makes a group of the members that its list in memory names, the own module once among them;
FAB_CG_DESTROY removes a group without an open instance, and cancels one first. A doorbell moves forward within the ring,
and beyond it sets the error bit. -/
def Parts.Groups : Prop :=
  (∀ s mb s1 b me, Ready s mb 0x310 [(4, 2), (8, 8), (0x10, 2), (0x18, 8), (0x20, 2), (0x24, 4)] → argOf s mb 4 2 < 4096 →
    0 < argOf s mb 0x10 2 → argOf s mb 0x10 2 ≤ 12288 → localRange (argOf s mb 8 8) (2 * argOf s mb 0x10 2) = true →
    cgRingOk (argOf s mb 0x18 8) (argOf s mb 0x20 2) = true → s.cgs.has (argOf s mb 4 2) = false → s.memOk = true →
    s.readBytes (argOf s mb 8 8) (2 * argOf s mb 0x10 2) = some (s1, b, false) → s.laddr = some me →
    let ms := (upTo (argOf s mb 0x10 2)).map (fun i => ofLeBytes ((b.drop (2 * i)).take 2))
    (∀ x ∈ ms, x < 2 ^ 14 ∧ x % 32 < 24) → ms.count me = 1 →
    exec (.fabCgCreate mb) s = .next (((s1.setCg (argOf s mb 4 2) { members := ms, addr := me, ring := argOf s mb 0x18 8, size := argOf s mb 0x20 2, defdl := argOf s mb 0x24 4 }).setReg .cgDoorbell (argOf s mb 4 2) 0 0).mbResult mb 0)) ∧
  (∀ s mb g, Ready s mb 0x311 [(4, 2)] → s.cgs.find? (argOf s mb 4 2) = some g → g.destroying = none →
    (g.inst = none → exec (.fabCgDestroy mb) s = .next (answer { s with cgs := s.cgs.del (argOf s mb 4 2) } mb 0)) ∧
    (∀ i, g.inst = some i → exec (.fabCgDestroy mb) s = .next (later
      (s.setCg (argOf s mb 4 2) { g with inst := some { i with cancelled := true, send := [] }, destroying := some mb }) mb))) ∧
  (∀ (s : State) iss gid v, gid < 4096 → s.reach iss (regAddr .cgDoorbell gid 0) = .ok →
    (∀ g, s.fld .pwrStatus 0 0 0 3 ≠ 3 → s.cgs.find? gid = some g →
      ((s.reg .cgDoorbell gid 0).toNat < v.toNat → v.toNat ≤ g.ridx + g.size → exec (.fabCgDoorbell iss gid 8 v) s = .next ((s.setReg .cgDoorbell gid 0 v).wrote iss)) ∧
      ((s.reg .cgDoorbell gid 0).toNat < v.toNat → g.ridx + g.size < v.toNat → exec (.fabCgDoorbell iss gid 8 v) s = .next ((s.setFld .fabStatus 0 0 0 1 1).wrote iss)) ∧
      (v.toNat ≤ (s.reg .cgDoorbell gid 0).toNat → exec (.fabCgDoorbell iss gid 8 v) s = .next (s.wrote iss))) ∧
    ((s.fld .pwrStatus 0 0 0 3 = 3 ∨ s.cgs.find? gid = none) → exec (.fabCgDoorbell iss gid 8 v) s = .next ((s.setFld .fabStatus 0 0 0 1 1).wrote iss)))

/- Collectives. -/

/-- R71, R295 to R297: an active group takes the next record of its ring, whose slot it marks free, and the instance opens
when fabric time has reached its START; an empty slot is read again. An instance that waits opens at its START. -/
def Parts.CollectiveStarts : Prop :=
  ∀ (s : State) gid g, gid < 4096 → s.cgs.find? gid = some g → s.laddr = some g.addr → g.destroying = none →
    (g.inst = none → (s.reg .cgDoorbell gid 0).toNat ≤ g.ridx → exec (.collectiveStart gid) s = .next s) ∧
    (∀ s1 d, g.inst = none → g.ridx < (s.reg .cgDoorbell gid 0).toNat →
      let a := g.ring + 64 * (g.ridx % g.size)
      s.ncRead (a / 128) 1 = .ok s1 d false →
      (lineBytes d (a % 128) 1 = 0 → exec (.collectiveStart gid) s = .next s1) ∧
      (∀ s2 d2 p2, lineBytes d (a % 128) 1 ≠ 0 → s1.ncPut a [0] 1 = .ok s2 d2 p2 →
        let i := instOf g (g.first + g.ridx) s.now d (a % 128) false (s.fld .fabTimeStatus 0 0 0 2 == 0)
        let g1 := { g with ridx := g.ridx + 1, inst := some i }
        ((i.bad = true ∨ i.unlocked = true ∨ s2.now < i.start) → exec (.collectiveStart gid) s = .next (s2.setCg gid g1)) ∧
        (i.bad = false → i.unlocked = false → i.start ≤ s2.now → exec (.collectiveStart gid) s = .next ((s2.setCg gid g1).cgOpen gid g1 i)))) ∧
    (∀ i, g.inst = some i →
      (i.opened = false → i.bad = false → i.unlocked = false → i.cancelled = false → i.start ≤ s.now → exec (.collectiveStart gid) s = .next (s.cgOpen gid g i)) ∧
      ((i.opened = true ∨ s.now < i.start) → exec (.collectiveStart gid) s = .next s))

/-- R296, R298: shard r of n takes the lines from r * L / n on, so that the shards partition the lines in order, and an
instance awaits exactly the members that are not marked dead. -/
def Parts.Shards : Prop :=
  (∀ (i : CInst) n r x, 0 < n → (x ∈ i.lines n r ↔ i.first n r ≤ x ∧ x < i.first n (r + 1))) ∧
  (∀ (i : CInst) n x, 0 < n → x < i.nlines → x ∈ i.lines n (i.shardOf n x) ∧ i.shardOf n x < n) ∧
  (∀ (i : CInst) n r q x, 0 < n → x ∈ i.lines n r → x ∈ i.lines n q → r = q)

/-- R297: a line that arrives for an open instance is folded where this module holds its shard, and otherwise written at DST
when it comes from its source; one of an instance that has not opened waits, and one of an instance that is over is
dropped. -/
def Parts.CollectivePackets : Prop :=
  (∀ (s : State) k g q, k.data.length ≤ 512 → s.cgs.find? k.group = some g → g.rank k.src = some q →
    let s0 := s.takePkt k
    (∀ i, g.inst = some i → (k.offset >>> 28) % 8192 = i.k % 8192 → i.opened = true → k.tc = 2 → (k.op = 0x20 ∨ k.op = 0x21) →
      k.data.length % 128 = 0 → k.data ≠ [] → (∀ x ∈ pktLines k, x.1 < i.nlines ∧ i.shardOf g.n x.1 = i.shardOf g.n (k.offset % 2 ^ 28)) →
      let r := i.shardOf g.n (k.offset % 2 ^ 28)
      (i.reduces = true → i.shards.has r = true → exec (.collectiveData k) s =
        .next ((s0.setCg k.group { g with inst := some (i.contribute g.n r q (max 1 k.ccount) (pktLines k)) }).cgStep k.group)) ∧
      (i.reduces = false → q = i.source g.n r → exec (.collectiveData k) s = .next (
        let y := s0.dstWrites i 1 ((pktLines k).filter (fun x => !i.recv.has x.1))
        y.1.setCg k.group { g with inst := some y.2 }))) ∧
    (∀ i, g.inst = some i → (k.offset >>> 28) % 8192 = i.k % 8192 → i.opened = false → i.bad = false → i.unlocked = false → i.cancelled = false →
      exec (.collectiveData k) s = .next s) ∧
    (g.inst = none → (k.offset >>> 28) % 8192 = (g.first + g.ridx) % 8192 → exec (.collectiveData k) s = .next s) ∧
    (∀ i, g.inst = some i → (k.offset >>> 28) % 8192 = (i.k + 8191) % 8192 → exec (.collectiveData k) s = .next s0)) ∧
  (∀ (s : State) k, k.data.length ≤ 512 → s.cgs.find? k.group = none → exec (.collectiveData k) s = .next (s.takePkt k))

end Sys2Proof

/-- Collectives: start, shards, and what a packet contributes. -/
def Obligations.CollectiveData : Prop :=
  Sys2Proof.Parts.CollectiveStarts ∧ Sys2Proof.Parts.Shards ∧ Sys2Proof.Parts.CollectivePackets

namespace Sys2Proof

/-- R298: at the deadline of a reducing instance each shard that its own owner folds closes with the contributions that it
has; a stand-in closes a default deadline later. Lines of an all-gather or a broadcast that have not come are lost. Before
the deadline nothing closes. -/
def Parts.CollectiveDeadlines : Prop :=
  ∀ (s : State) gid g i, gid < 4096 → s.cgs.find? gid = some g → g.inst = some i →
    (s.now < i.deadline → exec (.collectiveDeadline gid) s = .next s) ∧
    (i.opened = true → i.deadline ≤ s.now → i.reduces = true → exec (.collectiveDeadline gid) s = .next (s.closeAll gid g i (fun _ sh => !sh.standIn))) ∧
    (i.opened = true → i.deadline ≤ s.now → i.op = 2 → (∃ x < i.nlines, i.recv.has x = false) → exec (.collectiveDeadline gid) s = .next (
      let y := s.loseLines { i with shardLost := true } ((upTo i.nlines).filter (fun x => !i.recv.has x))
      y.1.setCg gid { g with inst := some y.2 })) ∧
    (∀ r, i.opened = true → i.deadline + g.defdl * 1000 ≤ s.now → exec (.standInDeadline gid r) s = .next (s.closeAll gid g i (fun q sh => q == r && sh.standIn))) ∧
    (∀ r, s.now < i.deadline + g.defdl * 1000 → exec (.standInDeadline gid r) s = .next s)

/-- R299: when everything is written, the completion record, the status with the least and the greatest count and the
instance's number, is written, and the group may take its next record; a group that is being destroyed goes, and its
command is answered. -/
def Parts.CollectiveEnds : Prop :=
  ∀ (s : State) gid g i s1 d p, gid < 4096 → s.cgs.find? gid = some g → g.inst = some i → i.ended = true → i.compl % 16 = 0 →
    localRange i.compl 16 = true →
    (let cs := (i.recv.map (·.2)).filter (fun c => i.reduces || c ≠ 0)
     let lo := match cs with | [] => 0 | c :: r => r.foldl min c
     s.ncPut i.compl (leBytes 2 (i.status g.n) ++ leBytes 2 lo ++ leBytes 2 (cs.foldl max 0) ++ leBytes 2 0 ++ leBytes 8 i.k) 1 = .ok s1 d p) →
    let s2 := if i.opened then s1.monRecord 10 ((s1.now - i.openedAt) / 1000) else s1
    (g.destroying = none → exec (.collectiveCompletion gid) s = .next (s2.setCg gid { g with inst := none })) ∧
    (∀ mb, g.destroying = some mb → exec (.collectiveCompletion gid) s = .next (({ s2 with cgs := s2.cgs.del gid } : State).mbResult mb 0))

/-- R299: the status of an instance: a bad record, an unlocked module, a cancel, a lost root, a lost shard, a result of fewer
than all contributions, success, in that order. -/
def Parts.CollectiveStatus : Prop :=
  ∀ (i : CInst) n,
    (i.bad = true → i.status n = 0x0323) ∧
    (i.bad = false → i.unlocked = true → i.status n = 0x0302) ∧
    (i.bad = false → i.unlocked = false → i.cancelled = true → i.status n = 0x0202) ∧
    (i.bad = false → i.unlocked = false → i.cancelled = false → i.rootLost = true → i.status n = 0x0322) ∧
    (i.bad = false → i.unlocked = false → i.cancelled = false → i.rootLost = false → i.shardLost = true → i.status n = 0x0321) ∧
    (i.bad = false → i.unlocked = false → i.cancelled = false → i.rootLost = false → i.shardLost = false → i.reduces = true →
      (∃ e ∈ i.recv, e.2 < n) → i.status n = 0x0320) ∧
    (i.bad = false → i.unlocked = false → i.cancelled = false → i.rootLost = false → i.shardLost = false → i.reduces = false → i.status n = 0)

end Sys2Proof

/-- Collectives: deadlines, ends and their status. -/
def Obligations.CollectiveEnds : Prop :=
  Sys2Proof.Parts.CollectiveDeadlines ∧ Sys2Proof.Parts.CollectiveEnds ∧ Sys2Proof.Parts.CollectiveStatus

namespace Sys2Proof

/- The Watershed. -/

/-- R312 to R314: a sample moves each input's short average by a sixty-fourth of the difference, its long one by a
65,536th, takes the weighted excess as its stress, and their sum as the score; the counts begin again. A score at the
secure threshold makes the module SECURE and posts the event with the three largest inputs. -/
def Parts.Samples : Prop :=
  (∀ (s : State) i, i < 12 →
    let t := s.wsAverage.1
    let x : Int := (s.wsEvents i * 65536 : Nat)
    t.ws.f.get 0 i = s.ws.f.get 0 i + (x - s.ws.f.get 0 i).fdiv 64 ∧
    t.ws.b.get 0 i = s.ws.b.get 0 i + (x - s.ws.b.get 0 i).fdiv 65536 ∧
    t.fld .wsIn i 0 32 16 = (let base : Int := if s.fld .wsStatus 0 0 16 2 = 0 then (s.fld .wsIn i 0 16 16 : Nat) else t.ws.b.get 0 i
      min 65535 ((max 0 (t.ws.f.get 0 i - base)).toNat * s.fld .wsIn i 0 0 16 / 65536)) ∧
    t.fld .wsStatus 0 0 0 16 = s.wsAverage.2.2 ∧ s.wsAverage.2.2 = min 65535 s.wsAverage.2.1.sum ∧ t.ws.c = [] ∧ t.mem = s.mem) ∧
  (∀ (s : State), s.fld .wsCtrl 0 0 0 1 = 0 → exec .wsSample s = .next s) ∧
  (∀ (s : State), s.fld .wsCtrl 0 0 0 1 = 1 → s.pwr.phase = .on → s.fld .wsStatus 0 0 16 2 = 1 → s.fld .wsThresh 0 0 16 16 ≤ s.wsAverage.2.2 →
    exec .wsSample s = .next (
      let n := min 65536 (s.fld .wsStatus 0 0 24 17 + 1)
      let s1 := (s.wsAverage.1.setFld .wsStatus 0 0 24 17 n).setFld .wsStatus 0 0 18 1 ((n == 65536 && 600 * 10 ^ 8 ≤ s.ref : Bool).toNat)
      (({ s1 with ws := { s1.ws with committed := false } } : State).setFld .wsStatus 0 0 16 2 2).post evWsSecureNow 13
        ([(2, s.wsAverage.2.2), (1, 0)] ++ (topInputs s.wsAverage.2.1).map (fun i => (1, i))))) ∧
  (∀ (s : State), s.fld .wsCtrl 0 0 0 1 = 1 → s.pwr.phase = .on → s.fld .wsStatus 0 0 16 2 = 1 → s.wsAverage.2.2 < s.fld .wsThresh 0 0 16 16 →
    s.wsAverage.2.2 < s.fld .wsThresh 0 0 0 16 → Runs .wsSample s (fun t => t.fld .wsStatus 0 0 16 2 = 1 ∧
      t.fld .wsStatus 0 0 0 16 = s.wsAverage.2.2 ∧ t.fld .wsStatus 0 0 24 17 = min 65536 (s.fld .wsStatus 0 0 24 17 + 1) ∧ t.mem = s.mem))

/-- R315, R316: WS_SNAPSHOT answers once the snapshot is scheduled; at its START the slot's record is written with VALID
zero, then its regions are copied, and when all are visible the record is written with VALID one. One snapshot at a time. -/
def Parts.Snapshots : Prop :=
  (∀ s mb, Ready s mb 0x401 [(4, 1), (6, 2), (8, 8), (0x10, 2), (0x18, 8), (0x20, 8), (0x28, 8)] → s.ws.snap ≠ none →
    exec (.wsSnapshot mb) s = .next (answer s mb 0x0402)) ∧
  (∀ s mb s1 b a, Ready s mb 0x401 [(4, 1), (6, 2), (8, 8), (0x10, 2), (0x18, 8), (0x20, 8), (0x28, 8)] → s.ws.snap = none → s.memOk = true →
    argOf s mb 4 1 ≤ 1 → s.laddr = some a → a ≠ argOf s mb 6 2 → argOf s mb 6 2 < 2 ^ 14 → argOf s mb 6 2 % 32 < 24 → 1 ≤ argOf s mb 0x10 2 →
    argOf s mb 0x10 2 ≤ 256 → localRange (argOf s mb 8 8) (16 * argOf s mb 0x10 2) = true → argOf s mb 0x20 8 % 128 = 0 →
    s.readBytes (argOf s mb 8 8) (16 * argOf s mb 0x10 2) = some (s1, b, false) →
    (∀ r ∈ regionsOf b (argOf s mb 0x10 2), r.1 % 128 = 0 ∧ r.2 % 128 = 0 ∧ (r.2 = 0 ∨ localRange r.1 r.2 = true)) →
    argOf s mb 0x20 8 + 128 + ((regionsOf b (argOf s mb 0x10 2)).map (·.2)).sum ≤ 2 ^ 41 →
    (argOf s mb 0x18 8 = 0 ∨ (s.fld .fabTimeStatus 0 0 0 2 ≠ 0 ∧ s.now + 20000 ≤ argOf s mb 0x18 8)) → s.moverJobs < 64 →
    exec (.wsSnapshot mb) s = .next (
      let sn : Snap := { gen := argOf s mb 4 1, buddy := argOf s mb 6 2, nreg := argOf s mb 0x10 2, regions := (regionsOf b (argOf s mb 0x10 2)).filter (fun r => r.2 ≠ 0), start := argOf s mb 0x18 8, dest := argOf s mb 0x20 8, step := argOf s mb 0x28 8 }
      (({ s1 with ws := { s1.ws with snap := some sn } } : State).setFld .wsStatus 0 0 20 1 1).mbResult mb 0)) ∧
  (∀ (s : State) n, s.ws.snap = some n →
    (n.stage = 0 → n.start ≤ s.now → exec .snapshotStart s = .next (s.snapRecord { n with stage := 1, startTime := s.now } 0)) ∧
    ((n.stage ≠ 0 ∨ s.now < n.start) → exec .snapshotStart s = .next s) ∧
    (n.stage = 1 → n.copied = true → exec .snapshotCommit s = .next (s.snapRecord { n with stage := 2 } 1)) ∧
    ((n.stage ≠ 1 ∨ n.copied = false) → exec .snapshotCommit s = .next s)) ∧
  (∀ (s : State) n valid, s.remoteKnown (remoteAddr n.buddy n.dest) = true → s.snapRecord n valid =
    ({ s with ws := { s.ws with snap := some n } } : State).remoteAccess (.ext 2) 1 (remoteAddr n.buddy n.dest / 128) (BitVec.allOnes 128)
      (n.record valid ((s.laddr).getD 0)) 1 0) ∧
  (∀ (s : State) n, s.ws.snap = some n → n.stage = 2 → ∃ s1 : State, s.snapAnswer false =
    s1.post evWsSnapshotDone 13 [(2, 0), (8, n.step), (4, n.poisoned), (8, 0)] ∧ s1.ws.snap = none ∧ s1.ws.committed = true ∧
    s1.fld .wsStatus 0 0 20 1 = 0 ∧ s1.reg .wsSnapTime 0 0 = BitVec.ofNat 64 s.now ∧ s1.mem = s.mem)

end Sys2Proof

/-- The Watershed: samples and snapshots. -/
def Obligations.Watershed : Prop :=
  Sys2Proof.Parts.Samples ∧ Sys2Proof.Parts.Snapshots

namespace Sys2Proof

/-- R320: WS_CG_EXPORT writes the entry of each group that the filter names and answers their number and bytes; WS_CG_IMPORT
makes the group of an entry again, with its members and its next instance, at the address that the command gives it. -/
def Parts.GroupRecords : Prop :=
  (∀ s mb s1, Ready s mb 0x402 [(6, 2), (8, 8), (0x10, 4)] → argOf s mb 8 8 % 64 = 0 →
    (argOf s mb 0x10 4 = 0 ∨ localRange (argOf s mb 8 8) (argOf s mb 0x10 4) = true) → s.memOk = true →
    let gs := s.cgs.filter (fun (e : Nat × CGrp) => argOf s mb 6 2 == 0xFFFF || e.2.members.elem (argOf s mb 6 2))
    let b := gs.flatMap (fun (e : Nat × CGrp) => cgEntry e.1 e.2)
    (argOf s mb 0x10 4 < b.length → exec (.wsCgExport mb) s = .next (answer s mb 0x0401 (leBytes 2 gs.length ++ leBytes 2 0 ++ leBytes 4 b.length))) ∧
    (b.length ≤ argOf s mb 0x10 4 → s.writeBytes (argOf s mb 8 8) b (b.length / 128 + 2) = some s1 →
      exec (.wsCgExport mb) s = .next (s1.mbResult mb 0 (leBytes 2 gs.length ++ leBytes 2 0 ++ leBytes 4 b.length)))) ∧
  (∀ s mb s1 h s2 b, Ready s mb 0x403 [(8, 8), (0x10, 8), (0x18, 2), (0x20, 2)] → argOf s mb 8 8 % 64 = 0 →
    localRange (argOf s mb 8 8) 64 = true → s.memOk = true → s.readBytes (argOf s mb 8 8) 64 = some (s1, h, false) →
    let f (o n : Nat) : Nat := ofLeBytes ((h.drop o).take n)
    let size := if argOf s mb 0x18 2 = 0 then f 0x10 2 else argOf s mb 0x18 2
    f 0 2 < 4096 → 0 < f 2 2 → f 2 2 ≤ 12288 → cgRingOk (argOf s mb 0x10 8) size = true → localRange (argOf s mb 8 8 + 64) (2 * f 2 2) = true →
    s1.readBytes (argOf s mb 8 8 + 64) (2 * f 2 2) = some (s2, b, false) →
    let ms := (upTo (f 2 2)).map (fun i => ofLeBytes ((b.drop (2 * i)).take 2))
    (∀ x ∈ ms, x < 2 ^ 14 ∧ x % 32 < 24) → ms.count (argOf s mb 0x20 2) = 1 → s.cgs.has (f 0 2) = false →
    exec (.wsCgImport mb) s = .next (((s2.setCg (f 0 2) { members := ms, addr := argOf s mb 0x20 2, ring := argOf s mb 0x10 8, size := size, defdl := f 4 4, first := f 8 8 }).setReg
      .cgDoorbell (f 0 2) 0 0).mbResult mb 0)) ∧
  (∀ gid (g : CGrp), (cgEntry gid g).length = 64 + 64 * ceilDiv (2 * g.members.length) 64 ∧ (cgEntry gid g).take 4 = leBytes 2 gid ++ leBytes 2 g.members.length ∧
    ∀ m, g.members[0]? = some m → ((cgEntry gid g).drop 64).take 2 = leBytes 2 m)

end Sys2Proof

/-- Collective groups: creation, change, and their export and import. -/
def Obligations.CollectiveGroups : Prop :=
  Sys2Proof.Parts.Groups ∧ Sys2Proof.Parts.GroupRecords

namespace Sys2Proof

/- Mailboxes. -/

/-- R324 to R329: a 1 written to RING of a mailbox that is not busy issues the command in its area, copied at that moment, and
the CP takes it; of a busy mailbox it sets OVERRUN and issues nothing. A store without it, and every store to MB7's, does
nothing. The store is answered. -/
def Parts.MailboxDoorbells : Prop :=
  (∀ (s : State) iss mb v, mb < 8 → s.reach iss (regAddr .mbDoorbell mb 0) = .ok →
    ((mb = 7 ∨ bit v 0 = false) → exec (.mbDoorbell iss mb 8 v) s = .next (s.wrote iss)) ∧
    (mb ≠ 7 → bit v 0 = true → s.fld .mbStatus mb 0 24 1 = 1 →
      exec (.mbDoorbell iss mb 8 v) s = .next ((s.setFld .mbStatus mb 0 26 1 1).wrote iss)) ∧
    (mb ≠ 7 → bit v 0 = true → s.fld .mbStatus mb 0 24 1 ≠ 1 → exec (.mbDoorbell iss mb 8 v) s =
      .next ((s.mbIssue mb { cmd := s.cmdArea mb, ctrl := (s.reg .mbCtrl mb 0).toNat, deleg := s.cp.deleg }).wrote iss))) ∧
  (∀ (s : State) mb (m : Mbx), mb < 8 → s.fld .cpStatus 0 0 0 2 = 1 → s.fld .secStatus 0 0 0 1 = 0 → s.inReset .warm = false →
    bit (BitVec.ofNat 64 m.ctrl) 14 = false → m.held = false → m.res = none →
    let t := s.mbIssue mb m
    t.fld .mbStatus mb 0 24 1 = 1 ∧ t.fld .mbStatus mb 0 25 1 = 0 ∧ t.mem = s.mem ∧
    (assigned m.opcode = true → t.mbox mb = { m with busy := true, held := false }) ∧
    (assigned m.opcode = false → (t.mbox mb).res = some (3, padTo 64 [])))

/-- R326: completion writes the response area and then the status, the command's tag and DONE without BUSY in one write;
only then may the mailbox take another command. -/
def Parts.MailboxCompletion : Prop :=
  ∀ (s : State) mb st resp, mb < 7 → mb ≠ 4 → (s.mbox mb).busy = true → (s.mbox mb).res = some (st, resp) → st < 2 ^ 16 →
    (s.mbox mb).ctrl / 2 ^ 15 % 2 = 0 → Runs (.mbCommandComplete mb) s (fun t =>
      (∀ j < 8, t.reg .mbRsp mb j = BitVec.ofNat 64 (ofLeBytes ((resp.drop (8 * j)).take 8))) ∧
      t.fld .mbStatus mb 0 0 16 = st ∧ t.fld .mbStatus mb 0 16 8 = (s.mbox mb).tag ∧ t.fld .mbStatus mb 0 24 1 = 0 ∧
      t.fld .mbStatus mb 0 25 1 = 1 ∧ t.fld .mbStatus mb 0 26 1 = s.fld .mbStatus mb 0 26 1 ∧ (t.mbox mb).busy = false ∧
      (∀ k, k ≠ mb → t.mbox k = s.mbox k) ∧ (∀ j, t.reg .mbCmd mb j = s.reg .mbCmd mb j) ∧ t.mem = s.mem)

end Sys2Proof

/-- Mailbox doorbells, the order of the checks of a command, and its completion. -/
def Obligations.Mailboxes : Prop :=
  Sys2Proof.Parts.MailboxChecks ∧ Sys2Proof.Parts.MailboxDoorbells ∧ Sys2Proof.Parts.MailboxCompletion

namespace Sys2Proof

/-- R331: a management packet with a command runs it in MB7 when that is free; an answer ends the remote command whose tag
and target it has; a remote command with no answer in its time ends with ST_REMOTE_TIMEOUT. -/
def Parts.RemoteCommands : Prop :=
  (∀ (s : State) k, k.wf = true → s.hdOn = true → k.tc = 3 → k.op = 0x30 → k.data.length = 64 → (s.mbox 7).busy = false →
    s.fab.inbox.find? (isMgmt 64) = some k → ∃ s1 : State,
      exec (.remoteCommandReceive k) s = .next (s1.mbIssue 7 { cmd := k.data, ctrl := (s.reg .mbCtrl 7 0).toNat % 2 ^ 16 / 2 ^ 15 * 2 ^ 15, deleg := s.cp.deleg, from' := k.src, fromTag := k.tag }) ∧
      (∀ j < 8, s1.reg .mbCmd 7 j = BitVec.ofNat 64 (ofLeBytes ((k.data.drop (8 * j)).take 8))) ∧ s1.mem = s.mem ∧ s1.mbs = s.mbs) ∧
  (∀ (s : State) k, k.wf = true → s.hdOn = true → k.tc = 3 → k.op = 0x30 → k.data.length = 64 → (s.mbox 7).busy = true → exec (.remoteCommandReceive k) s = .next s) ∧
  (∀ (s : State) k e, k.wf = true → k.tc = 3 → k.op = 0x30 → k.data.length = 66 →
    List.find? (fun (e : Nat × Mbx) => e.2.busy && e.2.res.isNone && e.2.remote == some k.tag && e.2.ctrl % 2 ^ 14 == k.src) s.mbs = some e →
    exec (.remoteAnswer k) s = .next ((s.takePkt k).mbResult e.1 (ofLeBytes (k.data.take 2)) (k.data.drop 2))) ∧
  (∀ (s : State) mb, mb < 8 → (s.mbox mb).remote.isSome = true →
    ((s.mbox mb).remoteBound ≤ s.now → exec (.remoteCommandTimeout mb) s = .next (s.mbResult mb 6)) ∧
    (s.now < (s.mbox mb).remoteBound → exec (.remoteCommandTimeout mb) s = .next s))

/-- R334, R335, R344, R345: SYS_NOP answers; SYS_INFO answers the module's serial number, variant, steppings, version, flags and
FAB_ID; SYS_DELEGATE sets and ends the delegation of MB1; SYS_EVR_CONFIG starts a ring at index zero; SYS_EV_FETCH takes
the oldest record of ring 3. -/
def Parts.SystemCommands : Prop :=
  (∀ s mb, Ready s mb 1 [] → exec (.sysNop mb) s = .next (answer s mb 0)) ∧
  (∀ s mb, Ready s mb 2 [] → exec (.sysInfo mb) s = .next (answer s mb 0 (leBytes 8 Config.serial.toNat ++ leBytes 2 s.variant ++
    (upTo 4).flatMap (fun i => leBytes 1 (Config.stepping i).toNat) ++ leBytes 2 0 ++ leBytes 4 s.utnakVersion ++
    leBytes 4 (s.memOk.toNat + 2 * (decide (s.fld .fabTimeStatus 0 0 0 2 = 1)).toNat + 4 * s.fld .fabId 0 0 14 1 + 8 * s.fld .wsStatus 0 0 18 1 + 16 * s.cp.attach.toNat) ++
    leBytes 8 (s.reg .fabId 0 0).toNat))) ∧
  (∀ s mb, Ready s mb 3 [(8, 2), (10, 1)] → argOf s mb 10 1 ≤ 1 →
    exec (.sysDelegate mb) s = .next (answer { s with cp := { s.cp with deleg := if argOf s mb 10 1 = 1 then some (argOf s mb 8 2) else none } } mb 0)) ∧
  (∀ s mb r, Ready s mb 4 [(4, 1), (5, 1), (6, 2), (8, 8), (0x10, 8), (0x18, 1)] → ownRing mb = some r → argOf s mb 4 1 = r → s.memOk = true →
    6 ≤ argOf s mb 5 1 → argOf s mb 5 1 ≤ 16 → argOf s mb 8 8 % 64 = 0 → localRange (argOf s mb 8 8) (64 * 2 ^ argOf s mb 5 1) = true →
    argOf s mb 0x18 1 ≤ 1 → (r = 0 ∨ argOf s mb 0x10 8 = 0) → Runs (.sysEvrConfig mb) s (fun t =>
      t.reg .evrWidx r 0 = 0 ∧ t.reg .evrRidx r 0 = 0 ∧ t.fld .evrStatus r 0 0 1 = argOf s mb 0x18 1 ∧
      t.cp.rings.get {} r = { base := argOf s mb 8 8, log2 := argOf s mb 5 1, mask := argOf s mb 6 2, cores := BitVec.ofNat 64 (argOf s mb 0x10 8), loss := true } ∧
      (t.mbox mb).res = some (0, padTo 64 []) ∧ t.mem = s.mem)) ∧
  (∀ s mb, Ready s mb 5 [] → (s.cp.ring3 = [] → exec (.sysEvFetch mb) s = .next (answer s mb 0)) ∧
    (∀ e r, s.cp.ring3 = e :: r → exec (.sysEvFetch mb) s = .next (answer { s with cp := { s.cp with ring3 := r } } mb 0 (evBytes e e.seq e.loss))))

end Sys2Proof

/-- System commands, and commands that run on another module. -/
def Obligations.SystemAndRemoteCommands : Prop :=
  Sys2Proof.Parts.RemoteCommands ∧ Sys2Proof.Parts.SystemCommands

namespace Sys2Proof

/-- R344, R346: every event goes to ring 3 with its code, source, time and payload, the oldest record leaving a full ring; a
memory ring that is on and takes its code gets a record at its write index, and counts it as lost where it is full. During a
restart of the CP events are queued. -/
def Parts.Events : Prop :=
  (∀ (s : State) code src f, s.fld .cpStatus 0 0 1 1 = 0 → (∀ r < 3, s.fld .evrStatus r 0 0 1 = 0) → s.cp.ring3.length < 256 →
    let t := s.postQ code src f
    t.cp.ring3 = s.cp.ring3 ++ [{ code := code, source := src, unlocked := s.fld .fabTimeStatus 0 0 0 2 == 0, time := s.now, payload := evPayload f, seq := s.cp.ring3Seq % 2 ^ 32, loss := s.cp.ring3Loss }] ∧
    t.cp.ring3Loss = false ∧ t.regs = s.regs ∧ t.mem = s.mem) ∧
  (∀ (s : State) r e, s.fld .evrStatus r 0 0 1 = 1 → ((s.cp.rings.get {} r).mask >>> (e.code / 256)) % 2 = 1 → s.memOk = true → s.reg .evrRidx r 0 = 0 → s.recordsOut .evrWidx r = 0 →
    let w := (s.reg .evrWidx r 0).toNat
    let ring := s.cp.rings.get {} r
    w < 2 ^ 32 →
    (w < 2 ^ ring.log2 → s.postRing r e = ({ s with cp := { s.cp with rings := s.cp.rings.set r { ring with loss := false } } } : State).queueRecord
      ⟨.evrWidx, r, ring.base + 64 * (w % 2 ^ ring.log2), evBytes e w ring.loss⟩) ∧
    (2 ^ ring.log2 ≤ w → (s.postRing r e).fld .evrStatus r 0 16 16 = min 65535 (s.fld .evrStatus r 0 16 16 + 1) ∧
      ((s.postRing r e).cp.rings.get {} r).loss = true ∧ (s.postRing r e).mem = s.mem)) ∧
  (∀ (s : State) code src f, s.fld .cpStatus 0 0 1 1 = 1 → s.cp.queued.length < 256 → (s.postQ code src f).cp.queued.length = s.cp.queued.length + 1 ∧
    (s.postQ code src f).cp.ring3 = s.cp.ring3 ∧ (s.postQ code src f).mem = s.mem) ∧
  (∀ (s : State) code src f, s.fld .cpStatus 0 0 1 1 = 1 → s.wq = [] → s.cp.queued.length < 256 →
    s.post code src f = s.postQ code src f) ∧
  (∀ (s : State) code src f, s.wq = [] → (∀ r < 3, s.fld .evrStatus r 0 0 1 = 0) → s.post code src f = s.postQ code src f)

/-- R340, R347, R351: the read index of a ring takes a value between itself and the write index, and any other sets RERR; a 1
written to PEND of a dispatch interrupt clears it. -/
def Parts.IndexStores : Prop :=
  (∀ (s : State) iss r v, r < 3 → s.reach iss (regAddr .evrRidx r 0) = .ok →
    let n := bits v 0 32
    let old := s.fld .evrRidx r 0 0 32
    let w := s.fld .evrWidx r 0 0 32
    ((n + 2 ^ 32 - old) % 2 ^ 32 ≤ (w + 2 ^ 32 - old) % 2 ^ 32 → (r = 0 ∨ n ≠ w) →
      exec (.hdEvrRidxWrite iss r 8 v) s = .next ((s.setFld .evrRidx r 0 0 32 n).wrote iss)) ∧
    ((w + 2 ^ 32 - old) % 2 ^ 32 < (n + 2 ^ 32 - old) % 2 ^ 32 → exec (.hdEvrRidxWrite iss r 8 v) s = .next ((s.setFld .evrStatus r 0 1 1 1).wrote iss))) ∧
  (∀ (s : State) iss n v, n < 64 → s.reach iss (regAddr .dqint n 0) = .ok → (bit v 0 = true → exec (.pdDqintPendClear iss n 8 v) s = .next ((s.setFld .dqint n 0 0 1 0).wrote iss)) ∧
    (bit v 0 = false → exec (.pdDqintPendClear iss n 8 v) s = .next (s.wrote iss)))

end Sys2Proof

/-- Posting of events to the rings, and the stores to their read indices. -/
def Obligations.EventsAndTheirRings : Prop :=
  Sys2Proof.Parts.Events ∧ Sys2Proof.Parts.IndexStores

namespace Sys2Proof

/- Telemetry. -/

/-- R341, R342: TEL_READ answers the sensors that it names, as they were last refreshed; TEL_ALERT_SET keeps a slot; a
refresh keeps a sensor's value and the hottest junction; an armed slot whose sensor lies outside its band posts once. -/
def Parts.Telemetry : Prop :=
  (∀ s mb, Ready s mb 0x601 [(4, 1), (8, 2 * argOf s mb 4 1)] → 1 ≤ argOf s mb 4 1 → argOf s mb 4 1 ≤ 14 →
    (∀ i < argOf s mb 4 1, sensorListed (argOf s mb (8 + 2 * i) 2) = true) →
    exec (.telRead mb) s = .next (answer s mb 0 ((upTo (argOf s mb 4 1)).flatMap (fun i => leBytes 4 (s.sensorSeen (argOf s mb (8 + 2 * i) 2)).toNat)))) ∧
  (∀ s mb, Ready s mb 0x602 [(4, 1), (6, 2), (8, 4), (0xC, 4), (0x10, 1)] → argOf s mb 4 1 < 16 → sensorListed (argOf s mb 6 2) = true →
    (BitVec.ofNat 32 (argOf s mb 0xC 4)).toInt ≤ (BitVec.ofNat 32 (argOf s mb 8 4)).toInt → argOf s mb 0x10 1 ≤ 1 →
    exec (.telAlertSet mb) s = .next (answer { s with cp := { s.cp with alerts := s.cp.alerts.set (argOf s mb 4 1) { sensor := argOf s mb 6 2, high := (BitVec.ofNat 32 (argOf s mb 8 4)).toInt, low := (BitVec.ofNat 32 (argOf s mb 0xC 4)).toInt, en := argOf s mb 0x10 1 == 1 } } } mb 0)) ∧
  (∀ (s : State) id v, sensorListed id = true → id ≠ 0x50 → s.hdOn = true → Runs (.sensorRefresh id v) s (fun t =>
    t.sensor id = v ∧ (∀ j, j ≠ id → j ≠ 0x50 → t.sensor j = s.sensor j) ∧ t.fld .pwrTherm 0 0 0 16 = min t.hottest.2 65535 ∧
    t.fld .pwrTherm 0 0 16 8 = t.hottest.1 ∧ t.mem = s.mem)) ∧
  (∀ (s : State) i (a : Alert), s.fld .cpStatus 0 0 0 2 = 1 → s.cp.alerts = [(i, a)] → a.en = true →
    let w := s.sensorSeen a.sensor
    (a.low ≤ w.toInt → w.toInt ≤ a.high → exec .telAlertCheck s = .next (({ s with cp := { s.cp with alerts := [(i, { a with armed := true })] } } : State).monRecord 12 (s.hottest.2 / 10))) ∧
    (a.armed = false → (w.toInt < a.low ∨ a.high < w.toInt) → exec .telAlertCheck s = .next (s.monRecord 12 (s.hottest.2 / 10))) ∧
    (a.armed = true → (w.toInt < a.low ∨ a.high < w.toInt) → exec .telAlertCheck s = .next (
      let s1 := ({ s with cp := { s.cp with alerts := [(i, { a with armed := false })] } } : State).post evTelAlert 13 [(1, i), (2, a.sensor), (4, w.toNat)]
      (({ s1 with cp := { s1.cp with i3cAlert := s1.cp.i3cAlert ||| 2 } } : State).alertFrom s1.i3cAlert).monRecord 12 (s.hottest.2 / 10))))

/- The start of the CP, and debug. -/

/-- R349, R350, R368: at the last boot step the CP is ready and posts it; a restart ends every command in progress with
ST_CP_RESTART, and after it queued events are posted and the event says why. -/
def Parts.ControlProcessor : Prop :=
  (∀ (s : State), s.pwr.phase = .boot 7 → s.fld .cpStatus 0 0 0 1 = 0 → s.fld .secStatus 0 0 0 1 = 0 →
    exec .cpReady s = .next (State.cpStart { s with pwr := { s.pwr with phase := .on } })) ∧
  (∀ (s : State), s.pwr.phase ≠ .boot 7 → exec .cpReady s = .next s) ∧
  (∀ (s : State), ∃ s1 : State, s.cpStart = (s1.post evCpReady 13 [(4, s.utnakVersion), (4, s.cp.restarts)]).runHeld ∧
    s1.fld .cpStatus 0 0 0 1 = 1 ∧ s1.fld .cpStatus 0 0 16 32 = s.utnakVersion % 2 ^ 32 ∧ s1.mem = s.mem) ∧
  (∀ (s : State) cause, cause ≤ 1 → s.fld .cpStatus 0 0 0 2 = 1 → Runs (.cpWatchdogRestart cause) s (fun t =>
    t.fld .cpStatus 0 0 1 1 = 1 ∧ t.cp.cause = cause ∧ t.mem = s.mem ∧
    ∀ mb < 8, (s.mbox mb).busy = true → (s.mbox mb).res = none → (s.mbox mb).held = false → (t.mbox mb).res = some (7, padTo 64 []))) ∧
  (∀ (s : State), s.fld .cpStatus 0 0 1 1 = 1 → s.cp.queued = [] → s.cp.queuedLost = [] → exec .cpRestartEnd s = .next (
    let s1 := (({ s with cp := { s.cp with restarts := s.cp.restarts + 1, queued := [], queuedLost := [] } } : State).setFld .cpStatus 0 0 1 1 0).incFld .cpStatus 0 0 8 8
    (s1.post evCpRestart 13 [(4, s.cp.restarts + 1), (1, s.cp.cause)]).runHeld))

end Sys2Proof

/-- Sensors and alerts, and the start and restart of the control processor. -/
def Obligations.TelemetryAndControlProcessor : Prop :=
  Sys2Proof.Parts.Telemetry ∧ Sys2Proof.Parts.ControlProcessor

namespace Sys2Proof

/-- R343, R404: attached, a debugger halts a unit at a boundary and resumes it, and reads and writes bytes at any address of
the module; detached it may not, and detaching resumes whatever is halted. -/
def Parts.Debug : Prop :=
  (∀ s mb, Ready s mb 0xF01 [(4, 1)] → argOf s mb 4 1 = 1 → exec (.dbgAttach mb) s = .next (answer { s with cp := { s.cp with attach := true } } mb 0)) ∧
  (∀ s mb, Ready s mb 0xF01 [(4, 1)] → argOf s mb 4 1 = 0 → s.grps = [] → s.cores = [] → Runs (.dbgAttach mb) s (fun t =>
    t.cp.attach = false ∧ (∀ n c, s.pd.find? n = some c → (t.core n).halted = false) ∧ (t.mbox mb).res = some (0, padTo 64 []) ∧ t.mem = s.mem)) ∧
  (∀ s mb, Ready s mb 0xF02 [(4, 1), (6, 2)] → argOf s mb 4 1 = 0 → argOf s mb 6 2 < 64 →
    (s.cp.attach = false → exec (.dbgHalt mb) s = .next (answer s mb 0x0F01)) ∧
    (s.cp.attach = true → s.fld .pwrStatus 0 0 0 3 ≠ 3 → (s.core (argOf s mb 6 2)).op = none → (s.core (argOf s mb 6 2)).barrier = none →
      exec (.dbgHalt mb) s = .next (
        let n := argOf s mb 6 2
        let s1 := (s.setCore n { s.core n with halted := true }).stamp.2
        (s1.post evDbgHalt 8 [(1, 0), (2, n), (8, (s.core n).thr.pc.toNat)]).mbResult mb 0)) ∧
    (s.cp.attach = true → s.fld .pwrStatus 0 0 0 3 = 3 → exec (.dbgHalt mb) s = .next (answer s mb 0x0503))) ∧
  (∀ s mb, Ready s mb 0xF03 [(4, 1), (6, 2)] → argOf s mb 4 1 = 0 → argOf s mb 6 2 < 64 → s.fld .pwrStatus 0 0 0 3 ≠ 3 →
    exec (.dbgResume mb) s = .next (answer (s.setCore (argOf s mb 6 2) { s.core (argOf s mb 6 2) with halted := false }) mb 0)) ∧
  (∀ s mb, Ready s mb 0xF04 [(8, 8), (0x10, 1)] → 1 ≤ argOf s mb 0x10 1 → argOf s mb 0x10 1 ≤ 64 → argOf s mb 8 8 < 2 ^ 56 →
    argOf s mb 8 8 % 128 + argOf s mb 0x10 1 ≤ 128 → s.memKind (argOf s mb 8 8) true = .nc →
    (∀ s1 d, s.ncRead (argOf s mb 8 8 / 128) 1 = .ok s1 d false →
      exec (.dbgRead mb) s = .next (s1.mbResult mb 0 (leBytes (argOf s mb 0x10 1) (lineBytes d (argOf s mb 8 8 % 128) (argOf s mb 0x10 1))))) ∧
    (∀ s1 d, s.ncRead (argOf s mb 8 8 / 128) 1 = .ok s1 d true → exec (.dbgRead mb) s = .next (s1.mbResult mb 0x0F02))) ∧
  (∀ s mb s1 d p, Ready s mb 0xF05 [(8, 8), (0x10, 1), (0x18, 40)] → 1 ≤ argOf s mb 0x10 1 → argOf s mb 0x10 1 ≤ 40 → argOf s mb 8 8 < 2 ^ 56 →
    argOf s mb 8 8 % 128 + argOf s mb 0x10 1 ≤ 128 → s.memKind (argOf s mb 8 8) true = .nc →
    s.ncPut (argOf s mb 8 8) ((s.mbox mb).bytes 0x18 (argOf s mb 0x10 1)) 1 = .ok s1 d p → exec (.dbgWrite mb) s = .next (s1.mbResult mb 0))

/- Power. -/

/-- R359, R362, R363: PWR_STATE moves between the states, posts the change, refuses what R363 refuses, enters P-Park once the
compute dies are empty, leaves it through a package warm reset, and turns the module off. -/
def Parts.PowerStates : Prop :=
  (∀ s mb, Ready s mb 0x501 [(4, 1), (8, 4)] → argOf s mb 8 4 ≤ 1000000 → s.pwr.park = none →
    let now := s.fld .pwrStatus 0 0 0 3
    (argOf s mb 4 1 = 2 → now ≤ 1 → exec (.pwrState mb) s = .next ((s.toPower 2 0).mbResult mb 0)) ∧
    (argOf s mb 4 1 = 0 → (now = 1 ∨ now = 2) → exec (.pwrState mb) s = .next ((s.toPower s.runState 0).mbResult mb 0)) ∧
    (argOf s mb 4 1 = 0 → now = 3 → ∃ s1, s1 = State.startWarm { s with pwr := { s.pwr with keepSplit := true } } (some mb) ∧
      exec (.pwrState mb) s = .next (later s1 mb)) ∧
    (argOf s mb 4 1 = 3 → s.parkBusy = true → exec (.pwrState mb) s = .next (answer s mb 0x0502)) ∧
    (argOf s mb 4 1 = 3 → s.parkBusy = false → now ≠ 3 → ∃ s1 : State,
      s1 = (let s1 := s.parkCores (s.now + argOf s mb 8 4 * 1000); { s1 with pwr := { s1.pwr with park := some (s.now + argOf s mb 8 4 * 1000), parkMb := some mb } }) ∧
      exec (.pwrState mb) s = .next (later s1 mb)) ∧
    (argOf s mb 4 1 = 4 → now ≠ 4 → exec (.pwrState mb) s = .next (s.powerDown false 0)) ∧
    (argOf s mb 4 1 = now → now ≤ 2 → now ≠ 1 → exec (.pwrState mb) s = .next (answer s mb 0x0503))) ∧
  (∀ (s : State) st cause, st < 8 → s.fld .pwrStatus 0 0 0 3 ≠ st → ∃ s1, s.toPower st cause =
    State.post s1 evPwrState 13 [(1, s.fld .pwrStatus 0 0 0 3), (1, st), (1, cause)] ∧ s1.fld .pwrStatus 0 0 0 3 = st ∧ s1.mem = s.mem)

/-- R357 to R360, R363: PWR_CAP sets the cap at once; PWR_SLEW and PWR_LEVEL_DRAW set a setting at once or at a time at least
20 µs ahead; a setting takes effect at its time, but none during cold ramp, which ends a second after step 5; PWR_QUERY
answers what stands. -/
def Parts.PowerSettings : Prop :=
  (∀ s mb, Ready s mb 0x502 [(8, 2)] → (argOf s mb 8 2 = 0 ∨ (1200 ≤ argOf s mb 8 2 ∧ argOf s mb 8 2 ≤ 3000)) →
    let s1 := s.setFld .pwrLimits 0 0 16 12 (argOf s mb 8 2)
    exec (.pwrCap mb) s = .next ((if s.fld .pwrStatus 0 0 0 3 ≤ 1 then s1.toPower (if argOf s mb 8 2 = 0 then 0 else 1) 0 else s1).mbResult mb 0)) ∧
  (∀ s mb, Ready s mb 0x502 [(8, 2)] → ((0 < argOf s mb 8 2 ∧ argOf s mb 8 2 < 1200) ∨ 3000 < argOf s mb 8 2) → exec (.pwrCap mb) s = .next (answer s mb 0x0501)) ∧
  (∀ s mb, Ready s mb 0x503 [(8, 2), (0x10, 8)] → 5 ≤ argOf s mb 8 2 → argOf s mb 8 2 ≤ 200 →
    let t := argOf s mb 0x10 8
    (t ≠ 0 → s.fld .fabTimeStatus 0 0 0 2 = 0 → exec (.pwrSlew mb) s = .next (answer s mb 0x0302)) ∧
    (t ≠ 0 → s.fld .fabTimeStatus 0 0 0 2 ≠ 0 → t < s.now + 20000 → exec (.pwrSlew mb) s = .next (answer s mb 0x0303)) ∧
    (s.fld .fabTimeStatus 0 0 0 2 ≠ 0 → s.now + 20000 ≤ t → exec (.pwrSlew mb) s =
      .next (answer (({ s with pwr := { s.pwr with slewPend := some (argOf s mb 8 2, t) } } : State).setFld .pwrStatus 0 0 13 1 1) mb 0)) ∧
    (t = 0 → s.fld .pwrStatus 0 0 3 1 = 0 → s.pwr.ldPend = none → Runs (.pwrSlew mb) s (fun u =>
      u.fld .pwrLimits 0 0 0 8 = argOf s mb 8 2 ∧ u.pwr.slewPend = none ∧ u.fld .pwrStatus 0 0 13 1 = 0 ∧ (u.mbox mb).res = some (0, padTo 64 []) ∧ u.mem = s.mem))) ∧
  (∀ s mb, Ready s mb 0x504 [(4, 1), (8, 2), (0x10, 8)] → argOf s mb 4 1 ≤ 1 → argOf s mb 8 2 ≤ 3000 → argOf s mb 0x10 8 = 0 →
    s.fld .pwrStatus 0 0 3 1 = 0 → s.pwr.slewPend = none → Runs (.pwrLevelDraw mb) s (fun u =>
      u.fld .pwrLimits 0 0 32 12 = argOf s mb 8 2 ∧ u.fld .pwrLimits 0 0 44 1 = argOf s mb 4 1 ∧ u.pwr.ldPend = none ∧
      (u.mbox mb).res = some (0, padTo 64 []) ∧ u.mem = s.mem)) ∧
  (∀ s mb, Ready s mb 0x505 [] → exec (.pwrQuery mb) s = .next (answer s mb 0 (leBytes 8 (s.reg .pwrStatus 0 0).toNat ++ leBytes 8 (s.reg .pwrInput 0 0).toNat ++
    leBytes 8 (s.reg .pwrLimits 0 0).toNat ++ leBytes 8 (match s.pwr.slewPend with | some x => x.2 | none => 0) ++ leBytes 8 (match s.pwr.ldPend with | some x => x.2.2 | none => 0)))) ∧
  (∀ (s : State) v t, s.pwr.slewPend = some (v, t) → s.pwr.ldPend = none → v < 256 →
    (s.fld .pwrStatus 0 0 3 1 = 1 → exec .pwrSettingEffect s = .next s) ∧
    (s.fld .pwrStatus 0 0 3 1 = 0 → s.now < t → exec .pwrSettingEffect s = .next s) ∧
    (s.fld .pwrStatus 0 0 3 1 = 0 → t ≤ s.now → Runs .pwrSettingEffect s (fun u => u.fld .pwrLimits 0 0 0 8 = v ∧ u.fld .pwrStatus 0 0 13 1 = 0 ∧ u.pwr.slewPend = none ∧ u.mem = s.mem))) ∧
  (∀ (s : State), s.fld .pwrStatus 0 0 3 1 = 1 → s.pwr.phase = .on → s.pwr.poweredAt + 10 ^ 8 ≤ s.ref → exec .coldRampEnd s = .next (s.setFld .pwrStatus 0 0 3 1 0).settings)

end Sys2Proof

/-- Power states, caps, slew limits and pending settings. -/
def Obligations.PowerStatesAndSettings : Prop :=
  Sys2Proof.Parts.PowerStates ∧ Sys2Proof.Parts.PowerSettings

namespace Sys2Proof

/-- R353 to R358: a power sample keeps the input current and the power that the controller lets through, at most 75 A and at
most the slew limit above the last sample; with no cause to throttle the frequencies are full. -/
def Parts.PowerSamples : Prop :=
  (∀ (s : State) current mw idle, current < 2 ^ 20 → mw < 4096000 → s.running = true → s.fld .pwrStatus 0 0 3 1 = 0 →
    s.fld .pwrLimits 0 0 44 1 = 0 → Runs (.powerSample current mw idle) s (fun t =>
      t.pwr.lastCur = min current (min 75000 (s.pwr.lastCur + s.fld .pwrLimits 0 0 0 8)) ∧ t.pwr.lastCur ≤ 75000 ∧
      t.fld .pwrInput 0 0 16 16 = t.pwr.lastCur / 10 ∧ t.fld .pwrInput 0 0 32 12 = mw / 1000 ∧ t.fld .pwrStatus 0 0 4 1 = 0 ∧ t.fld .pwrStatus 0 0 5 1 = 0)) ∧
  (∀ (s : State) current mw idle, current ≤ 75000 → mw < 4096000 → s.running = true → s.fld .pwrStatus 0 0 3 1 = 0 → s.fld .pwrLimits 0 0 44 1 = 0 →
    current ≤ s.pwr.lastCur + s.fld .pwrLimits 0 0 0 8 → (s.fld .pwrLimits 0 0 16 12 = 0 ∨ mw ≤ s.fld .pwrLimits 0 0 16 12 * 1000) → s.pwr.stress = [] → s.pwr.therm = [] →
    Runs (.powerSample current mw idle) s (fun t => (∀ d < 8, t.fld .pwrThrottle 0 0 (8 * d) 6 = 0) ∧ t.fld .pwrPdfreq 0 0 0 6 = 32 ∧
      t.fld .pwrStatus 0 0 8 5 = 0 ∧ t.mem = s.mem)) ∧
  (∀ (s : State) die, (die ≤ 13 ∨ (16 ≤ die ∧ die < 28)) → s.running = true → exec (.regulatorStress die) s = .next (
    let s1 := s.wsReport 9
    { s1 with pwr := { s1.pwr with stress := s1.pwr.stress.filter (· ≠ die) ++ [die] } }))

/-- R369: at or above its limit a die throttles a step more, a step less again below it by 1 °C, at most one step up in 10 µs
and one down in 100 µs; at its shutdown temperature the module powers down. -/
def Parts.Temperatures : Prop :=
  (∀ (s : State) id, id ≤ 8 → s.running = true → s.cp.sensors.has id = true →
    let n := s.pwr.therm.get 0 id
    let top := if id = 8 then 24 else 63
    (∀ x, s.pwr.thermAt.find? id = some x → 10000 ≤ (s.sensor id).toInt → s.ref < x + 1000 → exec (.thermalThrottleStep id) s = .next s) ∧
    (10000 ≤ (s.sensor id).toInt → s.pwr.thermAt.find? id = none → 0 < n → Runs (.thermalThrottleStep id) s (fun t =>
      t.pwr.therm.get 0 id = min top (n + 1) ∧ t.pwr.thermAt.find? id = some s.ref)) ∧
    ((s.sensor id).toInt < 9900 → s.pwr.thermAt.find? id = none → 0 < n → Runs (.thermalThrottleStep id) s (fun t => t.pwr.therm.get 0 id = n - 1)) ∧
    ((s.sensor id).toInt < 10000 → 9900 ≤ (s.sensor id).toInt → exec (.thermalThrottleStep id) s = .next s)) ∧
  (∀ (s : State) id, sensorListed id = true → id ≤ 14 → s.running = true → s.cp.sensors.has id = true →
    (s.sensorThere id = true → 11000 ≤ (s.sensor id).toInt → exec (.thermalShutdown id) s = .next ((s.post evPwrThermal 13 [(2, id), (4, (s.sensor id).toNat), (1, 1)]).powerDown false 2)) ∧
    ((s.sensor id).toInt < 11000 ∨ s.sensorThere id = false → exec (.thermalShutdown id) s = .next s))

end Sys2Proof

/-- Power samples and what they let through, and the throttling of hot dies. -/
def Obligations.Throttling : Prop :=
  Sys2Proof.Parts.PowerSamples ∧ Sys2Proof.Parts.Temperatures

namespace Sys2Proof

/-- R352, R354: below 40 V a sag begins and above 56 V a surge, each with its voltage; the end of a long one is counted and
posted with its extreme; a sag of 10 ms, a surge of 100 ms, or a voltage out of range powers the module down. -/
def Parts.InputSupply : Prop :=
  (∀ (s : State) mv, s.running = true → 36000 ≤ mv → mv < 40000 → Runs (.sagStart mv) s (fun t => t.pwr.sag =
      (match s.pwr.sag with | some (t, v) => some (t, min v mv) | none => some (s.ref, mv)) ∧ t.fld .pwrInput 0 0 0 16 = mv ∧ t.mem = s.mem)) ∧
  (∀ (s : State) mv, s.running = true → 56000 < mv → mv ≤ 65000 → Runs (.surgeStart mv) s (fun t => t.pwr.surge =
      (match s.pwr.surge with | some (t, v) => some (t, max v mv) | none => some (s.ref, mv)) ∧ t.fld .pwrInput 0 0 0 16 = mv ∧ t.mem = s.mem)) ∧
  (∀ (s : State) mv, 65000 < mv → exec (.surgeStart mv) s = .fault .damaged ∧ exec (.surgeTimeout mv) s = .fault .damaged) ∧
  (∀ (s : State) t v, s.pwr.sag = some (t, v) → t + 100000 ≤ s.ref → exec .sagEnd s = .next (
    (((({ s with pwr := { s.pwr with sag := none } } : State).incFld .pwrSupply 0 0 0 16).wsReport 11 (outsideMs (s.ref - t))).post evPwrSupply 13 [(1, 0), (4, v), (4, (s.ref - t) / 100)]))) ∧
  (∀ (s : State) t v, s.pwr.surge = some (t, v) → t + 100000 ≤ s.ref → exec .surgeEnd s = .next (
    (((({ s with pwr := { s.pwr with surge := none } } : State).incFld .pwrSupply 0 0 16 16).wsReport 11 (outsideMs (s.ref - t))).post evPwrSupply 13 [(1, 1), (4, v), (4, (s.ref - t) / 100)]))) ∧
  (∀ (s : State) t v, s.pwr.sag = some (t, v) → (t + 1000000 ≤ s.ref → exec .sagTimeout s = .next ((s.supplyEvent 2 v (s.ref - t)).powerDown true 1)) ∧
    (s.ref < t + 1000000 → exec .sagTimeout s = .next s)) ∧
  (∀ (s : State) t v mv, mv ≤ 60000 → s.running = true → s.pwr.surge = some (t, v) → t + 10000000 ≤ s.ref → ∃ s1,
    s1 = (s.supplyEvent 2 (max v mv) (s.ref - t)).powerDown true 1 ∧ exec (.surgeTimeout mv) s = .next { s1 with pwr := { s1.pwr with switchOpen := true } }) ∧
  (∀ (s : State) mv, s.running = true → mv < 36000 → s.pwr.sag = none → exec (.inputUndervoltage mv) s = .next ((s.supplyEvent 2 mv 0).powerDown true 1)) ∧
  (∀ (s : State) mv, s.pwr.phase ≠ .off → mv < 28000 → exec (.inputCollapse mv) s = .next (s.coldReset .off))

/-- R354, R367, R411: a power-down posts its event and keeps memory and its split, and nothing else; back in range the module
starts again with memory kept, and POWER_UP starts it from nothing. RESET_N puts the module in cold reset. -/
def Parts.PowerDowns : Prop :=
  (∀ (s : State) supply cause, ∃ s1 : State, s1 = (s.post evPwrState 13 [(1, s.fld .pwrStatus 0 0 0 3), (1, 4), (1, cause)]).quiet ∧
    (s.powerDown supply cause).mem = s1.mem ∧ (s.powerDown supply cause).poison = s1.poison ∧ (s.powerDown supply cause).pwr.phase = .down supply ∧
    (s.powerDown supply cause).pwr.hp = s.pwr.hp ∧ (s.powerDown supply cause).pwr.sp = s.pwr.sp ∧ (s.powerDown supply cause).pd = [] ∧
    (s.powerDown supply cause).queues = [] ∧ (s.powerDown supply cause).sec.fuse = s1.sec.fuse) ∧
  (∀ (s : State) mv, s.pwr.phase = .down true → 40000 ≤ mv → mv ≤ 56000 → Runs (.powerDownResume mv) s (fun t =>
    t.mem = s.mem ∧ t.poison = s.poison ∧ t.pwr.phase = .boot 1 ∧ t.pwr.hp = s.pwr.hp ∧ t.pwr.sp = s.pwr.sp ∧ t.fld .pwrInput 0 0 0 16 = mv)) ∧
  (∀ (s : State) mv, s.pwr.phase ≠ .down true → exec (.powerDownResume mv) s = .next s) ∧
  (∀ (s : State) mv r, (s.pwr.phase = .off ∨ s.pwr.phase = .held) → 40000 ≤ mv → mv ≤ 65000 → Runs (.powerUp mv r) s (fun t =>
    t.pwr.phase = .boot 1 ∧ t.pwr.refclk = r ∧ t.mem = [] ∧ t.fld .pwrInput 0 0 0 16 = mv ∧ t.fld .pwrStatus 0 0 6 1 = (!r).toNat)) ∧
  (∀ (s : State), s.pwr.phase ≠ .off → exec .resetNAssert s = .next (s.coldReset .held)) ∧
  (∀ (s : State), s.running = true → s.pciUp 0 = false → s.pciUp 1 = false → Runs .refclkLoss s (fun t =>
    t.pwr.refclk = false ∧ t.fld .pwrStatus 0 0 6 1 = 1 ∧ (∀ n < 2, (t.pciP n).noRefclk = (decide ((s.bootCfg.sris >>> n) % 2 = 0) || (s.pciP n).noRefclk)) ∧ t.mem = s.mem))

end Sys2Proof

/-- Sags, surges and collapse of the input, power-down, resume and power-up. -/
def Obligations.PowerSupply : Prop :=
  Sys2Proof.Parts.InputSupply ∧ Sys2Proof.Parts.PowerDowns

namespace Sys2Proof

/- Reset and the boot sequence. -/

/-- R336, R366: SYS_RESET resets the domain that it names and answers when the domain has left reset; a package warm reset
starts once, and a module cold reset is not answered. -/
def Parts.ResetCommands : Prop :=
  (∀ s mb, Ready s mb 6 [(4, 1), (6, 2)] → (argOf s mb 4 1 = 5 → s.fld .fwStatus 0 0 0 1 = 1) →
    let k := argOf s mb 4 1
    let t := argOf s mb 6 2
    (resetTarget k t = false → exec (.sysReset mb) s = .next (answer s mb 4)) ∧
    (k = 0 → t < 64 → exec (.sysReset mb) s = .next (later ((s.resetPcore t).addRst (.pcore t) mb) mb)) ∧
    (k = 1 → t < 512 → exec (.sysReset mb) s = .next (later ((s.resetCcore t).addRst (.ccore t) mb) mb)) ∧
    (k = 2 → t < 8 → exec (.sysReset mb) s = .next (later (s.startDie t (some mb)) mb)) ∧
    (k = 3 → t < 448 → (linkPartner t).isSome = true → exec (.sysReset mb) s = .next (later ((s.retrain t).addRst (.link t) mb) mb)) ∧
    (k = 4 → t < 48 → exec (.sysReset mb) s = .next (later ((s.resetPort t).addRst (.port t) mb) mb)) ∧
    (k = 5 → t = 0 → exec (.sysReset mb) s = .next (later ((s.resetAux 2).addRst .aux mb) mb)) ∧
    (k = 6 → t = 0 → exec (.sysReset mb) s = .next (later (s.startWarm (some mb)) mb)) ∧
    (k = 7 → t = 0 → exec (.sysReset mb) s = .next (s.coldReset (.boot 1)))) ∧
  (∀ (s : State) n, n < 64 → ((s.resetPcore n).core n) = { ptroot := (s.core n).ptroot, asid := (s.core n).asid } ∧ (∀ k, k ≠ n → (s.resetPcore n).core k = s.core k) ∧ (s.resetPcore n).mem = s.mem ∧
    (s.resetPcore n).regs = s.regs) ∧
  (∀ (s : State) n, s.inReset .warm = false → s.sb = [] → s.rsts.any (fun r => r.dom == .pcore n) = true → exec (.resetComplete (.pcore n)) s =
    .next ((s.setCore n { s.core n with held := !s.coresFree }).endRsts (.pcore n))) ∧
  (∀ (s : State) d, s.rsts = [] → exec (.resetComplete d) s = .next s)

/-- R187, R193, R366: a package warm reset keeps memory, the registers of HD, and the queues of events; the cores, the caches,
the dispatch queues and the sequence directory are as after power-on, and the boot sequence goes on at step 4. -/
def Parts.WarmReset : Prop :=
  ∀ (s : State) mb, s.inReset .warm = false → s.pwr.parkMb = none → s.queues = [] → s.cores = [] → s.msc = [] →
    let t := s.startWarm mb
    t.pwr.phase = .warm 4 ∧ t.inReset .warm = true ∧ t.mem = s.mem ∧ t.poison = s.poison ∧ (∀ n, t.core n = { ptroot := (s.core n).ptroot, asid := (s.core n).asid }) ∧ t.grps = [] ∧ t.caches = [] ∧ t.dir = [] ∧ t.queues = [] ∧
    t.seq = {} ∧ t.cp = s.cp ∧ t.fab = s.fab ∧ t.sec = s.sec ∧ t.pci = s.pci ∧ t.cgs = s.cgs ∧
    (∀ k i j, (blkOf (regAddr k i j)).map (·.1) = some .HD → regAddr k i j ≠ regAddr .wsStatus 0 0 → t.reg k i j = s.reg k i j)

/-- R368, R382: the boot sequence takes its steps in order: the security root verifies, the configuration is taken, the split
applied, the die-to-die links train, the cores leave reset, and the CP starts. The recovery service goes no further. -/
def Parts.BootSequence : Prop :=
  ∀ (s : State) ok,
    (s.pwr.phase = .boot 1 → exec (.bootStep ok) s = .next { s with pwr := { s.pwr with phase := .boot 2 } }) ∧
    (s.pwr.phase = .boot 2 → exec (.bootStep ok) s = .next (({ s with pwr := { s.pwr with phase := .boot 3, pwrgd := true } } : State).secBoot ok)) ∧
    (s.pwr.phase = .boot 3 → s.fld .secStatus 0 0 0 1 = 1 → exec (.bootStep ok) s = .next s) ∧
    (s.pwr.phase = .boot 3 → s.fld .secStatus 0 0 0 1 = 0 → (∀ p < 48, (s.port p).light = false) →
      exec (.bootStep ok) s = .next (s.configure.toPhase (.boot 4))) ∧
    (s.pwr.phase = .boot 4 → exec (.bootStep ok) s = .next (s.applySplit.toPhase (.boot 5))) ∧
    (s.pwr.phase = .boot 5 → exec (.bootStep ok) s = .next (
      let s1 := (dieLinks true).foldl (fun s1 e => s1.linkTrain e) s
      { s1 with pwr := { s1.pwr with phase := .boot 6, poweredAt := s1.ref } })) ∧
    (s.pwr.phase = .boot 6 → s.sec.measured.has 1 = true → Runs (.bootStep ok) s (fun t => t.pwr.phase = .boot 7 ∧ t.mem = s.mem ∧ t.regs = s.regs ∧
      ∀ n < 64, t.core n = { s.core n with held := false })) ∧
    (s.pwr.phase = .boot 6 → s.sec.measured.has 1 = false → exec (.bootStep ok) s = .next { s with pwr := { s.pwr with phase := .boot 7 } }) ∧
    (s.pwr.phase = .boot 7 → exec (.bootStep ok) s = .next (State.cpStart { s with pwr := { s.pwr with phase := .on } })) ∧
    (s.pwr.phase = .on → exec (.bootStep ok) s = .next s)

end Sys2Proof

/-- SYS_RESET and its domains, what a warm reset keeps, and the boot sequence. -/
def Obligations.ResetsAndBoot : Prop :=
  Sys2Proof.Parts.ResetCommands ∧ Sys2Proof.Parts.WarmReset ∧ Sys2Proof.Parts.BootSequence

namespace Sys2Proof

/- The security root. -/

/-- R382, R387: the verifier boots the selected bank where its images are good and otherwise the other, and measures what it
boots; without a good verifier image the recovery service runs. The attestation counter advances where flash does not
hold its record. -/
def Parts.SecureBoot : Prop :=
  ∀ (s : State), s.sec.sel < 2 →
    let b := s.sec.sel
    ((s.image b 0).ok = true → s.rollback 0 ≤ (s.image b 0).svn → (s.image b 1).ok = true → s.rollback 1 ≤ (s.image b 1).svn → s.sec.flashTop = some s.sec.fuse →
      let t := s.secBoot []
      t.sec.running = b ∧ t.sec.measured.get 0 0 = (s.image b 0).hash ∧ t.sec.measured.get 0 1 = (s.image b 1).hash ∧ t.sec.fuse = s.sec.fuse ∧
      t.fld .secStatus 0 0 0 1 = s.fld .secStatus 0 0 0 1 ∧ t.fld .secStatus 0 0 1 1 = b ∧ t.fld .secStatus 0 0 21 6 = s.rollback 0 % 64 ∧ t.mem = s.mem) ∧
    ((s.image b 0).ok = false → (s.image (1 - b) 0).ok = true → s.rollback 0 ≤ (s.image (1 - b) 0).svn → s.sec.flashTop = some s.sec.fuse →
      (s.secBoot []).sec.running = 1 - b ∧ (s.secBoot []).sec.measured.get 0 0 = (s.image (1 - b) 0).hash) ∧
    ((s.image b 0).ok = false → (s.image (1 - b) 0).ok = false → s.sec.flashTop = some s.sec.fuse →
      (s.secBoot []).fld .secStatus 0 0 0 1 = 1 ∧ (s.secBoot []).sec.measured = []) ∧
    (s.sec.fuse < 4096 → s.sec.flashTop ≠ some s.sec.fuse → (s.secBoot []).sec.fuse = s.sec.fuse + 1 ∧ (s.secBoot []).sec.flashTop = some (s.sec.fuse + 1) ∧ (s.secBoot []).sec.leaf = 0)

/-- R383 to R385: staging erases the image of the bank that is not selected for boot; chunks arrive in order, and after the
last one the image is verified and its status answered; activation selects a bank whose images are all good, and only a
commit raises the rollback counters. -/
def Parts.FirmwareUpdate : Prop :=
  (∀ s mb, Ready s mb 0x701 [(4, 1), (8, 8), (0x10, 4)] → argOf s mb 4 1 ≤ 2 → argOf s mb 0x10 4 ≤ 2 ^ 25 → argOf s mb 8 8 = 0 → s.sec.stage = none →
    Runs (.secFwStage mb) s (fun t => (t.image (1 - s.sec.sel) (argOf s mb 4 1)).ok = false ∧
      (∀ c, c ≠ 3 * (1 - s.sec.sel) + argOf s mb 4 1 → t.sec.img.get {} c = s.sec.img.get {} c) ∧
      t.sec.stage = some { comp := argOf s mb 4 1, bank := 1 - s.sec.sel, len := argOf s mb 0x10 4, mb := mb, streamed := true, last := s.ref, src := 0 } ∧
      t.sec.sel = s.sec.sel ∧ t.sec.rb = s.sec.rb ∧ (t.mbox mb).res = some (0, padTo 64 []) ∧ t.mem = s.mem)) ∧
  (∀ s mb g, Ready s mb 0x705 [(4, 1), (8, 4), (0x10, argOf s mb 4 1)] → 1 ≤ argOf s mb 4 1 → argOf s mb 4 1 ≤ 48 → s.sec.stage = some g →
    g.streamed = true → g.mb = mb → g.res = none → argOf s mb 8 4 = g.got.length → g.got.length + argOf s mb 4 1 ≤ g.len →
    let g1 := { g with got := g.got ++ (s.mbox mb).bytes 0x10 (argOf s mb 4 1), last := s.ref }
    (g.got.length + argOf s mb 4 1 < g.len → exec (.secFwChunk mb) s = .next (answer { s with sec := { s.sec with stage := some g1 } } mb 0)) ∧
    (g.got.length + argOf s mb 4 1 = g.len → exec (.secFwChunk mb) s = .next (
      let y := s.stageImage g1 g1.got
      ({ y.1 with sec := { y.1.sec with stage := some { g1 with got := [], res := some y.2 } } } : State).mbResult mb y.2))) ∧
  (∀ s mb, Ready s mb 0x702 [(4, 1), (5, 1)] → argOf s mb 4 1 ≤ 1 → argOf s mb 5 1 ≤ 1 → (argOf s mb 5 1 = 1 → argOf s mb 4 1 = s.sec.running) →
    let b := argOf s mb 4 1
    ((s.accepts b 0 && s.accepts b 1 && s.accepts b 2) = false → ∀ f, exec (.secFwActivate mb f) s = .next (answer s mb 0x0702)) ∧
    ((s.accepts b 0 && s.accepts b 1 && s.accepts b 2) = true → exec (.secFwActivate mb false) s = .next (answer s mb 0x0707)) ∧
    ((s.accepts b 0 && s.accepts b 1 && s.accepts b 2) = true → Runs (.secFwActivate mb true) s (fun t =>
      t.sec.sel = b ∧ (argOf s mb 5 1 = 0 → t.sec.rb = s.sec.rb) ∧ (argOf s mb 5 1 = 1 → ∀ c < 2, t.rollback c = max (s.rollback c) (s.image b c).svn) ∧
      t.sec.img = s.sec.img ∧ t.sec.running = s.sec.running ∧ (t.mbox mb).res = some (0, padTo 64 []) ∧ t.mem = s.mem))) ∧
  (∀ (s : State) g st, s.sec.stage = some g → (s.mbox g.mb).busy = false → g.streamed = true → g.res = some st →
    s.fld .secStatus 0 0 0 1 = 0 → exec .stageVerifyDone s = .next (({ s with sec := { s.sec with stage := none } } : State).post evSecFw 13
      [(1, g.comp), (1, g.bank), (2, st), (1, (s.image g.bank g.comp).svn)])) ∧
  (∀ (s : State) g s1 b, s.sec.stage = some g → (s.mbox g.mb).busy = false → g.streamed = false → s.memOk = true → s.readBytes g.src g.len = some (s1, b, false) →
    exec .stageVerifyDone s = .next ((s1.stageImage g b).1.stageOver g (s1.stageImage g b).2)) ∧
  (∀ (s : State) g, s.sec.stage = some g → g.streamed = true → g.res = none →
    (g.last + 10 ^ 9 ≤ s.ref → exec .stageAbandon s = .next { s with sec := { s.sec with stage := none } }) ∧ (s.ref < g.last + 10 ^ 9 → exec .stageAbandon s = .next s))

/-- R380, R386 to R388: a report is made of the nonce, the identity and the measurements, with a signature by a leaf that is
used once; SEC_ATTEST reads it in pieces of 64 B, and PUBKEY and SEC_ID_READ answer what was provisioned. -/
def Parts.Attestation : Prop :=
  (∀ s mb, Ready s mb 0x703 [(4, 1), (8, 32)] → argOf s mb 4 1 = 0 →
    (4096 ≤ s.sec.fuse → ∀ f, exec (.secAttestCreate mb f) s = .next (answer s mb 0x0706)) ∧
    (s.sec.fuse < 4096 → exec (.secAttestCreate mb false) s = .next (answer s mb 0x0707)) ∧
    (s.sec.fuse < 4096 → s.sec.leaf + 1 < 2 ^ 20 → Runs (.secAttestCreate mb true) s (fun t => t.sec.leaf = s.sec.leaf + 1 ∧ t.sec.fuse = s.sec.fuse ∧
      ((t.sec.reports.get [] mb).take 40 = leBytes 4 1 ++ leBytes 4 3548 ++ (s.mbox mb).bytes 8 32) ∧ (t.sec.reports.get [] mb).length = 3548 ∧
      (t.mbox mb).res = some (0, padTo 64 (leBytes 4 3548)) ∧ t.mem = s.mem ∧ t.regs = s.regs))) ∧
  (∀ s mb, Ready s mb 0x703 [(4, 1), (8, 4)] → argOf s mb 4 1 = 1 → argOf s mb 8 4 % 64 = 0 →
    (s.sec.reports.find? mb = none → exec (.secAttestRead mb) s = .next (answer s mb 0x0705)) ∧
    (∀ r, s.sec.reports.find? mb = some r → exec (.secAttestRead mb) s = .next (answer s mb 0 ((r.drop (argOf s mb 8 4)).take 64)))) ∧
  (∀ s mb, Ready s mb 0x703 [(4, 1)] → argOf s mb 4 1 = 2 → exec (.secAttestPubkey mb) s = .next (answer s mb 0 ((upTo 60).map (fun i => Config.hssPub i)))) ∧
  (∀ s mb, Ready s mb 0x704 [(4, 1)] → argOf s mb 4 1 ∈ idDies → argOf s mb 4 1 ≠ 14 → exec (.secIdRead mb) s =
    .next (answer s mb 0 (padTo 16 (leBytes 9 (Config.dieId (argOf s mb 4 1)).toNat) ++ leBytes 8 Config.serial.toNat)))

end Sys2Proof

/-- Verified boot, firmware update and attestation. -/
def Obligations.Security : Prop :=
  Sys2Proof.Parts.SecureBoot ∧ Sys2Proof.Parts.FirmwareUpdate ∧ Sys2Proof.Parts.Attestation

namespace Sys2Proof

/- PCIe. -/

/-- R232, R374 to R376: a request at an endpoint's BAR2 or at a root port reads, writes or changes local memory, where the port
takes requests and memory is ready, and a read and an atomic are completed with what stood there. Above local memory a read
is an unsupported request, and with memory not ready an abort; a refused write changes nothing. A write whose line is busy
waits at its port; behind it no write without the relaxed mark, no read and no atomic is performed. -/
def Parts.PcieRequests : Prop :=
  (∀ (s : State) n addr len, n < 2 → addr < 2 ^ 64 → 0 < len → len ≤ 4096 → s.pciUp n = true → s.fld .pciPortCtrl n 0 0 1 = 1 → s.pmuOn 580 = false →
    ((s.pciP n).posted ≠ [] → exec (.pcieMemoryRead n 2 addr len) s = .next s) ∧
    ((s.pciP n).posted = [] →
      (2 ^ 41 < addr + len → exec (.pcieMemoryRead n 2 addr len) s = .next (s.cplTo n [] 1)) ∧
      (addr + len ≤ 2 ^ 41 → s.memReady = false → exec (.pcieMemoryRead n 2 addr len) s = .next (s.cplTo n [] 2)) ∧
      (localRange addr len = true → s.memReady = true → s.rangeBusy addr len = false → ∀ s1 b p, s.readBytes addr len = some (s1, b, p) →
        exec (.pcieMemoryRead n 2 addr len) s = .next (s1.cplTo n b (if p then 3 else 0))))) ∧
  (∀ (s : State) n addr data (x : TlpAttr), n < 2 → addr < 2 ^ 64 → data ≠ [] → data.length ≤ 512 → s.pciUp n = true →
    s.fld .pciPortCtrl n 0 0 1 = 1 → s.pmuOn 580 = false →
    let held := s.setPciP n { s.pciP n with posted := (s.pciP n).posted ++ [{ bar := 2, addr := addr, data := data, ep := x.ep }] }
    ((x.relaxed = true ∨ (s.pciP n).posted = []) →
      (2 ^ 41 < addr + data.length → exec (.pcieMemoryWrite n 2 addr data x) s = .next s) ∧
      (s.memReady = false → exec (.pcieMemoryWrite n 2 addr data x) s = .next s) ∧
      (localRange addr data.length = true → s.memReady = true → s.rangeBusy addr data.length = false → ∀ s1, s.putBytes addr data x.ep 6 = some s1 →
        exec (.pcieMemoryWrite n 2 addr data x) s = .next s1) ∧
      (localRange addr data.length = true → s.memReady = true → s.rangeBusy addr data.length = true →
        exec (.pcieMemoryWrite n 2 addr data x) s = .next held)) ∧
    (x.relaxed = false → (s.pciP n).posted ≠ [] → exec (.pcieMemoryWrite n 2 addr data x) s = .next (held.pumpPosted n ((s.pciP n).posted.length + 1)))) ∧
  (∀ (s : State) n k addr wide a b, n < 2 → addr % (if wide then 8 else 4) = 0 → s.pciUp n = true → s.fld .pciPortCtrl n 0 0 1 = 1 →
    s.pmuOn 580 = false → s.memReady = true → localRange addr (if wide then 8 else 4) = true →
    ((s.pciP n).posted ≠ [] → exec (.pcieAtomicop n k addr wide a b) s = .next s) ∧
    ((s.pciP n).posted = [] → ∀ s1 d,
      ((match k with
        | .fetchAdd => s.ncAmo addr (if wide then 8 else 4) 0 a 0 1
        | .swap => s.ncAmo addr (if wide then 8 else 4) 4 a 0 1
        | .cas => s.ncAmo addr (if wide then 8 else 4) 5 b a 1) : MR) = MR.ok s1 d false →
      exec (.pcieAtomicop n k addr wide a b) s = .next (s1.cplTo n (leBytes (if wide then 8 else 4) (lineBytes d (addr % 128) (if wide then 8 else 4))) 0))) ∧
  (∀ (s : State) n bar addr len, n < 2 → (bar = 0 ∨ bar = 2 ∨ bar = 4) → addr < 2 ^ 64 → 0 < len → len ≤ 4096 → s.pciUp n = false →
    exec (.pcieMemoryRead n bar addr len) s = .next s)

/-- R373, R377, R390, R413: a port that trains shows its generation, width and mode, unless it is disabled, held by PERSTn_N
or without its clock; a link that goes down loses them, and what was open through it ends with a bus error. A disabled port
drains for its grace; a root port releases PERSTn_N, and an endpoint follows it. -/
def Parts.PciePorts : Prop :=
  (∀ (s : State) n gen w flit, n < 2 → 0 < gen → gen ≤ 7 → (w = 1 ∨ w = 2 ∨ w = 4 ∨ w = 8) → (6 ≤ gen → flit = true) → s.hdOn = true → s.pciUp n = false →
    (s.fld .pciPortCtrl n 0 0 1 = 1 → (s.pciP n).noRefclk = false → (if s.isRoot n then (s.pciP n).released = true else (s.pciP n).perst = false) →
      Runs (.pcieLinkUp n gen w flit) s (fun t => t.pciUp n = true ∧ t.fld .pciPortStatus n 0 2 3 = gen ∧ t.fld .pciPortStatus n 0 5 4 = w ∧
        t.fld .pciPortStatus n 0 9 1 = flit.toNat ∧ t.fld .pciPortStatus n 0 11 1 = s.fld .pciPortStatus n 0 11 1 ∧ t.mem = s.mem)) ∧
    (s.fld .pciPortCtrl n 0 0 1 = 0 → exec (.pcieLinkUp n gen w flit) s = .next s)) ∧
  (∀ (s : State) n, n < 2 → s.pciUp n = true → (s.pciP n).out = [] → s.sb = [] → Runs (.pcieLinkDown n) s (fun t =>
    t.pciUp n = false ∧ t.fld .pciPortStatus n 0 2 3 = 0 ∧ t.fld .pciPortStatus n 0 5 4 = 0 ∧ t.fld .pciPortStatus n 0 11 1 = 1 ∧ t.fld .pciPortStatus n 0 10 1 = 0 ∧
    t.mem = s.mem)) ∧
  (∀ (s : State) n, n < 2 → s.pciUp n = false → exec (.pcieLinkDown n) s = .next s) ∧
  (∀ (s : State) iss n, n < 2 → s.reach iss (regAddr .pciPortCtrl n 0) = .ok → s.fld .pciPortStatus n 0 10 1 = 0 →
    (s.fld .pciPortCtrl n 0 0 1 = 1 → ∃ s1, s1 = (s.setFld .pciPortCtrl n 0 0 1 0).setFld .pciPortStatus n 0 10 1 1 ∧ exec (.pciPortDisable iss n) s = .next
      ((s1.setPciP n { s.pciP n with drainEnd := some (s.now + s.fld .pciPortCtrl n 0 1 20 * 1000), released := false }).wrote iss)) ∧
    (s.fld .pciPortCtrl n 0 0 1 = 0 → exec (.pciPortDisable iss n) s = .next (s.wrote iss)) ∧
    exec (.pciPortEnable iss n) s = .next ((s.setFld .pciPortCtrl n 0 0 1 1).wrote iss)) ∧
  (∀ (s : State) iss n, n < 2 → s.reach iss (regAddr .pciPortCtrl n 0) = .ok → s.fld .pciPortStatus n 0 10 1 = 1 →
    exec (.pciPortDisable iss n) s = .next ((s.setFld .pciPortStatus n 0 13 1 1).wrote iss) ∧
    exec (.pciPortEnable iss n) s = .next ((s.setFld .pciPortStatus n 0 13 1 1).wrote iss)) ∧
  (∀ (s : State) n t, n < 2 → (s.pciP n).drainEnd = some t →
    ((t ≤ s.now ∨ s.outOpen n = false) → exec (.pcieDrainEnd n) s = .next (s.drainOver n)) ∧
    (s.now < t → s.outOpen n = true → exec (.pcieDrainEnd n) s = .next s)) ∧
  (∀ (s : State) n, n < 2 → s.hdOn = true → s.isRoot n = false → exec (.perstChange n true) s = .next (s.setPciP n { s.pciP n with perst := false }) ∧
    (s.pciUp n = false → exec (.perstChange n false) s = .next (s.setPciP n { s.pciP n with perst := true }))) ∧
  (∀ (s : State) n, n < 2 → s.hdOn = true → s.isRoot n = true → s.fld .pciPortCtrl n 0 0 1 = 1 → (s.pciP n).noRefclk = false →
    exec (.perstRelease n) s = .next (s.setPciP n { s.pciP n with released := true })) ∧
  (∀ (s : State) tag line, (Who.op tag).wf = true → (s.pciP 0).out.elem (.op tag, line) = true → exec (.completionTimeout (.op tag) line) s =
    .next (((s.outTake (.op tag) line).setFld .pciPortStatus 0 0 12 1 1).answerLine tag line 0 false true))

end Sys2Proof

/-- PCIe requests, ports, and their disable. -/
def Obligations.PciePortsAndRequests : Prop :=
  Sys2Proof.Parts.PcieRequests ∧ Sys2Proof.Parts.PciePorts

namespace Sys2Proof

/- The side-band. -/

/-- R378, R379: a private write sets the pointer and writes the bytes from it onward; a read returns the bytes from the
pointer, and one that covers ALERT clears it. The common codes give and end the dynamic address and enable interrupts.
R418: an access over J14 writes or reads a word of MB6. -/
def Parts.SideBand : Prop :=
  (∀ (s : State) p b, s.i3cOn = true → (exec (.i3cPrivateWrite []) s = .next s) ∧
    exec (.i3cPrivateWrite [p]) s = .next { s with cp := { s.cp with i3cPtr := p.toNat } } ∧
    exec (.i3cPrivateWrite [p, b]) s = .next (
      let s1 := ({ s with cp := { s.cp with i3cPtr := p.toNat } } : State).i3cPut p.toNat b
      { s1 with cp := { s1.cp with i3cPtr := (s1.cp.i3cPtr + 1) % 256 } })) ∧
  (∀ (s : State) n, 0 < n → n ≤ 256 → s.i3cOn = true → Runs (.i3cPrivateRead n) s (fun t =>
    t.cp.i3cOut = (upTo n).map (fun i => s.i3cGet ((s.cp.i3cPtr + i) % 256)) ∧ t.cp.i3cPtr = s.cp.i3cPtr ∧
    t.cp.i3cAlert = (if ∃ i < n, (s.cp.i3cPtr + i) % 256 = 0x90 then 0 else s.cp.i3cAlert) ∧ t.regs = s.regs ∧ t.mem = s.mem)) ∧
  (∀ (s : State), s.hdOn = true →
    exec (.i3cCcc .rstdaa 0) s = .next { s with cp := { s.cp with i3cDyn := none } } ∧
    (∀ a, a < 128 → s.cp.i3cDyn = none → exec (.i3cCcc .entdaa a) s = .next { s with cp := { s.cp with i3cDyn := some a } }) ∧
    (∀ a, a < 256 → a % 2 = 1 → s.cp.i3cDyn ≠ none → exec (.i3cCcc .enec a) s = .next { s with cp := { s.cp with i3cIbi := true } } ∧
      exec (.i3cCcc .disec a) s = .next { s with cp := { s.cp with i3cIbi := false } })) ∧
  (∀ (s : State) p b n, s.i3cOn = false → exec (.i3cPrivateWrite (p :: b)) s = .next s ∧ (0 < n → n ≤ 256 → exec (.i3cPrivateRead n) s = .next s)) ∧
  (∀ (s : State) (dr : BitVec 72), s.hdOn = true → s.cp.prsnt = false →
    exec (.jtagMbaccess dr) s = .next (if dr.getLsbD 69 then s else { s with cp := { s.cp with jtag := 0 } })) ∧
  (∀ (s : State) (dr : BitVec 72), s.hdOn = true → s.cp.prsnt = true →
    let i := dr.toNat / 2 ^ 64 % 32
    (dr.getLsbD 69 = true → i ≤ 18 → ∀ s1 e, s.regStore .ext (mbPage 6 + 8 * i) 8 (dr.truncate 64) = some (s1, e) → exec (.jtagMbaccess dr) s = .next s1) ∧
    (dr.getLsbD 69 = true → 18 < i → exec (.jtagMbaccess dr) s = .next s) ∧
    (dr.getLsbD 69 = false → i ≤ 18 → ∃ s1 v e, s.regLoad .ext (mbPage 6 + 8 * i) 8 = (s1, v, e) ∧ exec (.jtagMbaccess dr) s = .next { s1 with cp := { s1.cp with jtag := v } }) ∧
    (dr.getLsbD 69 = false → 18 < i → exec (.jtagMbaccess dr) s = .next { s with cp := { s.cp with jtag := 0 } }))

end Sys2Proof

/-- Debug commands, and the side-band and test access paths. -/
def Obligations.DebugAndSideBand : Prop :=
  Sys2Proof.Parts.Debug ∧ Sys2Proof.Parts.SideBand

namespace Sys2Proof

/- Counters, monitors and registers. -/

/-- R392, R397 to R400: a write of a counter wins over its events, which are added; a dump tick takes one record of each
selected unit, and the records reach the ring in order; a monitor that is cleared starts again; the depth monitors are
sampled. -/
def Parts.Counters : Prop :=
  (∀ (s : State) unit idx v n, unit < 581 → idx < 8 → s.reach .ext (regAddr .pmuPmc unit idx) = .ok → s.pmuOn unit = false → exec (.pmuCounterWrite .ext unit idx 8 v n) s = .next (s.setReg .pmuPmc unit idx v)) ∧
  (∀ (s : State) unit idx v n, unit < 581 → idx < 8 → s.reach .ext (regAddr .pmuPmc unit idx) = .ok → s.pmuOn unit = true → exec (.pmuCounterWrite .ext unit idx 8 v n) s = .next (s.setReg .pmuPmc unit idx (v + BitVec.ofNat 64 n))) ∧
  (∀ (s : State) iss i, i < 16 → s.reach iss (regAddr .monCtrl i 0) = .ok → ∃ s1, exec (.hdMonClear iss i) s = .next (State.wrote s1 iss) ∧ s1.reg .monRange i 0 = 0xFFFFFFFF ∧
    (∀ j < 8, s1.reg .monBin i j = 0) ∧ s1.mem = s.mem) ∧
  (∀ (s : State), s.fld .dctrl 0 0 0 1 = 0 → exec .pmuDumpTick s = .next s) ∧
  (∀ (s : State) u us, s.fld .dctrl 0 0 0 1 = 1 → s.pmu.last / (1000 * max 1 s.pmu.interval) < s.now / (1000 * max 1 s.pmu.interval) →
    let s1 : State := { s with pmu := { s.pmu with tick := s.pmu.tick + 1, last := s.now, interval := s.fld .dctrl 0 0 2 20 } }
    s.fld .pwrStatus 0 0 0 3 ≠ 3 → s1.dumpSel = u :: us →
    (s1.dumpBusy = true → exec .pmuDumpTick s = .next (({ s1 with pmu := { s1.pmu with missed := true } } : State).incFld .dstatus 0 0 32 16)) ∧
    (s1.dumpBusy = false → (s.memOk = false ∨ s1.dumpRoom (us.length + 1) = false) →
      exec .pmuDumpTick s = .next (({ s1 with pmu := { s1.pmu with loss := true } } : State).incFld .dstatus 0 0 16 16)) ∧
    (s1.dumpBusy = false → s.memOk = true → s1.dumpRoom (us.length + 1) = true → exec .pmuDumpTick s =
      .next { s1 with pmu := { s1.pmu with loss := false, missed := false, out := s1.dumpRecord true u :: us.map (s1.dumpRecord false) } })) ∧
  (∀ (s : State) b, s.pmu.out = [b] → exec .dumpComplete s = .next (({ s with pmu := { s.pmu with out := [] } } : State).putRecord
    ⟨.dwidx, 0, s.fld .dbase 0 0 7 49 * 128 + 128 * (((s.reg .dwidx 0 0).toNat + s.recordsOut .dwidx 0) % 2 ^ s.fld .dbase 0 0 0 5), b⟩)) ∧
  (∀ (s : State), s.pmu.out = [] → exec .dumpComplete s = .next s) ∧
  (∀ (s : State), s.hdOn = true → (∀ i < 16, s.fld .monCtrl i 0 0 1 = 0) → exec .monitorSample s = .next s) ∧
  (∀ (s : State), s.hdOn = true → ∃ t, exec .monitorSample s = .next t ∧ t.mem = s.mem)

/-- R4, R5, R170, R421: a store of an 8 B register that has no effect of its own writes its RW fields that are in range, clears
or sets its W1C and W1S bits where it stores a 1, and leaves its other bits; a load answers the register and clears the RC
fields that it covers. An offset with no register reads 0 and keeps nothing; a block that does not answer gives a bus error. -/
def Parts.Registers : Prop :=
  (∀ (s : State) iss addr k i j v, isMmio addr = true → addr % 8 = 0 → isAuxWin addr = false → s.reach iss addr = .ok → regAt addr = some (k, i, j) →
    k ∈ [RegKind.tsChCtrl, .tsCfg, .ccMask0, .ccMask1, .xltAst, .fqDeadline, .scrubCtrl, .seqCptRate, .cohCtrl, .ordCtrl, .fabCtrl, .wsCtrl, .wsThresh, .dbase, .dsel, .fabTimeCfg, .pmuUserEn] →
    (k = .dsel → j < 9) → exec (.registerWrite iss addr 8 v) s = .next ((s.storeFields k i j 0 8 v).wrote iss)) ∧
  (∀ (s : State) iss addr i v, isMmio addr = true → addr % 8 = 0 → isAuxWin addr = false → s.reach iss addr = .ok → regAt addr = some (.dsel, i, 9) →
    ∃ s1 : State, exec (.registerWrite iss addr 8 v) s = .next (s1.wrote iss) ∧ s1.reg .dsel i 9 = v &&& 0xFFFF001F) ∧
  (∀ (s : State) k i j v f, s.outOfRange k i j v = [] → f ∈ regFields k → f.lo + f.wid ≤ 64 →
    (f.acc = .rw → (s.storeFields k i j 0 8 v).fld k i j f.lo f.wid = bits v f.lo f.wid) ∧
    (f.acc = .w1c → f.wid = 1 → (s.storeFields k i j 0 8 v).fld k i j f.lo 1 = if bit v f.lo then 0 else s.fld k i j f.lo 1) ∧
    ((f.acc = .ro ∨ f.acc = .rc) → (s.storeFields k i j 0 8 v).fld k i j f.lo f.wid = s.fld k i j f.lo f.wid)) ∧
  (∀ (s : State) k i j v, (s.storeFields k i j 0 8 v).mem = s.mem ∧ (s.storeFields k i j 0 8 v).pd = s.pd) ∧
  (∀ (s : State) iss v i, i < 2 → ∀ c ∈ [(RegKind.mbDoorbell, Instr.mbDoorbell iss i 8 v), (.dqDoorbell, .cdDqDoorbell iss i 8 v),
      (.cgDoorbell, .fabCgDoorbell iss i 8 v), (.fqRidx, .cdFqRidxWrite iss i 8 v), (.evrRidx, .hdEvrRidxWrite iss i 8 v), (.mscCtrl, .mdMscFlush iss i),
      (.seqBtcCtrl, .seqBtcFlush iss i), (.ccCtrl, .cdCcFlush iss i), (.lnkCtrl, .lnkCtrlRetrain iss i), (.monCtrl, .hdMonClear iss i)],
    (s.reach iss (regAddr c.1 i 0) = .bus → exec c.2 s = .next (s.wrote iss true)) ∧ (s.reach iss (regAddr c.1 i 0) = .wait → exec c.2 s = .next s)) ∧
  (∀ (s : State) iss addr, isMmio addr = true → accessWf addr 8 = true →
    (s.reach iss addr = .bus → (∀ v, exec (.registerWrite iss addr 8 v) s = .next (s.wrote iss true)) ∧ exec (.registerReadClear iss addr 8) s = .next (s.wasRead iss addr 0 true)) ∧
    (s.reach iss addr = .wait → (∀ v, exec (.registerWrite iss addr 8 v) s = .next s) ∧ exec (.registerReadClear iss addr 8) s = .next s) ∧
    (s.reach iss addr = .ok → isAuxWin addr = false → regAt addr = none → (∀ v, exec (.registerWrite iss addr 8 v) s = .next (s.wrote iss)) ∧
      exec (.registerReadClear iss addr 8) s = .next (s.wasRead iss addr 0)) ∧
    (∀ k i j, s.reach iss addr = .ok → isAuxWin addr = false → regAt addr = some (k, i, j) → ∃ s1, exec (.registerReadClear iss addr 8) s = .next (State.wasRead s1 iss addr (s.regSeen iss k i j)) ∧
      (∀ f ∈ regFields k, f.acc = .rc → f.wid + f.lo ≤ 64 → s1.fld k i j f.lo f.wid = 0) ∧
      (∀ f ∈ regFields k, f.acc ≠ .rc → f.wid + f.lo ≤ 64 → s1.fld k i j f.lo f.wid = s.fld k i j f.lo f.wid) ∧ s1.mem = s.mem))

end Sys2Proof

/-- Counters, dumps and monitors, and the access codes of registers. -/
def Obligations.CountersAndRegisters : Prop :=
  Sys2Proof.Parts.Counters ∧ Sys2Proof.Parts.Registers

namespace Sys2Proof

/- The machine as a whole. -/

end Sys2Proof

/-- What a step is: it runs the command at the front of the queue on the machine with the rest of the queue. -/
def Obligations.StepRunsFront : Prop := ∀ (s : State) c r, s.pending = c :: r → step s = exec c { s with pending := r }

/-- With no command waiting, 10 ns pass on a machine that has power, and nothing passes on one that has none (the model's
choice, log 4). -/
def Obligations.TimePasses : Prop :=
  (∀ (s : State), s.pending = [] → step s = .next (tick s)) ∧
  (∀ (s : State), (s.pwr.phase = .off ∨ s.pwr.phase = .held ∨ ∃ b, s.pwr.phase = .down b) → tick s = s) ∧
  (∀ (s : State), s.pwr.phase = .on → s.wq = [] → s.fab.slewLeft = 0 → s.fab.electAt = none → s.pci = [] → s.fab.ports = [] → s.cgs = [] → s.pwr.park = none → s.pd = [] → (∀ u < 581, s.pmuOn u = false) → tick s =
    { s with now := s.now + 10, ref := s.ref + 1, cdClk := s.cdClk + 8, pdClk := s.pdClk + s.fld .pwrPdfreq 0 0 0 6 })

namespace Sys2Proof

/- Rules of the manual, each stated whole. -/

end Sys2Proof

/-- R3, over the bytes that every memory access, register access, packet, descriptor and mailbox area is laid out with:
byte i of a value of n bytes holds its bits 8 i + 7 to 8 i, at the lowest address first, and reading the bytes back gives
the value. -/
def Obligations.LittleEndian : Prop :=
  (∀ n v i, i < n → (leBytes n v)[i]? = some (BitVec.ofNat 8 (v / 2 ^ (8 * i)))) ∧
  (∀ n v, (leBytes n v).length = n ∧ ofLeBytes (leBytes n v) = v % 2 ^ (8 * n)) ∧
  (∀ (d : Line) i n, i + n ≤ 128 → leBytes n (lineBytes d i n) = (List.range n).map (fun k => lineByte d (i + k))) ∧
  (∀ (d : Line), lineOfBytes ((List.range 128).map (fun k => lineByte d k)) = d) ∧
  (∀ i n v k, i + n ≤ 128 → k < 128 → lineByte (lineAt i n v) k = if i ≤ k ∧ k < i + n then BitVec.ofNat 8 (v / 2 ^ (8 * (k - i))) else 0)

/-- R17, whole: g0 reads as zero and p0 as 1 and writes to them are discarded; each of the other registers reads what was last
written to it, and a write leaves the others alone. -/
def Obligations.ConstantRegisters : Prop :=
  (∀ (t : Thr), t.getG 0 = 0 ∧ t.getP 0 = true) ∧
  (∀ (t : Thr) v b, t.setG 0 v = t ∧ t.setP 0 b = t) ∧
  (∀ (t : Thr) r v, r ≠ 0 → (t.setG r v).getG r = v) ∧
  (∀ (t : Thr) r q v, q ≠ r → (t.setG r v).getG q = t.getG q) ∧
  (∀ (t : Thr) r v, (t.setF r v).getF r = v) ∧
  (∀ (t : Thr) r q v, q ≠ r → (t.setF r v).getF q = t.getF q) ∧
  (∀ (t : Thr) i b, 0 < i → i < 8 → (t.setP i b).getP i = b) ∧
  (∀ (t : Thr) i j b, i < 8 → j < 8 → j ≠ i → (t.setP i b).getP j = t.getP j) ∧
  (∀ (t : Thr) r q v b, (t.setG r v).getF q = t.getF q ∧ (t.setG r v).p = t.p ∧ (t.setF r v).getG q = t.getG q ∧ (t.setF r v).p = t.p ∧
    (t.setP r b).getG q = t.getG q ∧ (t.setP r b).getF q = t.getF q)

/-- R29, whole: integer division never raises an exception, a quotient by zero is all ones and a remainder by zero the
dividend, and -2^63 divided by -1 is -2^63 with remainder 0, on processor cores and in every lane of a group. Number f is
0 DIV, 1 DIVU, 2 REM, 3 REMU. -/
def Obligations.IntegerDivision : Prop :=
  (∀ s n iw f rd a b, CoreAt s n iw (.div f rd a b) → f < 4 →
    let x := (s.core n).thr.getG a
    let y := (s.core n).thr.getG b
    (y = 0 → exec (.divDivuRemRemu (.core n) iw) s = .next (coreDone s n iw ((s.core n).thr.setG rd (if f < 2 then BitVec.allOnes 64 else x)))) ∧
    (x = BitVec.ofInt 64 (-2 ^ 63) → y = BitVec.ofInt 64 (-1) → f = 0 → exec (.divDivuRemRemu (.core n) iw) s = .next (coreDone s n iw ((s.core n).thr.setG rd x))) ∧
    (x = BitVec.ofInt 64 (-2 ^ 63) → y = BitVec.ofInt 64 (-1) → f = 2 → exec (.divDivuRemRemu (.core n) iw) s = .next (coreDone s n iw ((s.core n).thr.setG rd 0)))) ∧
  (∀ s u iw x f rd a b s2, issued s u iw = some (x, .div f rd a b, s2) → f < 4 → ∃ v : Thr → Word,
    exec (.divDivuRemRemu u iw) s = .next (scalarDone s2 x (fun t => t.setG rd (v t)) []) ∧
    ∀ t, (t.getG b = 0 → v t = if f < 2 then BitVec.allOnes 64 else t.getG a) ∧
      (t.getG a = BitVec.ofInt 64 (-2 ^ 63) → t.getG b = BitVec.ofInt 64 (-1) → (f = 0 → v t = t.getG a) ∧ (f = 2 → v t = 0)))

/-- R46, whole: TRET at K and at M returns with the saved pc, level and IE of its level and clears the saved level; at U it
takes PRIV. -/
def Obligations.ReturnFromTraps : Prop :=
  (∀ s n iw x s1, fetched s n iw .tret = some (x, s1) → s1.lvl n = 0 → exec (.tret (.core n) iw) s = .next (s1.raiseWord x 2) ∧
    ((s1.core n).tagged = none → Entered (s1.core n) ((s1.raiseWord x 2).core n) (toM (s1.core n) 2) 2)) ∧
  (∀ s n iw x s2, issued s (.core n) iw = some (x, .tret, s2) → (s2.lvl n = 1 ∨ s2.lvl n = 2) → (s2.core n).tagged = none →
    s2.pmuOn (512 + n) = false → Runs (.tret (.core n) iw) s (fun t =>
      let c := s2.core n
      let d := t.core n
      (s2.lvl n = 1 → d.thr.pc = c.tpcK ∧ bits d.state 0 2 = bits c.state 4 2 ∧ bits d.state 2 1 = bits c.state 6 1 ∧ bits d.state 4 2 = 0) ∧
      (s2.lvl n = 2 → d.thr.pc = c.tpcM ∧ bits d.state 0 2 = bits c.state 8 2 ∧ bits d.state 2 1 = bits c.state 10 1 ∧ bits d.state 8 2 = 0) ∧
      d.thr.g = c.thr.g ∧ d.thr.f = c.thr.f ∧ d.thr.p = c.thr.p ∧ d.thr.fpc = c.thr.fpc ∧
      (∀ m, m ≠ n → t.core m = s2.core m) ∧ t.mem = s2.mem ∧ t.regs = s2.regs))

/-- R392, whole: a counter that is written in a clock in which it also counts events takes the written value plus the events
of that clock. -/
def Obligations.CounterWrites : Prop :=
  ∀ (s : State) iss unit idx v n, unit < 581 → idx < 14 → (unit < 576 ∨ idx < 9) → s.pmuMayWrite iss = true → s.pmuOn unit = true →
    s.reach iss (regAddr (if idx < 8 then .pmuPmc else .pmuFixed) unit (if idx < 8 then idx else idx - 8)) = .ok →
    exec (.pmuCounterWrite iss unit idx 8 v n) s = .next ((s.setReg (if idx < 8 then .pmuPmc else .pmuFixed) unit (if idx < 8 then idx else idx - 8)
      (v + BitVec.ofNat 64 n)).wrote iss)

/-- R335, whole: SYS_DELEGATE with EN = 1 makes its ASID the delegated address space of MB1; after EN = 0 MB1 may issue only
SYS_NOP, SYS_INFO and TEL_READ; a command that MB1 has already accepted keeps the delegation of its doorbell. -/
def Obligations.Delegation : Prop :=
  (∀ s mb, Ready s mb 3 [(8, 2), (10, 1)] → (argOf s mb 10 1 = 0 ∨ argOf s mb 10 1 = 1) →
    exec (.sysDelegate mb) s = .next (answer { s with cp := { s.cp with deleg := if argOf s mb 10 1 = 1 then some (argOf s mb 8 2) else none } } mb 0)) ∧
  (∀ (s : State) op, (s.mbox 1).deleg = none → s.mayRun 1 op = true → op = 1 ∨ op = 2 ∨ op = 0x601) ∧
  (∀ (s : State), s.mayRun 1 1 = true ∧ s.mayRun 1 2 = true ∧ s.mayRun 1 0x601 = true) ∧
  (∀ (s : State) m, s.fld .cpStatus 0 0 0 2 = 1 → s.fld .secStatus 0 0 0 1 = 0 → s.inReset .warm = false → bit (BitVec.ofNat 64 m.ctrl) 14 = false → m.res = none →
    ((s.mbIssue 1 m).mbox 1).deleg = m.deleg) ∧
  (∀ s mb, Ready s mb 3 [(8, 2), (10, 1)] → mb ≠ 1 → argOf s mb 10 1 ≤ 1 → Runs (.sysDelegate mb) s (fun t => (t.mbox 1).deleg = (s.mbox 1).deleg)) ∧
  (∀ (s : State) iss v, s.reach iss (regAddr .mbDoorbell 1 0) = .ok → bit v 0 = true → s.fld .mbStatus 1 0 24 1 = 0 → exec (.mbDoorbell iss 1 8 v) s =
    .next ((s.mbIssue 1 { cmd := s.cmdArea 1, ctrl := (s.reg .mbCtrl 1 0).toNat, deleg := s.cp.deleg }).wrote iss))

/-- R370, whole: a die junction at 110 °C or an HBM stack at 105 °C posts EV_PWR_THERMAL with kind 1 and then powers the module
down in order; after that power-down neither the supply's return nor a boot step starts it again, the reset input or a
removal of the input and POWER_UP do. Temperatures are in hundredths of a degree. -/
def Obligations.ThermalShutdown : Prop :=
  (∀ (s : State) id, id ≤ 14 → s.sensorThere id = true → s.running = true → s.cp.sensors.has id = true → 11000 ≤ (s.sensor id).toInt →
    exec (.thermalShutdown id) s = .next ((s.post evPwrThermal 13 [(2, id), (4, (s.sensor id).toNat), (1, 1)]).powerDown false 2)) ∧
  (∀ (s : State) id, 0x10 ≤ id → id ≤ 0x17 → s.running = true → s.cp.sensors.has id = true → 10500 ≤ (s.sensor id).toInt →
    exec (.thermalShutdown id) s = .next ((s.post evPwrThermal 13 [(2, id), (4, (s.sensor id).toNat), (1, 1)]).powerDown false 2)) ∧
  (∀ (s : State) cause, (s.powerDown false cause).pwr.phase = .down false) ∧
  (∀ (s : State) mv ok r, s.pwr.phase = .down false → exec (.powerDownResume mv) s = .next s ∧ exec (.bootStep ok) s = .next s ∧
    (mv ≤ 65000 → exec (.powerUp mv r) s = .next s)) ∧
  (∀ (s : State), s.pwr.phase = .down false → Runs .resetNAssert s (fun t => t.pwr.phase = .held)) ∧
  (∀ (s : State) mv, s.pwr.phase = .down false → mv < 28000 → Runs (.inputCollapse mv) s (fun t => t.pwr.phase = .off)) ∧
  (∀ (s : State) mv r, (s.pwr.phase = .held ∨ s.pwr.phase = .off) → 40000 ≤ mv → mv ≤ 65000 → Runs (.powerUp mv r) s (fun t => t.pwr.phase = .boot 1))

namespace Sys2Proof

/- Reset, memory's form, and the words of instructions. -/

end Sys2Proof

/-- The module after a module cold reset with power present (R4, R19, R42, R44, R368): every processor core is at level M with
IE clear, no flag, p1 to p7 zero and no reservation, and is held until the boot sequence frees it; the registers with a
reset value have it, and nothing waits, is open or is posted. -/
def Obligations.ResetState : Prop :=
  (∀ n, bits (State.reset.core n).state 0 2 = 2 ∧ bits (State.reset.core n).state 2 1 = 0 ∧ (State.reset.core n).thr.fpc = 0 ∧
    (State.reset.core n).thr.resv = none ∧ (∀ i, 0 < i → i < 8 → (State.reset.core n).thr.getP i = false) ∧ (State.reset.core n).held = true) ∧
  (∀ k i j, State.reset.reg k i j = regReset k i j) ∧
  State.reset.pwr.phase = .boot 1 ∧ State.reset.fld .cpStatus 0 0 0 1 = 0 ∧ State.reset.memOk = false ∧ State.reset.fld .fabTimeStatus 0 0 0 2 = 0 ∧
  State.reset.fld .pwrLimits 0 0 0 8 = 20 ∧ State.reset.fld .pwrStatus 0 0 3 1 = 1 ∧
  State.reset.pending = [] ∧ State.reset.mem = [] ∧ State.reset.net = [] ∧ State.reset.queues = [] ∧ State.reset.cp.ring3 = []

/-- The canonical form of memory at reset, and what a byte that nothing has written reads as (the model's choice, log 3). -/
def Obligations.MemoryFormAtReset : Prop := MemInv State.reset ∧ ∀ a, Memory.read State.reset.mem a = 0

/-- The canonical form of memory, which every step keeps: addresses strictly rising, and no byte listed that reads as a byte
that nothing has written does. -/
def Obligations.MemoryFormKept : Prop := ∀ (s t : State), MemInv s → step s = .next t → MemInv t

/-- Words of the manual's encodings (R22, R25, R28, R31, R40, R62, R102), written out field by field: ADD, LD with its scaled
offset, LI with a WIDE prefix, BR, LLD of the MEMX form, XL.R, MMA. -/
def Obligations.WordsDecode : Prop :=
  (∀ rd a b, rd < 64 → a < 64 → b < 64 → decodeI ⟨none, BitVec.ofNat 32 (0x01 * 2 ^ 26 + rd * 2 ^ 20 + a * 2 ^ 14 + b * 2 ^ 8)⟩ = ⟨0, false, 4, some (.alu 0 rd a b)⟩) ∧
  (∀ rd a o, rd < 64 → a < 64 → o < 512 → decodeI ⟨none, BitVec.ofNat 32 (0x10 * 2 ^ 26 + rd * 2 ^ 20 + a * 2 ^ 14 + 3 * 2 ^ 12 + o)⟩ =
    ⟨0, false, 4, some (.load false false 3 rd a (o * 8) 0 0 0)⟩) ∧
  (∀ rd p v, rd < 64 → p < 2 ^ 19 → v < 2 ^ 20 → decodeI ⟨some (BitVec.ofNat 32 (0x3F * 2 ^ 26 + p)), BitVec.ofNat 32 (0x07 * 2 ^ 26 + rd * 2 ^ 20 + v)⟩ =
    ⟨0, false, 8, some (.li rd (p * 2 ^ 20 + v))⟩) ∧
  (∀ p o, p < 8 → o < 2 ^ 21 → decodeI ⟨none, BitVec.ofNat 32 (0x20 * 2 ^ 26 + p * 2 ^ 23 + 2 ^ 22 + (2 ^ 22 - 1 - o))⟩ = ⟨0, false, 4, some (.br p true (-o - 1))⟩) ∧
  (∀ rd a, rd < 64 → a < 64 → decodeI ⟨some (BitVec.ofNat 32 (0x3F * 2 ^ 26 + 2 * 2 ^ 20 + 5)), BitVec.ofNat 32 (0x19 * 2 ^ 26 + rd * 2 ^ 20 + a * 2 ^ 14)⟩ =
    ⟨0, false, 8, some (.ll rd a 5 0 0 0)⟩) ∧
  (∀ g rd a b, g < 8 → rd < 64 → a < 64 → b < 64 → decodeI ⟨some (BitVec.ofNat 32 (0x3F * 2 ^ 26 + g * 2 ^ 23 + 1 * 2 ^ 20)), BitVec.ofNat 32 (0x3A * 2 ^ 26 + rd * 2 ^ 20 + a * 2 ^ 14 + b * 2 ^ 8)⟩ =
    ⟨g, false, 8, some (.xl 0 false 0 0 0 rd a b)⟩) ∧
  (∀ fmt rd a, fmt < 16 → rd < 64 → a < 64 → decodeI ⟨some (BitVec.ofNat 32 (0x3F * 2 ^ 26 + 1 * 2 ^ 20 + 0x41 * 2 ^ 12 + fmt * 2 ^ 7)), BitVec.ofNat 32 (0x3A * 2 ^ 26 + rd * 2 ^ 20 + a * 2 ^ 14)⟩ =
    ⟨0, false, 8, some (.mma false 0 fmt false rd a)⟩)

/-- Decoding drops no bit of an instruction: two instructions, without a prefix or with prefixes of one class, whose words
decode to the same operation under the same guard are the same words (R21 to R27: every field is read, or checked to be
zero). -/
def Obligations.WordsKeepEveryBit : Prop :=
  ∀ (v w : IWord), iwordWf v = true → iwordWf w = true → (v.pre.map (fun p => fieldOf p 20 2)) = (w.pre.map (fun p => fieldOf p 20 2)) →
    (decodeI v).op ≠ none → decodeI v = decodeI w → v = w
end

