-- ==== Sys2Proof/Laws/Maps.lean ====
section
/-! SUPPORT. Laws of the sparse maps, of bit fields and of the memory arrays. -/

namespace Sys2Proof.Machine

/- Sparse maps. -/

@[simp] theorem nmap_find_nil {α : Type} (k : Nat) : NMap.find? ([] : NMap α) k = none := rfl

@[simp] theorem nmap_find_set {α : Type} (m : NMap α) (k j : Nat) (v : α) :
    NMap.find? (NMap.set m k v) j = if j = k then some v else NMap.find? m j := by
  induction m with
  | nil => simp [NMap.set, NMap.find?, eq_comm]
  | cons e r ih =>
    obtain ⟨a, b⟩ := e
    simp only [NMap.set]
    split
    · simp only [NMap.find?]; grind
    · split
      · simp only [NMap.find?]; grind
      · simp only [NMap.find?, ih]; grind

@[simp] theorem nmap_get_set {α : Type} (m : NMap α) (d v : α) (k j : Nat) :
    NMap.get (NMap.set m k v) d j = if j = k then v else NMap.get m d j := by
  unfold NMap.get; rw [nmap_find_set]; split <;> rfl

@[simp] theorem nmap_get_nil {α : Type} (d : α) (k : Nat) : NMap.get ([] : NMap α) d k = d := rfl

theorem nmap_set_set {α : Type} (m : NMap α) (k : Nat) (v w : α) : NMap.set (NMap.set m k v) k w = NMap.set m k w := by
  induction m with
  | nil => simp [NMap.set]
  | cons e r ih =>
    obtain ⟨a, b⟩ := e
    simp only [NMap.set]
    split
    · simp [NMap.set]
    · split
      · simp [NMap.set]
      · rename_i h1 h2
        simp [NMap.set, h1, h2, ih]

@[simp] theorem nmap_find_del {α : Type} (m : NMap α) (k j : Nat) :
    NMap.find? (NMap.del m k) j = if j = k then none else NMap.find? m j := by
  induction m with
  | nil => simp [NMap.del, NMap.find?]
  | cons e r ih =>
    obtain ⟨a, b⟩ := e
    simp only [NMap.del, List.filter_cons] at ih ⊢
    split <;> simp only [NMap.find?] <;> grind

@[simp] theorem nmap_get_del {α : Type} (m : NMap α) (d : α) (k j : Nat) :
    NMap.get (NMap.del m k) d j = if j = k then d else NMap.get m d j := by
  unfold NMap.get; rw [nmap_find_del]; split <;> rfl

@[simp] theorem nmap_has_set {α : Type} (m : NMap α) (k j : Nat) (v : α) :
    NMap.has (NMap.set m k v) j = (decide (j = k) || NMap.has m j) := by
  unfold NMap.has; rw [nmap_find_set]; split <;> simp_all

@[simp] theorem nmap_get_upd {α : Type} (m : NMap α) (d : α) (k j : Nat) (f : α → α) :
    NMap.get (NMap.upd m d k f) d j = if j = k then f (NMap.get m d k) else NMap.get m d j := by
  simp [NMap.upd]

/- Bit fields. -/

/-- A field reads back what was written to it. -/
theorem bits_setBits (w : Word) (lo n v : Nat) (h : lo + n ≤ 64) : bits (setBits w lo n v) lo n = v % 2 ^ n := by
  apply Nat.eq_of_testBit_eq
  intro i
  simp only [bits, setBits, Nat.testBit_mod_two_pow, Nat.testBit_shiftRight, BitVec.testBit_toNat, BitVec.getLsbD_or,
    BitVec.getLsbD_and, BitVec.getLsbD_not, BitVec.getLsbD_ofNat, Nat.testBit_shiftLeft, Nat.testBit_two_pow_sub_one]
  by_cases hi : i < n
  · have h1 : lo + i < 64 := by omega
    have h2 : lo + i - lo = i := by omega
    simp [hi, h1, h2]
  · simp [hi]

/-- A write to one field leaves another that does not overlap it. -/
theorem bits_setBits_other (w : Word) (lo n v lo2 n2 : Nat) (h : lo2 + n2 ≤ lo ∨ lo + n ≤ lo2) :
    bits (setBits w lo n v) lo2 n2 = bits w lo2 n2 := by
  apply Nat.eq_of_testBit_eq
  intro i
  simp only [bits, setBits, Nat.testBit_mod_two_pow, Nat.testBit_shiftRight, BitVec.testBit_toNat, BitVec.getLsbD_or,
    BitVec.getLsbD_and, BitVec.getLsbD_not, BitVec.getLsbD_ofNat, Nat.testBit_shiftLeft, Nat.testBit_two_pow_sub_one]
  by_cases hi : i < n2
  · by_cases h64 : lo2 + i < 64
    · by_cases hl : lo ≤ lo2 + i
      · have h3 : ¬ (lo2 + i - lo < n) := by omega
        simp [hi, hl, h3, h64]
      · simp [hi, hl, h64]
    · simp [hi, h64, BitVec.getLsbD_of_ge w (lo2 + i) (by omega)]
  · simp [hi]

/- The memory arrays. -/

@[simp] theorem memory_read_nil (a : Nat) : Memory.read [] a = 0 := rfl

/-- A byte reads as it was written. -/
theorem memory_read_write (m : List Host.Cell) (a b : Nat) (v : Byte) :
    Memory.read (Memory.write m a v) b = if b = a then v else Memory.read m b := by
  unfold Memory.read Memory.write
  by_cases h : v = 0
  · rw [if_pos h]; simp only [nmap_get_del]; split <;> simp_all
  · rw [if_neg h]; simp only [nmap_get_set]

end Sys2Proof.Machine
end

