-- ==== Sys2Proof/Laws/State.lean ====
section
/-! SUPPORT. Laws of the named updates of State: what each leaves alone, field by field, and what it writes reads back. -/

namespace Sys2Proof.Machine

/- What each update leaves alone. -/

@[simp] theorem State.setReg_frame (s : State) (k : RegKind) (i j : Nat) (w : Word) :
    let t := s.setReg k i j w
    t.pending = s.pending ∧ t.ctr = s.ctr ∧ t.now = s.now ∧ t.ref = s.ref ∧ t.cdClk = s.cdClk ∧ t.pdClk = s.pdClk ∧
    t.pd = s.pd ∧ t.grps = s.grps ∧ t.teams = s.teams ∧ t.cores = s.cores ∧ t.trd = s.trd ∧ t.twr = s.twr ∧
    t.engs = s.engs ∧ t.mem = s.mem ∧ t.poison = s.poison ∧ t.errs = s.errs ∧ t.ueSent = s.ueSent ∧ t.msc = s.msc ∧
    t.caches = s.caches ∧ t.dir = s.dir ∧ t.txns = s.txns ∧ t.hq = s.hq ∧ t.net = s.net ∧ t.ncOut = s.ncOut ∧
    t.held = s.held ∧ t.ops = s.ops ∧ t.sb = s.sb ∧ t.queues = s.queues ∧ t.launches = s.launches ∧ t.tlbs = s.tlbs ∧
    t.tlbi = s.tlbi ∧ t.fqs = s.fqs ∧ t.seq = s.seq ∧ t.jobs = s.jobs ∧ t.links = s.links ∧ t.aux = s.aux ∧
    t.fab = s.fab ∧ t.cgs = s.cgs ∧ t.ws = s.ws ∧ t.mbs = s.mbs ∧ t.cp = s.cp ∧ t.pwr = s.pwr ∧ t.rsts = s.rsts ∧
    t.pci = s.pci ∧ t.sec = s.sec ∧ t.pmu = s.pmu ∧ t.wq = s.wq := by
  and_intros <;> rfl

@[simp] theorem State.setFld_frame (s : State) (k : RegKind) (i j lo n v : Nat) :
    let t := s.setFld k i j lo n v
    t.pending = s.pending ∧ t.ctr = s.ctr ∧ t.now = s.now ∧ t.ref = s.ref ∧ t.cdClk = s.cdClk ∧ t.pdClk = s.pdClk ∧
    t.pd = s.pd ∧ t.grps = s.grps ∧ t.teams = s.teams ∧ t.cores = s.cores ∧ t.trd = s.trd ∧ t.twr = s.twr ∧
    t.engs = s.engs ∧ t.mem = s.mem ∧ t.poison = s.poison ∧ t.errs = s.errs ∧ t.ueSent = s.ueSent ∧ t.msc = s.msc ∧
    t.caches = s.caches ∧ t.dir = s.dir ∧ t.txns = s.txns ∧ t.hq = s.hq ∧ t.net = s.net ∧ t.ncOut = s.ncOut ∧
    t.held = s.held ∧ t.ops = s.ops ∧ t.sb = s.sb ∧ t.queues = s.queues ∧ t.launches = s.launches ∧ t.tlbs = s.tlbs ∧
    t.tlbi = s.tlbi ∧ t.fqs = s.fqs ∧ t.seq = s.seq ∧ t.jobs = s.jobs ∧ t.links = s.links ∧ t.aux = s.aux ∧
    t.fab = s.fab ∧ t.cgs = s.cgs ∧ t.ws = s.ws ∧ t.mbs = s.mbs ∧ t.cp = s.cp ∧ t.pwr = s.pwr ∧ t.rsts = s.rsts ∧
    t.pci = s.pci ∧ t.sec = s.sec ∧ t.pmu = s.pmu ∧ t.wq = s.wq := by
  and_intros <;> rfl

@[simp] theorem State.incFld_frame (s : State) (k : RegKind) (i j lo n b : Nat) :
    let t := s.incFld k i j lo n b
    t.pending = s.pending ∧ t.ctr = s.ctr ∧ t.now = s.now ∧ t.ref = s.ref ∧ t.cdClk = s.cdClk ∧ t.pdClk = s.pdClk ∧
    t.pd = s.pd ∧ t.grps = s.grps ∧ t.teams = s.teams ∧ t.cores = s.cores ∧ t.trd = s.trd ∧ t.twr = s.twr ∧
    t.engs = s.engs ∧ t.mem = s.mem ∧ t.poison = s.poison ∧ t.errs = s.errs ∧ t.ueSent = s.ueSent ∧ t.msc = s.msc ∧
    t.caches = s.caches ∧ t.dir = s.dir ∧ t.txns = s.txns ∧ t.hq = s.hq ∧ t.net = s.net ∧ t.ncOut = s.ncOut ∧
    t.held = s.held ∧ t.ops = s.ops ∧ t.sb = s.sb ∧ t.queues = s.queues ∧ t.launches = s.launches ∧ t.tlbs = s.tlbs ∧
    t.tlbi = s.tlbi ∧ t.fqs = s.fqs ∧ t.seq = s.seq ∧ t.jobs = s.jobs ∧ t.links = s.links ∧ t.aux = s.aux ∧
    t.fab = s.fab ∧ t.cgs = s.cgs ∧ t.ws = s.ws ∧ t.mbs = s.mbs ∧ t.cp = s.cp ∧ t.pwr = s.pwr ∧ t.rsts = s.rsts ∧
    t.pci = s.pci ∧ t.sec = s.sec ∧ t.pmu = s.pmu ∧ t.wq = s.wq := by
  and_intros <;> rfl

@[simp] theorem State.addFld_frame (s : State) (k : RegKind) (i j lo n b : Nat) :
    let t := s.addFld k i j lo n b
    t.pending = s.pending ∧ t.ctr = s.ctr ∧ t.now = s.now ∧ t.ref = s.ref ∧ t.cdClk = s.cdClk ∧ t.pdClk = s.pdClk ∧
    t.pd = s.pd ∧ t.grps = s.grps ∧ t.teams = s.teams ∧ t.cores = s.cores ∧ t.trd = s.trd ∧ t.twr = s.twr ∧
    t.engs = s.engs ∧ t.mem = s.mem ∧ t.poison = s.poison ∧ t.errs = s.errs ∧ t.ueSent = s.ueSent ∧ t.msc = s.msc ∧
    t.caches = s.caches ∧ t.dir = s.dir ∧ t.txns = s.txns ∧ t.hq = s.hq ∧ t.net = s.net ∧ t.ncOut = s.ncOut ∧
    t.held = s.held ∧ t.ops = s.ops ∧ t.sb = s.sb ∧ t.queues = s.queues ∧ t.launches = s.launches ∧ t.tlbs = s.tlbs ∧
    t.tlbi = s.tlbi ∧ t.fqs = s.fqs ∧ t.seq = s.seq ∧ t.jobs = s.jobs ∧ t.links = s.links ∧ t.aux = s.aux ∧
    t.fab = s.fab ∧ t.cgs = s.cgs ∧ t.ws = s.ws ∧ t.mbs = s.mbs ∧ t.cp = s.cp ∧ t.pwr = s.pwr ∧ t.rsts = s.rsts ∧
    t.pci = s.pci ∧ t.sec = s.sec ∧ t.pmu = s.pmu ∧ t.wq = s.wq := by
  and_intros <;> rfl

@[simp] theorem State.setCore_frame (s : State) (n : Nat) (c : PCore) :
    let t := s.setCore n c
    t.pending = s.pending ∧ t.ctr = s.ctr ∧ t.now = s.now ∧ t.ref = s.ref ∧ t.cdClk = s.cdClk ∧ t.pdClk = s.pdClk ∧
    t.regs = s.regs ∧ t.grps = s.grps ∧ t.teams = s.teams ∧ t.cores = s.cores ∧ t.trd = s.trd ∧ t.twr = s.twr ∧
    t.engs = s.engs ∧ t.mem = s.mem ∧ t.poison = s.poison ∧ t.errs = s.errs ∧ t.ueSent = s.ueSent ∧ t.msc = s.msc ∧
    t.caches = s.caches ∧ t.dir = s.dir ∧ t.txns = s.txns ∧ t.hq = s.hq ∧ t.net = s.net ∧ t.ncOut = s.ncOut ∧
    t.held = s.held ∧ t.ops = s.ops ∧ t.sb = s.sb ∧ t.queues = s.queues ∧ t.launches = s.launches ∧ t.tlbs = s.tlbs ∧
    t.tlbi = s.tlbi ∧ t.fqs = s.fqs ∧ t.seq = s.seq ∧ t.jobs = s.jobs ∧ t.links = s.links ∧ t.aux = s.aux ∧
    t.fab = s.fab ∧ t.cgs = s.cgs ∧ t.ws = s.ws ∧ t.mbs = s.mbs ∧ t.cp = s.cp ∧ t.pwr = s.pwr ∧ t.rsts = s.rsts ∧
    t.pci = s.pci ∧ t.sec = s.sec ∧ t.pmu = s.pmu ∧ t.wq = s.wq := by
  and_intros <;> rfl

@[simp] theorem State.setCoreS_frame (s : State) (c : Nat) (k : CoreS) :
    let t := s.setCoreS c k
    t.pending = s.pending ∧ t.ctr = s.ctr ∧ t.now = s.now ∧ t.ref = s.ref ∧ t.cdClk = s.cdClk ∧ t.pdClk = s.pdClk ∧
    t.regs = s.regs ∧ t.pd = s.pd ∧ t.grps = s.grps ∧ t.teams = s.teams ∧ t.trd = s.trd ∧ t.twr = s.twr ∧
    t.engs = s.engs ∧ t.mem = s.mem ∧ t.poison = s.poison ∧ t.errs = s.errs ∧ t.ueSent = s.ueSent ∧ t.msc = s.msc ∧
    t.caches = s.caches ∧ t.dir = s.dir ∧ t.txns = s.txns ∧ t.hq = s.hq ∧ t.net = s.net ∧ t.ncOut = s.ncOut ∧
    t.held = s.held ∧ t.ops = s.ops ∧ t.sb = s.sb ∧ t.queues = s.queues ∧ t.launches = s.launches ∧ t.tlbs = s.tlbs ∧
    t.tlbi = s.tlbi ∧ t.fqs = s.fqs ∧ t.seq = s.seq ∧ t.jobs = s.jobs ∧ t.links = s.links ∧ t.aux = s.aux ∧
    t.fab = s.fab ∧ t.cgs = s.cgs ∧ t.ws = s.ws ∧ t.mbs = s.mbs ∧ t.cp = s.cp ∧ t.pwr = s.pwr ∧ t.rsts = s.rsts ∧
    t.pci = s.pci ∧ t.sec = s.sec ∧ t.pmu = s.pmu ∧ t.wq = s.wq := by
  and_intros <;> rfl

@[simp] theorem State.setChan_frame (s : State) (c ch : Nat) (x : Chan) :
    let t := s.setChan c ch x
    t.pending = s.pending ∧ t.ctr = s.ctr ∧ t.now = s.now ∧ t.ref = s.ref ∧ t.cdClk = s.cdClk ∧ t.pdClk = s.pdClk ∧
    t.regs = s.regs ∧ t.pd = s.pd ∧ t.grps = s.grps ∧ t.teams = s.teams ∧ t.trd = s.trd ∧ t.twr = s.twr ∧
    t.engs = s.engs ∧ t.mem = s.mem ∧ t.poison = s.poison ∧ t.errs = s.errs ∧ t.ueSent = s.ueSent ∧ t.msc = s.msc ∧
    t.caches = s.caches ∧ t.dir = s.dir ∧ t.txns = s.txns ∧ t.hq = s.hq ∧ t.net = s.net ∧ t.ncOut = s.ncOut ∧
    t.held = s.held ∧ t.ops = s.ops ∧ t.sb = s.sb ∧ t.queues = s.queues ∧ t.launches = s.launches ∧ t.tlbs = s.tlbs ∧
    t.tlbi = s.tlbi ∧ t.fqs = s.fqs ∧ t.seq = s.seq ∧ t.jobs = s.jobs ∧ t.links = s.links ∧ t.aux = s.aux ∧
    t.fab = s.fab ∧ t.cgs = s.cgs ∧ t.ws = s.ws ∧ t.mbs = s.mbs ∧ t.cp = s.cp ∧ t.pwr = s.pwr ∧ t.rsts = s.rsts ∧
    t.pci = s.pci ∧ t.sec = s.sec ∧ t.pmu = s.pmu ∧ t.wq = s.wq := by
  and_intros <;> rfl

@[simp] theorem State.setSlot_frame (s : State) (c i : Nat) (x : TSlot) :
    let t := s.setSlot c i x
    t.pending = s.pending ∧ t.ctr = s.ctr ∧ t.now = s.now ∧ t.ref = s.ref ∧ t.cdClk = s.cdClk ∧ t.pdClk = s.pdClk ∧
    t.regs = s.regs ∧ t.pd = s.pd ∧ t.grps = s.grps ∧ t.teams = s.teams ∧ t.trd = s.trd ∧ t.twr = s.twr ∧
    t.engs = s.engs ∧ t.mem = s.mem ∧ t.poison = s.poison ∧ t.errs = s.errs ∧ t.ueSent = s.ueSent ∧ t.msc = s.msc ∧
    t.caches = s.caches ∧ t.dir = s.dir ∧ t.txns = s.txns ∧ t.hq = s.hq ∧ t.net = s.net ∧ t.ncOut = s.ncOut ∧
    t.held = s.held ∧ t.ops = s.ops ∧ t.sb = s.sb ∧ t.queues = s.queues ∧ t.launches = s.launches ∧ t.tlbs = s.tlbs ∧
    t.tlbi = s.tlbi ∧ t.fqs = s.fqs ∧ t.seq = s.seq ∧ t.jobs = s.jobs ∧ t.links = s.links ∧ t.aux = s.aux ∧
    t.fab = s.fab ∧ t.cgs = s.cgs ∧ t.ws = s.ws ∧ t.mbs = s.mbs ∧ t.cp = s.cp ∧ t.pwr = s.pwr ∧ t.rsts = s.rsts ∧
    t.pci = s.pci ∧ t.sec = s.sec ∧ t.pmu = s.pmu ∧ t.wq = s.wq := by
  and_intros <;> rfl

@[simp] theorem State.setEng_frame (s : State) (e : Nat) (x : Engine) :
    let t := s.setEng e x
    t.pending = s.pending ∧ t.ctr = s.ctr ∧ t.now = s.now ∧ t.ref = s.ref ∧ t.cdClk = s.cdClk ∧ t.pdClk = s.pdClk ∧
    t.regs = s.regs ∧ t.pd = s.pd ∧ t.grps = s.grps ∧ t.teams = s.teams ∧ t.cores = s.cores ∧ t.trd = s.trd ∧
    t.twr = s.twr ∧ t.mem = s.mem ∧ t.poison = s.poison ∧ t.errs = s.errs ∧ t.ueSent = s.ueSent ∧ t.msc = s.msc ∧
    t.caches = s.caches ∧ t.dir = s.dir ∧ t.txns = s.txns ∧ t.hq = s.hq ∧ t.net = s.net ∧ t.ncOut = s.ncOut ∧
    t.held = s.held ∧ t.ops = s.ops ∧ t.sb = s.sb ∧ t.queues = s.queues ∧ t.launches = s.launches ∧ t.tlbs = s.tlbs ∧
    t.tlbi = s.tlbi ∧ t.fqs = s.fqs ∧ t.seq = s.seq ∧ t.jobs = s.jobs ∧ t.links = s.links ∧ t.aux = s.aux ∧
    t.fab = s.fab ∧ t.cgs = s.cgs ∧ t.ws = s.ws ∧ t.mbs = s.mbs ∧ t.cp = s.cp ∧ t.pwr = s.pwr ∧ t.rsts = s.rsts ∧
    t.pci = s.pci ∧ t.sec = s.sec ∧ t.pmu = s.pmu ∧ t.wq = s.wq := by
  and_intros <;> rfl

@[simp] theorem State.setGrp_frame (s : State) (c slot : Nat) (g : Group) :
    let t := s.setGrp c slot g
    t.pending = s.pending ∧ t.ctr = s.ctr ∧ t.now = s.now ∧ t.ref = s.ref ∧ t.cdClk = s.cdClk ∧ t.pdClk = s.pdClk ∧
    t.regs = s.regs ∧ t.pd = s.pd ∧ t.teams = s.teams ∧ t.cores = s.cores ∧ t.trd = s.trd ∧ t.twr = s.twr ∧
    t.engs = s.engs ∧ t.mem = s.mem ∧ t.poison = s.poison ∧ t.errs = s.errs ∧ t.ueSent = s.ueSent ∧ t.msc = s.msc ∧
    t.caches = s.caches ∧ t.dir = s.dir ∧ t.txns = s.txns ∧ t.hq = s.hq ∧ t.net = s.net ∧ t.ncOut = s.ncOut ∧
    t.held = s.held ∧ t.ops = s.ops ∧ t.sb = s.sb ∧ t.queues = s.queues ∧ t.launches = s.launches ∧ t.tlbs = s.tlbs ∧
    t.tlbi = s.tlbi ∧ t.fqs = s.fqs ∧ t.seq = s.seq ∧ t.jobs = s.jobs ∧ t.links = s.links ∧ t.aux = s.aux ∧
    t.fab = s.fab ∧ t.cgs = s.cgs ∧ t.ws = s.ws ∧ t.mbs = s.mbs ∧ t.cp = s.cp ∧ t.pwr = s.pwr ∧ t.rsts = s.rsts ∧
    t.pci = s.pci ∧ t.sec = s.sec ∧ t.pmu = s.pmu ∧ t.wq = s.wq := by
  and_intros <;> rfl

@[simp] theorem State.setFq_frame (s : State) (d : Nat) (f : FqS) :
    let t := s.setFq d f
    t.pending = s.pending ∧ t.ctr = s.ctr ∧ t.now = s.now ∧ t.ref = s.ref ∧ t.cdClk = s.cdClk ∧ t.pdClk = s.pdClk ∧
    t.regs = s.regs ∧ t.pd = s.pd ∧ t.grps = s.grps ∧ t.teams = s.teams ∧ t.cores = s.cores ∧ t.trd = s.trd ∧
    t.twr = s.twr ∧ t.engs = s.engs ∧ t.mem = s.mem ∧ t.poison = s.poison ∧ t.errs = s.errs ∧ t.ueSent = s.ueSent ∧
    t.msc = s.msc ∧ t.caches = s.caches ∧ t.dir = s.dir ∧ t.txns = s.txns ∧ t.hq = s.hq ∧ t.net = s.net ∧
    t.ncOut = s.ncOut ∧ t.held = s.held ∧ t.ops = s.ops ∧ t.sb = s.sb ∧ t.queues = s.queues ∧
    t.launches = s.launches ∧ t.tlbs = s.tlbs ∧ t.tlbi = s.tlbi ∧ t.seq = s.seq ∧ t.jobs = s.jobs ∧
    t.links = s.links ∧ t.aux = s.aux ∧ t.fab = s.fab ∧ t.cgs = s.cgs ∧ t.ws = s.ws ∧ t.mbs = s.mbs ∧ t.cp = s.cp ∧
    t.pwr = s.pwr ∧ t.rsts = s.rsts ∧ t.pci = s.pci ∧ t.sec = s.sec ∧ t.pmu = s.pmu ∧ t.wq = s.wq := by
  and_intros <;> rfl

@[simp] theorem State.setLaunch_frame (s : State) (lid : Nat) (l : Launch) :
    let t := s.setLaunch lid l
    t.pending = s.pending ∧ t.ctr = s.ctr ∧ t.now = s.now ∧ t.ref = s.ref ∧ t.cdClk = s.cdClk ∧ t.pdClk = s.pdClk ∧
    t.regs = s.regs ∧ t.pd = s.pd ∧ t.grps = s.grps ∧ t.teams = s.teams ∧ t.cores = s.cores ∧ t.trd = s.trd ∧
    t.twr = s.twr ∧ t.engs = s.engs ∧ t.mem = s.mem ∧ t.poison = s.poison ∧ t.errs = s.errs ∧ t.ueSent = s.ueSent ∧
    t.msc = s.msc ∧ t.caches = s.caches ∧ t.dir = s.dir ∧ t.txns = s.txns ∧ t.hq = s.hq ∧ t.net = s.net ∧
    t.ncOut = s.ncOut ∧ t.held = s.held ∧ t.ops = s.ops ∧ t.sb = s.sb ∧ t.queues = s.queues ∧ t.tlbs = s.tlbs ∧
    t.tlbi = s.tlbi ∧ t.fqs = s.fqs ∧ t.seq = s.seq ∧ t.jobs = s.jobs ∧ t.links = s.links ∧ t.aux = s.aux ∧
    t.fab = s.fab ∧ t.cgs = s.cgs ∧ t.ws = s.ws ∧ t.mbs = s.mbs ∧ t.cp = s.cp ∧ t.pwr = s.pwr ∧ t.rsts = s.rsts ∧
    t.pci = s.pci ∧ t.sec = s.sec ∧ t.pmu = s.pmu ∧ t.wq = s.wq := by
  and_intros <;> rfl

@[simp] theorem State.setQueue_frame (s : State) (q : Nat) (x : Queue) :
    let t := s.setQueue q x
    t.pending = s.pending ∧ t.ctr = s.ctr ∧ t.now = s.now ∧ t.ref = s.ref ∧ t.cdClk = s.cdClk ∧ t.pdClk = s.pdClk ∧
    t.regs = s.regs ∧ t.pd = s.pd ∧ t.grps = s.grps ∧ t.teams = s.teams ∧ t.cores = s.cores ∧ t.trd = s.trd ∧
    t.twr = s.twr ∧ t.engs = s.engs ∧ t.mem = s.mem ∧ t.poison = s.poison ∧ t.errs = s.errs ∧ t.ueSent = s.ueSent ∧
    t.msc = s.msc ∧ t.caches = s.caches ∧ t.dir = s.dir ∧ t.txns = s.txns ∧ t.hq = s.hq ∧ t.net = s.net ∧
    t.ncOut = s.ncOut ∧ t.held = s.held ∧ t.ops = s.ops ∧ t.sb = s.sb ∧ t.launches = s.launches ∧ t.tlbs = s.tlbs ∧
    t.tlbi = s.tlbi ∧ t.fqs = s.fqs ∧ t.seq = s.seq ∧ t.jobs = s.jobs ∧ t.links = s.links ∧ t.aux = s.aux ∧
    t.fab = s.fab ∧ t.cgs = s.cgs ∧ t.ws = s.ws ∧ t.mbs = s.mbs ∧ t.cp = s.cp ∧ t.pwr = s.pwr ∧ t.rsts = s.rsts ∧
    t.pci = s.pci ∧ t.sec = s.sec ∧ t.pmu = s.pmu ∧ t.wq = s.wq := by
  and_intros <;> rfl

@[simp] theorem State.setMbox_frame (s : State) (mb : Nat) (m : Mbx) :
    let t := s.setMbox mb m
    t.pending = s.pending ∧ t.ctr = s.ctr ∧ t.now = s.now ∧ t.ref = s.ref ∧ t.cdClk = s.cdClk ∧ t.pdClk = s.pdClk ∧
    t.regs = s.regs ∧ t.pd = s.pd ∧ t.grps = s.grps ∧ t.teams = s.teams ∧ t.cores = s.cores ∧ t.trd = s.trd ∧
    t.twr = s.twr ∧ t.engs = s.engs ∧ t.mem = s.mem ∧ t.poison = s.poison ∧ t.errs = s.errs ∧ t.ueSent = s.ueSent ∧
    t.msc = s.msc ∧ t.caches = s.caches ∧ t.dir = s.dir ∧ t.txns = s.txns ∧ t.hq = s.hq ∧ t.net = s.net ∧
    t.ncOut = s.ncOut ∧ t.held = s.held ∧ t.ops = s.ops ∧ t.sb = s.sb ∧ t.queues = s.queues ∧
    t.launches = s.launches ∧ t.tlbs = s.tlbs ∧ t.tlbi = s.tlbi ∧ t.fqs = s.fqs ∧ t.seq = s.seq ∧ t.jobs = s.jobs ∧
    t.links = s.links ∧ t.aux = s.aux ∧ t.fab = s.fab ∧ t.cgs = s.cgs ∧ t.ws = s.ws ∧ t.cp = s.cp ∧ t.pwr = s.pwr ∧
    t.rsts = s.rsts ∧ t.pci = s.pci ∧ t.sec = s.sec ∧ t.pmu = s.pmu ∧ t.wq = s.wq := by
  and_intros <;> rfl

@[simp] theorem State.setPort_frame (s : State) (p : Nat) (x : ColPort) :
    let t := s.setPort p x
    t.pending = s.pending ∧ t.ctr = s.ctr ∧ t.now = s.now ∧ t.ref = s.ref ∧ t.cdClk = s.cdClk ∧ t.pdClk = s.pdClk ∧
    t.regs = s.regs ∧ t.pd = s.pd ∧ t.grps = s.grps ∧ t.teams = s.teams ∧ t.cores = s.cores ∧ t.trd = s.trd ∧
    t.twr = s.twr ∧ t.engs = s.engs ∧ t.mem = s.mem ∧ t.poison = s.poison ∧ t.errs = s.errs ∧ t.ueSent = s.ueSent ∧
    t.msc = s.msc ∧ t.caches = s.caches ∧ t.dir = s.dir ∧ t.txns = s.txns ∧ t.hq = s.hq ∧ t.net = s.net ∧
    t.ncOut = s.ncOut ∧ t.held = s.held ∧ t.ops = s.ops ∧ t.sb = s.sb ∧ t.queues = s.queues ∧
    t.launches = s.launches ∧ t.tlbs = s.tlbs ∧ t.tlbi = s.tlbi ∧ t.fqs = s.fqs ∧ t.seq = s.seq ∧ t.jobs = s.jobs ∧
    t.links = s.links ∧ t.aux = s.aux ∧ t.cgs = s.cgs ∧ t.ws = s.ws ∧ t.mbs = s.mbs ∧ t.cp = s.cp ∧ t.pwr = s.pwr ∧
    t.rsts = s.rsts ∧ t.pci = s.pci ∧ t.sec = s.sec ∧ t.pmu = s.pmu ∧ t.wq = s.wq := by
  and_intros <;> rfl

@[simp] theorem State.setLink_frame (s : State) (e : Nat) (l : LinkS) :
    let t := s.setLink e l
    t.pending = s.pending ∧ t.ctr = s.ctr ∧ t.now = s.now ∧ t.ref = s.ref ∧ t.cdClk = s.cdClk ∧ t.pdClk = s.pdClk ∧
    t.regs = s.regs ∧ t.pd = s.pd ∧ t.grps = s.grps ∧ t.teams = s.teams ∧ t.cores = s.cores ∧ t.trd = s.trd ∧
    t.twr = s.twr ∧ t.engs = s.engs ∧ t.mem = s.mem ∧ t.poison = s.poison ∧ t.errs = s.errs ∧ t.ueSent = s.ueSent ∧
    t.msc = s.msc ∧ t.caches = s.caches ∧ t.dir = s.dir ∧ t.txns = s.txns ∧ t.hq = s.hq ∧ t.net = s.net ∧
    t.ncOut = s.ncOut ∧ t.held = s.held ∧ t.ops = s.ops ∧ t.sb = s.sb ∧ t.queues = s.queues ∧
    t.launches = s.launches ∧ t.tlbs = s.tlbs ∧ t.tlbi = s.tlbi ∧ t.fqs = s.fqs ∧ t.seq = s.seq ∧ t.jobs = s.jobs ∧
    t.aux = s.aux ∧ t.fab = s.fab ∧ t.cgs = s.cgs ∧ t.ws = s.ws ∧ t.mbs = s.mbs ∧ t.cp = s.cp ∧ t.pwr = s.pwr ∧
    t.rsts = s.rsts ∧ t.pci = s.pci ∧ t.sec = s.sec ∧ t.pmu = s.pmu ∧ t.wq = s.wq := by
  and_intros <;> rfl

@[simp] theorem State.setCg_frame (s : State) (n : Nat) (g : CGrp) :
    let t := s.setCg n g
    t.pending = s.pending ∧ t.ctr = s.ctr ∧ t.now = s.now ∧ t.ref = s.ref ∧ t.cdClk = s.cdClk ∧ t.pdClk = s.pdClk ∧
    t.regs = s.regs ∧ t.pd = s.pd ∧ t.grps = s.grps ∧ t.teams = s.teams ∧ t.cores = s.cores ∧ t.trd = s.trd ∧
    t.twr = s.twr ∧ t.engs = s.engs ∧ t.mem = s.mem ∧ t.poison = s.poison ∧ t.errs = s.errs ∧ t.ueSent = s.ueSent ∧
    t.msc = s.msc ∧ t.caches = s.caches ∧ t.dir = s.dir ∧ t.txns = s.txns ∧ t.hq = s.hq ∧ t.net = s.net ∧
    t.ncOut = s.ncOut ∧ t.held = s.held ∧ t.ops = s.ops ∧ t.sb = s.sb ∧ t.queues = s.queues ∧
    t.launches = s.launches ∧ t.tlbs = s.tlbs ∧ t.tlbi = s.tlbi ∧ t.fqs = s.fqs ∧ t.seq = s.seq ∧ t.jobs = s.jobs ∧
    t.links = s.links ∧ t.aux = s.aux ∧ t.fab = s.fab ∧ t.ws = s.ws ∧ t.mbs = s.mbs ∧ t.cp = s.cp ∧ t.pwr = s.pwr ∧
    t.rsts = s.rsts ∧ t.pci = s.pci ∧ t.sec = s.sec ∧ t.pmu = s.pmu ∧ t.wq = s.wq := by
  and_intros <;> rfl

@[simp] theorem State.setRec_frame (s : State) (ctx : Nat) (r : SeqRec) :
    let t := s.setRec ctx r
    t.pending = s.pending ∧ t.ctr = s.ctr ∧ t.now = s.now ∧ t.ref = s.ref ∧ t.cdClk = s.cdClk ∧ t.pdClk = s.pdClk ∧
    t.regs = s.regs ∧ t.pd = s.pd ∧ t.grps = s.grps ∧ t.teams = s.teams ∧ t.cores = s.cores ∧ t.trd = s.trd ∧
    t.twr = s.twr ∧ t.engs = s.engs ∧ t.mem = s.mem ∧ t.poison = s.poison ∧ t.errs = s.errs ∧ t.ueSent = s.ueSent ∧
    t.msc = s.msc ∧ t.caches = s.caches ∧ t.dir = s.dir ∧ t.txns = s.txns ∧ t.hq = s.hq ∧ t.net = s.net ∧
    t.ncOut = s.ncOut ∧ t.held = s.held ∧ t.ops = s.ops ∧ t.sb = s.sb ∧ t.queues = s.queues ∧
    t.launches = s.launches ∧ t.tlbs = s.tlbs ∧ t.tlbi = s.tlbi ∧ t.fqs = s.fqs ∧ t.jobs = s.jobs ∧
    t.links = s.links ∧ t.aux = s.aux ∧ t.fab = s.fab ∧ t.cgs = s.cgs ∧ t.ws = s.ws ∧ t.mbs = s.mbs ∧ t.cp = s.cp ∧
    t.pwr = s.pwr ∧ t.rsts = s.rsts ∧ t.pci = s.pci ∧ t.sec = s.sec ∧ t.pmu = s.pmu ∧ t.wq = s.wq := by
  and_intros <;> rfl

@[simp] theorem State.setPciP_frame (s : State) (n : Nat) (x : PciS) :
    let t := s.setPciP n x
    t.pending = s.pending ∧ t.ctr = s.ctr ∧ t.now = s.now ∧ t.ref = s.ref ∧ t.cdClk = s.cdClk ∧ t.pdClk = s.pdClk ∧
    t.regs = s.regs ∧ t.pd = s.pd ∧ t.grps = s.grps ∧ t.teams = s.teams ∧ t.cores = s.cores ∧ t.trd = s.trd ∧
    t.twr = s.twr ∧ t.engs = s.engs ∧ t.mem = s.mem ∧ t.poison = s.poison ∧ t.errs = s.errs ∧ t.ueSent = s.ueSent ∧
    t.msc = s.msc ∧ t.caches = s.caches ∧ t.dir = s.dir ∧ t.txns = s.txns ∧ t.hq = s.hq ∧ t.net = s.net ∧
    t.ncOut = s.ncOut ∧ t.held = s.held ∧ t.ops = s.ops ∧ t.sb = s.sb ∧ t.queues = s.queues ∧
    t.launches = s.launches ∧ t.tlbs = s.tlbs ∧ t.tlbi = s.tlbi ∧ t.fqs = s.fqs ∧ t.seq = s.seq ∧ t.jobs = s.jobs ∧
    t.links = s.links ∧ t.aux = s.aux ∧ t.fab = s.fab ∧ t.cgs = s.cgs ∧ t.ws = s.ws ∧ t.mbs = s.mbs ∧ t.cp = s.cp ∧
    t.pwr = s.pwr ∧ t.rsts = s.rsts ∧ t.sec = s.sec ∧ t.pmu = s.pmu ∧ t.wq = s.wq := by
  and_intros <;> rfl

@[simp] theorem State.setCline_frame (s : State) (a l : Nat) (c : CLine) :
    let t := s.setCline a l c
    t.pending = s.pending ∧ t.ctr = s.ctr ∧ t.now = s.now ∧ t.ref = s.ref ∧ t.cdClk = s.cdClk ∧ t.pdClk = s.pdClk ∧
    t.regs = s.regs ∧ t.pd = s.pd ∧ t.grps = s.grps ∧ t.teams = s.teams ∧ t.cores = s.cores ∧ t.trd = s.trd ∧
    t.twr = s.twr ∧ t.engs = s.engs ∧ t.mem = s.mem ∧ t.poison = s.poison ∧ t.errs = s.errs ∧ t.ueSent = s.ueSent ∧
    t.msc = s.msc ∧ t.dir = s.dir ∧ t.txns = s.txns ∧ t.hq = s.hq ∧ t.net = s.net ∧ t.ncOut = s.ncOut ∧
    t.held = s.held ∧ t.ops = s.ops ∧ t.sb = s.sb ∧ t.queues = s.queues ∧ t.launches = s.launches ∧ t.tlbs = s.tlbs ∧
    t.tlbi = s.tlbi ∧ t.fqs = s.fqs ∧ t.seq = s.seq ∧ t.jobs = s.jobs ∧ t.links = s.links ∧ t.aux = s.aux ∧
    t.fab = s.fab ∧ t.cgs = s.cgs ∧ t.ws = s.ws ∧ t.mbs = s.mbs ∧ t.cp = s.cp ∧ t.pwr = s.pwr ∧ t.rsts = s.rsts ∧
    t.pci = s.pci ∧ t.sec = s.sec ∧ t.pmu = s.pmu ∧ t.wq = s.wq := by
  and_intros <;> rfl

@[simp] theorem State.delDir_frame (s : State) (l : Nat) :
    let t := s.delDir l
    t.pending = s.pending ∧ t.ctr = s.ctr ∧ t.now = s.now ∧ t.ref = s.ref ∧ t.cdClk = s.cdClk ∧ t.pdClk = s.pdClk ∧
    t.regs = s.regs ∧ t.pd = s.pd ∧ t.grps = s.grps ∧ t.teams = s.teams ∧ t.cores = s.cores ∧ t.trd = s.trd ∧
    t.twr = s.twr ∧ t.engs = s.engs ∧ t.mem = s.mem ∧ t.poison = s.poison ∧ t.errs = s.errs ∧ t.ueSent = s.ueSent ∧
    t.msc = s.msc ∧ t.caches = s.caches ∧ t.txns = s.txns ∧ t.hq = s.hq ∧ t.net = s.net ∧ t.ncOut = s.ncOut ∧
    t.held = s.held ∧ t.ops = s.ops ∧ t.sb = s.sb ∧ t.queues = s.queues ∧ t.launches = s.launches ∧ t.tlbs = s.tlbs ∧
    t.tlbi = s.tlbi ∧ t.fqs = s.fqs ∧ t.seq = s.seq ∧ t.jobs = s.jobs ∧ t.links = s.links ∧ t.aux = s.aux ∧
    t.fab = s.fab ∧ t.cgs = s.cgs ∧ t.ws = s.ws ∧ t.mbs = s.mbs ∧ t.cp = s.cp ∧ t.pwr = s.pwr ∧ t.rsts = s.rsts ∧
    t.pci = s.pci ∧ t.sec = s.sec ∧ t.pmu = s.pmu ∧ t.wq = s.wq := by
  and_intros <;> rfl

@[simp] theorem State.setDir_frame (s : State) (l : Nat) (st : HSt) (o : Nat) (h : List Nat) :
    let t := s.setDir l st o h
    t.pending = s.pending ∧ t.now = s.now ∧ t.ref = s.ref ∧ t.cdClk = s.cdClk ∧ t.pdClk = s.pdClk ∧ t.regs = s.regs ∧
    t.pd = s.pd ∧ t.grps = s.grps ∧ t.teams = s.teams ∧ t.cores = s.cores ∧ t.trd = s.trd ∧ t.twr = s.twr ∧
    t.engs = s.engs ∧ t.mem = s.mem ∧ t.poison = s.poison ∧ t.errs = s.errs ∧ t.ueSent = s.ueSent ∧ t.msc = s.msc ∧
    t.caches = s.caches ∧ t.txns = s.txns ∧ t.hq = s.hq ∧ t.net = s.net ∧ t.ncOut = s.ncOut ∧ t.held = s.held ∧
    t.ops = s.ops ∧ t.sb = s.sb ∧ t.queues = s.queues ∧ t.launches = s.launches ∧ t.tlbs = s.tlbs ∧ t.tlbi = s.tlbi ∧
    t.fqs = s.fqs ∧ t.seq = s.seq ∧ t.jobs = s.jobs ∧ t.links = s.links ∧ t.aux = s.aux ∧ t.fab = s.fab ∧
    t.cgs = s.cgs ∧ t.ws = s.ws ∧ t.mbs = s.mbs ∧ t.cp = s.cp ∧ t.pwr = s.pwr ∧ t.rsts = s.rsts ∧ t.pci = s.pci ∧
    t.sec = s.sec ∧ t.pmu = s.pmu ∧ t.wq = s.wq := by
  and_intros <;> rfl

@[simp] theorem State.send_frame (s : State) (m : Msg) :
    let t := s.send m
    t.pending = s.pending ∧ t.ctr = s.ctr ∧ t.now = s.now ∧ t.ref = s.ref ∧ t.cdClk = s.cdClk ∧ t.pdClk = s.pdClk ∧
    t.regs = s.regs ∧ t.pd = s.pd ∧ t.grps = s.grps ∧ t.teams = s.teams ∧ t.cores = s.cores ∧ t.trd = s.trd ∧
    t.twr = s.twr ∧ t.engs = s.engs ∧ t.mem = s.mem ∧ t.poison = s.poison ∧ t.errs = s.errs ∧ t.ueSent = s.ueSent ∧
    t.msc = s.msc ∧ t.caches = s.caches ∧ t.dir = s.dir ∧ t.txns = s.txns ∧ t.hq = s.hq ∧ t.ncOut = s.ncOut ∧
    t.held = s.held ∧ t.ops = s.ops ∧ t.sb = s.sb ∧ t.queues = s.queues ∧ t.launches = s.launches ∧ t.tlbs = s.tlbs ∧
    t.tlbi = s.tlbi ∧ t.fqs = s.fqs ∧ t.seq = s.seq ∧ t.jobs = s.jobs ∧ t.aux = s.aux ∧ t.fab = s.fab ∧
    t.cgs = s.cgs ∧ t.ws = s.ws ∧ t.mbs = s.mbs ∧ t.cp = s.cp ∧ t.pwr = s.pwr ∧ t.rsts = s.rsts ∧ t.pci = s.pci ∧
    t.sec = s.sec ∧ t.pmu = s.pmu ∧ t.wq = s.wq := by
  and_intros <;> rfl

@[simp] theorem State.took_frame (s : State) (p : Msg → Bool) :
    let t := s.took p
    t.pending = s.pending ∧ t.ctr = s.ctr ∧ t.now = s.now ∧ t.ref = s.ref ∧ t.cdClk = s.cdClk ∧ t.pdClk = s.pdClk ∧
    t.regs = s.regs ∧ t.pd = s.pd ∧ t.grps = s.grps ∧ t.teams = s.teams ∧ t.cores = s.cores ∧ t.trd = s.trd ∧
    t.twr = s.twr ∧ t.engs = s.engs ∧ t.mem = s.mem ∧ t.poison = s.poison ∧ t.errs = s.errs ∧ t.ueSent = s.ueSent ∧
    t.msc = s.msc ∧ t.caches = s.caches ∧ t.dir = s.dir ∧ t.txns = s.txns ∧ t.hq = s.hq ∧ t.ncOut = s.ncOut ∧
    t.held = s.held ∧ t.ops = s.ops ∧ t.sb = s.sb ∧ t.queues = s.queues ∧ t.launches = s.launches ∧ t.tlbs = s.tlbs ∧
    t.tlbi = s.tlbi ∧ t.fqs = s.fqs ∧ t.seq = s.seq ∧ t.jobs = s.jobs ∧ t.links = s.links ∧ t.aux = s.aux ∧
    t.fab = s.fab ∧ t.cgs = s.cgs ∧ t.ws = s.ws ∧ t.mbs = s.mbs ∧ t.cp = s.cp ∧ t.pwr = s.pwr ∧ t.rsts = s.rsts ∧
    t.pci = s.pci ∧ t.sec = s.sec ∧ t.pmu = s.pmu ∧ t.wq = s.wq := by
  and_intros <;> rfl

@[simp] theorem State.toPhase_frame (s : State) (p : PwrPhase) :
    let t := s.toPhase p
    t.pending = s.pending ∧ t.ctr = s.ctr ∧ t.now = s.now ∧ t.ref = s.ref ∧ t.cdClk = s.cdClk ∧ t.pdClk = s.pdClk ∧
    t.regs = s.regs ∧ t.pd = s.pd ∧ t.grps = s.grps ∧ t.teams = s.teams ∧ t.cores = s.cores ∧ t.trd = s.trd ∧
    t.twr = s.twr ∧ t.engs = s.engs ∧ t.mem = s.mem ∧ t.poison = s.poison ∧ t.errs = s.errs ∧ t.ueSent = s.ueSent ∧
    t.msc = s.msc ∧ t.caches = s.caches ∧ t.dir = s.dir ∧ t.txns = s.txns ∧ t.hq = s.hq ∧ t.net = s.net ∧
    t.ncOut = s.ncOut ∧ t.held = s.held ∧ t.ops = s.ops ∧ t.sb = s.sb ∧ t.queues = s.queues ∧
    t.launches = s.launches ∧ t.tlbs = s.tlbs ∧ t.tlbi = s.tlbi ∧ t.fqs = s.fqs ∧ t.seq = s.seq ∧ t.jobs = s.jobs ∧
    t.links = s.links ∧ t.aux = s.aux ∧ t.fab = s.fab ∧ t.cgs = s.cgs ∧ t.ws = s.ws ∧ t.mbs = s.mbs ∧ t.cp = s.cp ∧
    t.rsts = s.rsts ∧ t.pci = s.pci ∧ t.sec = s.sec ∧ t.pmu = s.pmu ∧ t.wq = s.wq := by
  and_intros <;> rfl

@[simp] theorem State.addRst_frame (s : State) (d : RDom) (mb : Nat) :
    let t := s.addRst d mb
    t.pending = s.pending ∧ t.ctr = s.ctr ∧ t.now = s.now ∧ t.ref = s.ref ∧ t.cdClk = s.cdClk ∧ t.pdClk = s.pdClk ∧
    t.regs = s.regs ∧ t.pd = s.pd ∧ t.grps = s.grps ∧ t.teams = s.teams ∧ t.cores = s.cores ∧ t.trd = s.trd ∧
    t.twr = s.twr ∧ t.engs = s.engs ∧ t.mem = s.mem ∧ t.poison = s.poison ∧ t.errs = s.errs ∧ t.ueSent = s.ueSent ∧
    t.msc = s.msc ∧ t.caches = s.caches ∧ t.dir = s.dir ∧ t.txns = s.txns ∧ t.hq = s.hq ∧ t.net = s.net ∧
    t.ncOut = s.ncOut ∧ t.held = s.held ∧ t.ops = s.ops ∧ t.sb = s.sb ∧ t.queues = s.queues ∧
    t.launches = s.launches ∧ t.tlbs = s.tlbs ∧ t.tlbi = s.tlbi ∧ t.fqs = s.fqs ∧ t.seq = s.seq ∧ t.jobs = s.jobs ∧
    t.links = s.links ∧ t.aux = s.aux ∧ t.fab = s.fab ∧ t.cgs = s.cgs ∧ t.ws = s.ws ∧ t.mbs = s.mbs ∧ t.cp = s.cp ∧
    t.pwr = s.pwr ∧ t.pci = s.pci ∧ t.sec = s.sec ∧ t.pmu = s.pmu ∧ t.wq = s.wq := by
  and_intros <;> rfl

/- What was written reads back. -/

@[simp] theorem State.reg_setReg (s : State) (k k2 : RegKind) (i j i2 j2 : Nat) (w : Word) :
    (s.setReg k i j w).reg k2 i2 j2 =
      if regAddr k2 i2 j2 = regAddr k i j then (if w = regReset k i j then regReset k2 i2 j2 else w) else s.reg k2 i2 j2 := by
  unfold State.reg State.setReg
  by_cases h : w = regReset k i j
  · simp only [h, if_true]; rw [nmap_get_del]
  · simp only [h, if_false]; rw [nmap_get_set]

/-- A register reads as it was written. -/
theorem State.reg_setReg_same (s : State) (k : RegKind) (i j : Nat) (w : Word) : (s.setReg k i j w).reg k i j = w := by
  rw [State.reg_setReg, if_pos rfl]
  split <;> simp_all

/-- A register at another address keeps its value. -/
theorem State.reg_setReg_other (s : State) (k k2 : RegKind) (i j i2 j2 : Nat) (w : Word)
    (h : regAddr k2 i2 j2 ≠ regAddr k i j) : (s.setReg k i j w).reg k2 i2 j2 = s.reg k2 i2 j2 := by
  rw [State.reg_setReg, if_neg h]

/-- A field reads as it was written. -/
theorem State.fld_setFld_same (s : State) (k : RegKind) (i j lo n v : Nat) (h : lo + n ≤ 64) :
    (s.setFld k i j lo n v).fld k i j lo n = v % 2 ^ n := by
  unfold State.fld State.setFld
  rw [State.reg_setReg_same, bits_setBits _ _ _ _ h]

/-- Another field of the register keeps its value. -/
theorem State.fld_setFld_field (s : State) (k : RegKind) (i j lo n v lo2 n2 : Nat) (h : lo2 + n2 ≤ lo ∨ lo + n ≤ lo2) :
    (s.setFld k i j lo n v).fld k i j lo2 n2 = s.fld k i j lo2 n2 := by
  unfold State.fld State.setFld
  rw [State.reg_setReg_same, bits_setBits_other _ _ _ _ _ _ h]

/-- A field of a register at another address keeps its value. -/
theorem State.fld_setFld_other (s : State) (k k2 : RegKind) (i j lo n v i2 j2 lo2 n2 : Nat)
    (h : regAddr k2 i2 j2 ≠ regAddr k i j) : (s.setFld k i j lo n v).fld k2 i2 j2 lo2 n2 = s.fld k2 i2 j2 lo2 n2 := by
  unfold State.fld State.setFld
  rw [State.reg_setReg_other _ _ _ _ _ _ _ _ h]

@[simp] theorem State.core_setCore (s : State) (n m : Nat) (c : PCore) : (s.setCore n c).core m = if m = n then c else s.core m :=
  nmap_get_set ..
@[simp] theorem State.coreS_setCoreS (s : State) (n m : Nat) (c : CoreS) :
    (s.setCoreS n c).coreS m = if m = n then c else s.coreS m := nmap_get_set ..
@[simp] theorem State.eng_setEng (s : State) (n m : Nat) (c : Engine) : (s.setEng n c).eng m = if m = n then c else s.eng m :=
  nmap_get_set ..
@[simp] theorem State.fq_setFq (s : State) (n m : Nat) (c : FqS) : (s.setFq n c).fq m = if m = n then c else s.fq m :=
  nmap_get_set ..
@[simp] theorem State.mbox_setMbox (s : State) (n m : Nat) (c : Mbx) : (s.setMbox n c).mbox m = if m = n then c else s.mbox m :=
  nmap_get_set ..
@[simp] theorem State.port_setPort (s : State) (n m : Nat) (c : ColPort) : (s.setPort n c).port m = if m = n then c else s.port m :=
  nmap_get_set ..
@[simp] theorem State.link_setLink (s : State) (n m : Nat) (c : LinkS) : (s.setLink n c).link m = if m = n then c else s.link m :=
  nmap_get_set ..
@[simp] theorem State.pciP_setPciP (s : State) (n m : Nat) (c : PciS) : (s.setPciP n c).pciP m = if m = n then c else s.pciP m :=
  nmap_get_set ..
@[simp] theorem State.launchOf_setLaunch (s : State) (n m : Nat) (c : Launch) :
    (s.setLaunch n c).launchOf m = if m = n then c else s.launchOf m := nmap_get_set ..
@[simp] theorem State.grp_setGrp (s : State) (c sl : Nat) (g : Group) (c2 sl2 : Nat) :
    (s.setGrp c sl g).grp c2 sl2 = if gkey c2 sl2 = gkey c sl then some g else s.grp c2 sl2 := nmap_find_set ..
@[simp] theorem State.slot_setSlot (s : State) (c i j : Nat) (x : TSlot) :
    (s.setSlot c i x).slot c j = if j = i then x else s.slot c j := by
  unfold State.slot State.setSlot
  rw [State.coreS_setCoreS, if_pos rfl]
  exact nmap_get_set ..
@[simp] theorem State.chan_setChan (s : State) (c i j : Nat) (x : Chan) :
    (s.setChan c i x).chan c j = if j = i then x else s.chan c j := by
  unfold State.chan State.setChan
  rw [State.coreS_setCoreS, if_pos rfl]
  exact nmap_get_set ..
/-- A line of a cache reads as it was written; a line in I reads as the default. -/
theorem State.cline_setCline_same (s : State) (a l : Nat) (c : CLine) :
    (s.setCline a l c).cline a l = if c.st = .I then {} else c := by
  unfold State.cline State.setCline State.cacheOf
  simp only [nmap_get_set, if_true]
  split <;> simp

/- Threads. -/

@[simp] theorem Thr.getG_zero (t : Thr) : t.getG 0 = 0 := rfl
@[simp] theorem Thr.setG_zero (t : Thr) (v : Word) : t.setG 0 v = t := rfl
@[simp] theorem Thr.getP_zero (t : Thr) : t.getP 0 = true := rfl
/-- A general register reads as it was written, except g0. -/
theorem Thr.getG_setG (t : Thr) (r q : Nat) (v : Word) : (t.setG r v).getG q = if q = r ∧ r ≠ 0 then v else t.getG q := by
  unfold Thr.getG Thr.setG
  by_cases hq : q = 0
  · subst hq; by_cases hr : r = 0 <;> simp [hr]; grind
  · by_cases hr : r = 0
    · simp [hq, hr]
    · simp only [hq, hr, if_false, nmap_find_set]
      by_cases h : q = r <;> simp [h, hr]
@[simp] theorem Thr.setG_pc (t : Thr) (r : Nat) (v : Word) : (t.setG r v).pc = t.pc := by unfold Thr.setG; split <;> rfl
@[simp] theorem Thr.setG_f (t : Thr) (r : Nat) (v : Word) : (t.setG r v).f = t.f := by unfold Thr.setG; split <;> rfl
@[simp] theorem Thr.setG_p (t : Thr) (r : Nat) (v : Word) : (t.setG r v).p = t.p := by unfold Thr.setG; split <;> rfl
@[simp] theorem Thr.setG_fpc (t : Thr) (r : Nat) (v : Word) : (t.setG r v).fpc = t.fpc := by unfold Thr.setG; split <;> rfl
@[simp] theorem Thr.setP_pc (t : Thr) (r : Nat) (b : Bool) : (t.setP r b).pc = t.pc := by unfold Thr.setP; split <;> rfl
@[simp] theorem Thr.setP_g (t : Thr) (r : Nat) (b : Bool) : (t.setP r b).g = t.g := by unfold Thr.setP; split <;> rfl
@[simp] theorem Thr.setP_fpc (t : Thr) (r : Nat) (b : Bool) : (t.setP r b).fpc = t.fpc := by unfold Thr.setP; split <;> rfl
@[simp] theorem Thr.setFd_frame (t : Thr) (d : Bool) (r v : Nat) :
    (t.setFd d r v).pc = t.pc ∧ (t.setFd d r v).g = t.g ∧ (t.setFd d r v).p = t.p ∧ (t.setFd d r v).fpc = t.fpc :=
  ⟨rfl, rfl, rfl, rfl⟩
@[simp] theorem Thr.raise_frame (t : Thr) (fl : Nat) :
    (t.raise fl).pc = t.pc ∧ (t.raise fl).g = t.g ∧ (t.raise fl).f = t.f ∧ (t.raise fl).p = t.p := ⟨rfl, rfl, rfl, rfl⟩

end Sys2Proof.Machine
end

