-- ==== Sys2Proof/Laws/Commands.lean ====
section
/-! SUPPORT. What a mailbox command that is ready does: its own checks and effect, and its answer. -/

namespace Sys2Proof

open Sys2Proof.Machine

/-- A result for a mailbox whose command has none yet. -/
theorem mbResult_of_busy {s : State} {mb : Nat} (hb : (s.mbox mb).busy = true) (hr : (s.mbox mb).res = none) (st : Nat) (resp : List Byte) :
    s.mbResult mb st resp = answer s mb st resp := by
  simp [State.mbResult, answer, hb, hr]

/-- A ready command passes the checks of R328 and runs its own meaning. -/
theorem command_of_ready {s : State} {mb op : Nat} {f : List (Nat × Nat)} (h : Ready s mb op f) (k : State → Mbx → CmdRes)
    (aux : Bool) (own : Mbx → Bool) (ha : aux = true → s.fld .fwStatus 0 0 0 1 ≠ 0) (ho : own (s.mbox mb) = true) :
    command mb op s k aux own = (match k s (s.mbox mb) with
      | .wait => .next s
      | .done s1 st resp => .next (s1.mbResult mb st resp)
      | .gone s1 => .next s1
      | .later s1 => .next (later s1 mb)) := by
  obtain ⟨h1, h2, h3, h4, h5, h6, h7, h8, h9, h10⟩ := h
  have h1' : ¬ mb ≥ 8 := by omega
  have ha' : (aux && s.fld .fwStatus 0 0 0 1 == 0) = false := by
    cases aux
    · rfl
    · simpa using ha rfl
  unfold command
  simp only [h1', if_false, h2, h3, h4, h5, h6, h7, ho, ha', h8, h9]
  simp [later] <;> rfl

/-- The same for a command whose object is not the auxiliary site, with one row for its opcode. -/
theorem command_ready {s : State} {mb op : Nat} {f : List (Nat × Nat)} (h : Ready s mb op f) (k : State → Mbx → CmdRes) :
    command mb op s k = (match k s (s.mbox mb) with
      | .wait => .next s
      | .done s1 st resp => .next (s1.mbResult mb st resp)
      | .gone s1 => .next s1
      | .later s1 => .next (later s1 mb)) :=
  command_of_ready h k false _ (by simp) rfl

end Sys2Proof
end

