-- ==== Sys2Proof/Laws/Issue.lean ====
section
/-! SUPPORT. Laws of issue: an instruction that issues has exactly its row's effect, and a processor core at level M in
local memory issues it with nothing else changed. -/

namespace Sys2Proof.Machine

/-- What issue does once an instruction issues: the row's effect, or nothing where that must wait. -/
theorem issue_of_issued {s : State} {u : Agent} {iw : IWord} {x : UCtx} {op : Op} {s2 : State}
    (h : issued s u iw = some (x, op, s2)) (row : Op → Bool) (k : State → UCtx → Op → Option Out) (hr : row op = true) :
    issue u iw s row k = (k s2 x op).getD (.next s) := by
  unfold issued at h
  unfold issue
  split at h
  · cases h
  rename_i h0
  rw [if_neg h0]
  split at h
  · rename_i pc all op' hrdy hop
    simp only [hrdy, hop]
    dsimp only at h
    split at h
    · cases h
    rename_i hact
    split at h
    · rename_i s0 hf
      split at h
      · rename_i hl
        simp only [Bool.and_eq_true, decide_eq_true_eq] at hl
        simp only [Option.some.injEq, Prod.mk.injEq] at h
        obtain ⟨rfl, rfl, h3⟩ := h
        have hact' : (List.filter (fun i => guardTrue (s.thr u i) (decodeI iw)) all).isEmpty = false := by simpa using hact
        simp only [hact', hf, hr, hl.1, hl.2]
        simp [← h3]
      · cases h
    · cases h
  · cases h

/-- The same at a convergence point that every lane has reached (R103). -/
theorem issue_of_issued_conv {s : State} {u : Agent} {iw : IWord} {x : UCtx} {op : Op} {s2 : State}
    (h : issued s u iw = some (x, op, s2)) (row : Op → Bool) (k : State → UCtx → Op → Option Out) (hr : row op = true)
    (hc : ∀ s1 : State, s1.converged x = true) : issue u iw s row k true = (k s2 x op).getD (.next s) := by
  unfold issued at h
  unfold issue
  split at h
  · cases h
  rename_i h0
  rw [if_neg h0]
  split at h
  · rename_i pc all op' hrdy hop
    simp only [hrdy, hop]
    dsimp only at h
    split at h
    · cases h
    rename_i hact
    split at h
    · rename_i s0 hf
      split at h
      · rename_i hl
        simp only [Bool.and_eq_true, decide_eq_true_eq] at hl
        simp only [Option.some.injEq, Prod.mk.injEq] at h
        obtain ⟨rfl, rfl, h3⟩ := h
        have hact' : (List.filter (fun i => guardTrue (s.thr u i) (decodeI iw)) all).isEmpty = false := by simpa using hact
        simp only [hact', hf, hr, hl.1, hl.2, hc]
        simp [← h3]
      · cases h
    · cases h
  · cases h

/-- The place of a processor core at an instruction. -/
def coreCtx (s : State) (n : Nat) (iw : IWord) : UCtx := ⟨.core n, (s.core n).thr.pc, (decodeI iw).len, [0], [0], iw⟩

theorem isLocal_lt {a : Nat} (h : isLocal a = true) : a < 2 ^ 41 := by
  unfold isLocal isHbm isSteppe gib at h
  simp only [Bool.or_eq_true, Bool.and_eq_true, decide_eq_true_eq] at h
  rcases h with h | h <;> omega

theorem isLocal_plain {a : Nat} (h : isLocal a = true) : isMmio a = false ∧ isPcie a = false := by
  have := isLocal_lt h
  constructor
  · simp only [isMmio, Bool.and_eq_false_iff, decide_eq_false_iff_not]
    omega
  · simp only [isPcie, Bool.and_eq_false_iff, decide_eq_false_iff_not]
    omega

/-- A line lies in local memory with each of its bytes. -/
theorem isLocal_line {a : Nat} (h : isLocal a = true) : isLocal (a / 128 * 128) = true := by
  unfold isLocal isHbm isSteppe gib at *
  simp only [Bool.or_eq_true, Bool.and_eq_true, decide_eq_true_eq] at *
  omega

/-- PD's cache serves a line that it holds, and nothing changes. -/
theorem agentRead_held {s : State} {l cls : Nat} (h1 : isLocal (l * 128) = true) (h2 : s.memOk = true)
    (h3 : (s.cline 64 l).st.readable = true) : s.agentRead 64 l cls = .ok s (s.cline 64 l).data (s.cline 64 l).poison := by
  simp [State.agentRead, h1, h2, h3]

/-- At level M an address of local memory is its own physical address, and nothing changes (R242). -/
theorem translate_at_M {s : State} {n va : Nat} (need : Need) (hl : s.lvl n = 2) (h : isLocal va = true) :
    s.translate (.core n) need va = .ok s va false 1 true (0, 0) := by
  have h1 := isLocal_lt h
  obtain ⟨h2, h3⟩ := isLocal_plain h
  have h4 : ¬ va ≥ 2 ^ 56 := by omega
  simp only [State.translate, h4, hl, h2, h3, if_false, true_or, if_true, Bool.or_false]
  simp

/-- A processor core in the place that CoreAt describes issues its instruction, and nothing has changed before the
row's own effect. -/
theorem issued_of_coreAt {s : State} {n : Nat} {iw : IWord} {op : Op} (h : CoreAt s n iw op) (hl : s.legal (.core n) op = 0) :
    issued s (.core n) iw = some (coreCtx s n iw, op, s) := by
  obtain ⟨h1, h2, h3, h4, -, h6, h7, h8, h9, h10, h11, h12, h13, h14, -, h16, -, h18, -, h19, h20, h21⟩ := h
  have hr : s.ready (.core n) = some ((s.core n).thr.pc, [0]) := by
    simp [State.ready, h1, h6, h7, h8, h9, h10, h11]
  have hwf : ¬ ((!(Agent.core n).wf || !iwordWf iw) = true) := by simp [Agent.wf, h2, h3]
  have hact : List.filter (fun i => guardTrue (s.thr (.core n) i) (decodeI iw)) [0] = [0] := by
    simp [State.thr, h13]
  have hf : s.fetchAll (coreCtx s n iw) false = (.ok s, false) := by
    have one : ∀ va, isLocal va = true → HeldPd s va → s.fetch (coreCtx s n iw) va = .ok s := by
      intro va ha hp
      have ht := translate_at_M (s := s) (n := n) .fetch h12 ha
      have hl : isLocal (va / 128 * 128) = true := isLocal_line ha
      simp [State.fetch, coreCtx, ht, ha, State.ifetch, agentRead_held hl h18 hp.1, hp.2]
    unfold State.fetchAll
    rw [show (coreCtx s n iw).pc.toNat = (s.core n).thr.pc.toNat from rfl, one _ h19 h20]
    by_cases hlen : (decodeI iw).len = 4
    · simp [coreCtx, hlen]
    · have h8 : (decodeI iw).len = 8 := by
        revert hlen; unfold decodeI; split <;> simp
      have := h21 h8
      simp [coreCtx, hlen]
      simp only [coreCtx] at one
      rw [one _ this.1 this.2]
  have htag : s.tagIssue (coreCtx s n iw) = s := by
    simp [State.tagIssue, coreCtx, agUnit, h16]
  have hnote : (coreCtx s n iw).act.any (fun i => (s.thr (.core n) i).resv.isSome) = false := by
    simp [coreCtx, State.thr, h14]
  unfold issued
  rw [if_neg hwf]
  simp only [hr, h4]
  rw [hact]
  have e : (⟨Agent.core n, (s.core n).thr.pc, (decodeI iw).len, [0], [0], iw⟩ : UCtx) = coreCtx s n iw := rfl
  rw [e, hf]
  simp only [List.isEmpty_cons, htag, hl, State.regsLegal]
  simp [State.thr, h14]

theorem countFixed_off {s : State} {u : Nat} (h : s.pmuOn u = false) (j n : Nat) : s.countFixed u j n = s := by
  simp [State.countFixed, h]

theorem useSlots_off {s : State} {u : Nat} (h : s.pmuOn u = false) (j n : Nat) : s.useSlots u j n = s := by
  simp [State.useSlots, h]

/-- A processor core that counts and tags nothing retires an instruction without any other change. -/
theorem retire_quiet {s : State} {n : Nat} (h1 : s.pmuOn (512 + n) = false) (h2 : (s.core n).tagged = none)
    (h3 : (s.core n).far = []) (k : Nat) : s.retire (.core n) k = s := by
  unfold State.retire
  simp only [agUnit]
  rw [countFixed_off h1, useSlots_off h1]
  simp [State.untag, State.tagOf, h2, State.noFar, h3]

/-- pmuOn looks at a core's halted mark alone. -/
theorem pmuOn_setCore {s : State} {n m : Nat} (c : PCore) (h : c.halted = (s.core n).halted) :
    (s.setCore n c).pmuOn (512 + m) = s.pmuOn (512 + m) := by
  unfold State.pmuOn State.fld State.reg
  simp only [State.setCore_frame]
  have h5 : ¬ (512 + m < 512) := by omega
  simp only [h5, if_false]
  have h6 : 512 + m - 512 = m := by omega
  rw [h6]
  have : ((s.setCore n c).pd.get {} m).halted = (s.pd.get {} m).halted := by
    show ((s.setCore n c).core m).halted = (s.core m).halted
    rw [State.core_setCore]
    split
    · rename_i e; subst e; exact h
    · rfl
  rw [this]

/-- The end of an instruction whose effect on a quiet processor core is a change of its thread. -/
theorem next_of_coreAt {s : State} {n : Nat} {iw : IWord} {op : Op} (h : CoreAt s n iw op) (t : Thr) (hpc : t.pc = (s.core n).thr.pc) :
    (s.setCore n { s.core n with thr := t }).next (coreCtx s n iw) = coreDone s n iw t := by
  obtain ⟨-, -, -, -, -, -, -, -, -, -, -, -, -, -, h15, -, h17, -, h19, -⟩ := h
  unfold State.next State.advance
  simp only [coreCtx, State.core_setCore, if_true]
  have e : (s.setCore n { s.core n with thr := t }).setCore n
      { s.core n with thr := { t with pc := t.pc + BitVec.ofNat 64 (decodeI iw).len } } = coreDone s n iw t := by
    unfold coreDone State.setCore
    rw [hpc]
    simp [nmap_set_set]
  rw [e]
  apply retire_quiet
  · unfold coreDone
    refine (pmuOn_setCore (s := s) (n := n) (m := n) _ ?_).trans h17
    rfl
  · simp [coreDone, h15]
  · simp [coreDone, h19]

end Sys2Proof.Machine
end

