-- ==== Sys2Proof/Laws/Memory.lean ====
section
/-! SUPPORT. Every operation on the memory arrays keeps their canonical form. -/

namespace Sys2Proof.Machine

/-- The canonical form as a statement about the list: addresses strictly rising, no zero byte. -/
theorem memory_wf_iff (m : List Host.Cell) :
    Memory.wf m = true ↔ m.Pairwise (fun a b => a.1 < b.1) ∧ ∀ c ∈ m, c.2 ≠ 0 := by
  induction m with
  | nil => simp [Memory.wf]
  | cons c r ih =>
    cases r with
    | nil => simp [Memory.wf]
    | cons d r =>
      simp only [Memory.wf, Bool.and_eq_true, ih, bne_iff_ne, decide_eq_true_eq, List.pairwise_cons, List.mem_cons]
      constructor
      · rintro ⟨⟨h1, h2⟩, ⟨h3, h4⟩, h5⟩
        refine ⟨⟨?_, h3, h4⟩, ?_⟩
        · rintro a (rfl | ha)
          · exact h2
          · exact Nat.lt_trans h2 (h3 a ha)
        · rintro a (rfl | ha)
          · exact h1
          · exact h5 a ha
      · rintro ⟨⟨h1, h2, h3⟩, h4⟩
        exact ⟨⟨h4 c (Or.inl rfl), h1 d (Or.inl rfl)⟩, ⟨h2, h3⟩, fun a ha => h4 a (Or.inr ha)⟩

theorem memory_wf_nil : Memory.wf [] = true := rfl

theorem nmap_set_mem {α : Type} (m : NMap α) (k : Nat) (v : α) (c : Nat × α) (h : c ∈ NMap.set m k v) : c = (k, v) ∨ c ∈ m := by
  induction m with
  | nil => simpa [NMap.set] using h
  | cons e r ih =>
    obtain ⟨a, b⟩ := e
    simp only [NMap.set] at h
    split at h
    · simpa using h
    · split at h
      · rcases List.mem_cons.1 h with h | h
        · exact Or.inl h
        · exact Or.inr (List.mem_cons_of_mem _ h)
      · rcases List.mem_cons.1 h with h | h
        · exact Or.inr (h ▸ List.mem_cons_self)
        · rcases ih h with h | h
          · exact Or.inl h
          · exact Or.inr (List.mem_cons_of_mem _ h)

theorem nmap_set_sorted {α : Type} (m : NMap α) (k : Nat) (v : α) (h : m.Pairwise (fun a b => a.1 < b.1)) :
    (NMap.set m k v).Pairwise (fun a b => a.1 < b.1) := by
  induction m with
  | nil => simp [NMap.set]
  | cons e r ih =>
    obtain ⟨a, b⟩ := e
    rw [List.pairwise_cons] at h
    simp only [NMap.set]
    split
    · rename_i hk
      rw [List.pairwise_cons, List.pairwise_cons]
      refine ⟨?_, h.1, h.2⟩
      rintro c hc
      rcases List.mem_cons.1 hc with rfl | hc
      · exact hk
      · exact Nat.lt_trans hk (h.1 c hc)
    · split
      · rename_i hk
        rw [List.pairwise_cons]
        exact ⟨fun c hc => hk ▸ h.1 c hc, h.2⟩
      · rename_i h1 h2
        rw [List.pairwise_cons]
        refine ⟨?_, ih h.2⟩
        intro c hc
        rcases nmap_set_mem r k v c hc with rfl | hc
        · show a < k
          omega
        · exact h.1 c hc

/-- A write of one byte keeps the form. -/
theorem memory_write_wf (m : List Host.Cell) (a : Nat) (b : Byte) (h : Memory.wf m = true) : Memory.wf (Memory.write m a b) = true := by
  rw [memory_wf_iff] at h ⊢
  unfold Memory.write
  split
  · exact ⟨h.1.filter _, fun c hc => h.2 c (List.mem_filter.1 hc).1⟩
  · rename_i hb
    refine ⟨nmap_set_sorted m a b h.1, fun c hc => ?_⟩
    rcases nmap_set_mem m a b c hc with rfl | hc
    · exact hb
    · exact h.2 c hc

theorem line_cells_mem (l : Nat) (d : Line) (c : Host.Cell) (h : c ∈ lineCells l d) :
    l * 128 ≤ c.1 ∧ c.1 < l * 128 + 128 ∧ c.2 ≠ 0 := by
  obtain ⟨h1, h2⟩ := List.mem_filter.1 h
  obtain ⟨i, hi, rfl⟩ := List.mem_map.1 h1
  have := List.mem_range.1 hi
  simp only [bne_iff_ne] at h2
  exact ⟨Nat.le_add_right .., by simpa using this, h2⟩

theorem line_cells_sorted (l : Nat) (d : Line) : (lineCells l d).Pairwise (fun a b => a.1 < b.1) := by
  apply List.Pairwise.filter
  rw [List.pairwise_map]
  exact List.pairwise_lt_range.imp (fun h => by simpa using h)

/-- A write of a whole line keeps the form. -/
theorem memory_setLine_wf (m : List Host.Cell) (l : Nat) (d : Line) (h : Memory.wf m = true) :
    Memory.wf (Memory.setLine m l d) = true := by
  rw [memory_wf_iff] at h ⊢
  unfold Memory.setLine
  constructor
  · rw [List.pairwise_append, List.pairwise_append]
    refine ⟨⟨h.1.filter _, line_cells_sorted l d, ?_⟩, h.1.filter _, ?_⟩
    · intro a ha b hb
      have h1 := of_decide_eq_true (List.mem_filter.1 ha).2
      have h2 := line_cells_mem l d b hb
      omega
    · intro a ha b hb
      have h1 := of_decide_eq_true (List.mem_filter.1 hb).2
      rcases List.mem_append.1 ha with ha | ha
      · have h2 := of_decide_eq_true (List.mem_filter.1 ha).2
        omega
      · have h2 := line_cells_mem l d a ha
        omega
  · intro c hc
    rcases List.mem_append.1 hc with hc | hc
    · rcases List.mem_append.1 hc with hc | hc
      · exact h.2 c (List.mem_filter.1 hc).1
      · exact (line_cells_mem l d c hc).2.2
    · exact h.2 c (List.mem_filter.1 hc).1

end Sys2Proof.Machine
end

