-- ==== Sys2Proof/Tests/Slice0.lean ====
section
/-! SUPPORT. Tests: words and worked examples of the manual, well-formedness, single steps, and for each statement inputs that
meet its hypotheses. -/

namespace Sys2Proof.Tests

open Sys2Proof Sys2Proof.Machine

set_option Elab.async false

/- Words, written from the formats of R22 to R25. -/

/-- Opcode, rd, rs1, rs2 and func of the R format. -/
def fR (op rd a b f : Nat) : IWord := ⟨none, BitVec.ofNat 32 (op * 2 ^ 26 + rd * 2 ^ 20 + a * 2 ^ 14 + b * 2 ^ 8 + f)⟩
/-- Opcode, rd and the low 20 bits of the other formats. -/
def fJ (op rd low : Nat) : IWord := ⟨none, BitVec.ofNat 32 (op * 2 ^ 26 + rd * 2 ^ 20 + low)⟩
/-- A Prieno-G long form under guard p0: gop, modifiers, registers. -/
def fG (gop m rd a b : Nat) : IWord :=
  ⟨some (BitVec.ofNat 32 (0xFC100000 + gop * 2 ^ 12 + m)), BitVec.ofNat 32 (0x3A * 2 ^ 26 + rd * 2 ^ 20 + a * 2 ^ 14 + b * 2 ^ 8)⟩

/- States. -/

/-- A cache that holds line 0, where the words of a test stand, for reading. -/
def has0 : Cache := { lines := [(0, { st := .S })] }
/-- The module runs, memory is enabled, processor cores 0 and 1 are out of reset, and the cluster cache of core 0 and PD's hold
line 0; the groups of die 0 translate. -/
def up : State :=
  { pwr := { phase := .on }, pd := [(0, { held := false }), (1, { held := false })], caches := [(0, has0), (64, has0)],
    regs := (upTo 4).foldl (fun m i => NMap.set m (regAddr .memStatus i 0) (BitVec.ofNat 64 0x3F)) [(regAddr .xltAst 0 0, 1)] }
/-- Core 0 becomes f of itself. -/
def core0 (f : PCore → PCore) : State := up.setCore 0 (f (up.core 0))
/-- Core 0 at level U or K. -/
def atLevel (l : Nat) : State := core0 (fun c => { c with state := BitVec.ofNat 64 l })

/-- What a unit issues. -/
def issues (s : State) (u : Agent) (iw : IWord) : Option Op := (issued s u iw).map (fun r => r.2.1)

theorem issues_some {s : State} {u : Agent} {iw : IWord} {op : Op} (h : issues s u iw = some op) :
    ∃ x s2, issued s u iw = some (x, op, s2) := by
  unfold issues at h
  match hi : issued s u iw with
  | none => rw [hi] at h; cases h
  | some (x, o, s2) =>
    rw [hi] at h
    simp only [Option.map_some, Option.some.injEq] at h
    subst h
    exact ⟨x, s2, rfl⟩

/-- HeldPd and CoreAt as tests. -/
def heldPd (s : State) (a : Nat) : Bool := (s.cline 64 (a / 128)).st.readable && !(s.cline 64 (a / 128)).poison
def coreAt (s : State) (n : Nat) (iw : IWord) (op : Op) : Bool :=
  s.pwr.phase == .on && n < 64 && iwordWf iw && (decodeI iw).op == some op && op.part != .g &&
  !(s.core n).held && !(s.core n).halted && (s.core n).idle.isNone && (s.core n).barrier.isNone &&
  (s.core n).op.isNone && (s.core n).serr.isEmpty && s.lvl n == 2 && guardTrue (s.core n).thr (decodeI iw) &&
  (s.core n).thr.resv.isNone && (s.core n).tagged.isNone && s.fld .pmuTag (512 + n) 0 0 1 == 0 && !s.pmuOn (512 + n) &&
  s.memOk && (s.core n).far.isEmpty && isLocal (s.core n).thr.pc.toNat && heldPd s (s.core n).thr.pc.toNat &&
  ((decodeI iw).len != 8 || (isLocal ((s.core n).thr.pc.toNat + 4) && heldPd s ((s.core n).thr.pc.toNat + 4)))

theorem coreAt_iff {s : State} {n : Nat} {iw : IWord} {op : Op} (h : coreAt s n iw op = true) : CoreAt s n iw op := by
  simp only [coreAt, Bool.and_eq_true, beq_iff_eq, bne_iff_ne, decide_eq_true_eq, Bool.not_eq_true', Option.isNone_iff_eq_none,
    List.isEmpty_iff, Bool.or_eq_true, heldPd] at h
  obtain ⟨⟨⟨⟨⟨⟨⟨⟨⟨⟨⟨⟨⟨⟨⟨⟨⟨⟨⟨⟨⟨h1, h2⟩, h3⟩, h4⟩, h5⟩, h6⟩, h7⟩, h8⟩, h9⟩, h10⟩, h11⟩, h12⟩, h13⟩, h14⟩, h15⟩, h16⟩, h17⟩, h18⟩, hf⟩, h19⟩, h20⟩, h21⟩ := h
  refine ⟨h1, h2, h3, h4, h5, h6, h7, h8, h9, h10, h11, h12, h13, h14, h15, h16, h17, h18, hf, h19, h20, fun e => ?_⟩
  rcases h21 with h21 | h21
  · exact absurd e h21
  · exact h21

/-- A group of eight lanes runs on core 0 of compute die 0, in a team of its own with eight tiles; every address below 64 GiB is
mapped. -/
def grp0 (f : Group → Group) : State :=
  { up with grps := [(0, f { gn := 64, fn := 64, lanes := List.replicate 8 {} })],
            teams := [(0, { slots := [0], live := [0], tiles := 8 })],
            launches := [(0, { gregs := 8, fregs := 8, tiles := 8, started := 1, live := 1 })],
            tlbs := [(1000, { es := [{ bits := 36, attr := 0x3F }] })] }
def gs : State := grp0 id

/-- Where nothing is on its way every message is in turn. -/
theorem quiet_turn {s : State} (h : s.net = []) (p : Msg → Bool) : s.inTurn p = true := by simp [State.inTurn, h]

/-- Rows of one thread. -/
def rowMeets (rows : Op → Option ScalarRow) (iw : IWord) : Bool :=
  match (decodeI iw).op with
  | none => false
  | some op => (rows op).isSome && coreAt up 0 iw op && issues up (.core 0) iw == some op && issues gs (.grp 0 0) iw == some op

theorem of_rowMeets {rows : Op → Option ScalarRow} {iw : IWord} (h : rowMeets rows iw = true) :
    ∃ op row, rows op = some row ∧ CoreAt up 0 iw op ∧ (∃ x s2, issued up (.core 0) iw = some (x, op, s2)) ∧
      ∃ x s2, issued gs (.grp 0 0) iw = some (x, op, s2) := by
  unfold rowMeets at h
  split at h
  · cases h
  rename_i op _
  simp only [Bool.and_eq_true, beq_iff_eq] at h
  obtain ⟨⟨⟨h1, h2⟩, h3⟩, h4⟩ := h
  obtain ⟨row, h1⟩ := Option.isSome_iff_exists.mp h1
  exact ⟨op, row, h1, coreAt_iff h2, issues_some h3, issues_some h4⟩

/-- Links named by an end are up on four groups. -/
def linked (es : List Nat) (s : State) : State :=
  { s with regs := (es ++ es.filterMap linkPartner).foldl (fun m e => NMap.set m (regAddr .lnkStatus e 0) 18) s.regs }
/-- A register holds a word. -/
def setR (k : RegKind) (i j : Nat) (w : Word) (s : State) : State := { s with regs := NMap.set s.regs (regAddr k i j) w }
/-- A command area: opcode, flags and tag zero, and values at byte offsets. -/
def cmdOf (op : Nat) (args : List (Nat × Nat)) : List Byte := leBytes 64 (op + (args.map (fun a => a.2 * 2 ^ (8 * a.1))).sum)
/-- Mailbox mb holds a command. -/
def mbHas (mb op : Nat) (args : List (Nat × Nat)) (s : State) : State := s.setMbox mb { cmd := cmdOf op args, busy := true }
/-- Ready as a test. -/
def readyB (s : State) (mb op : Nat) (f : List (Nat × Nat)) : Bool :=
  mb < 8 && (s.mbox mb).busy && !(s.mbox mb).held && !(s.mbox mb).waiting && (s.mbox mb).res.isNone && (s.mbox mb).remote.isNone &&
  (s.mbox mb).opcode == op && s.mayRun mb op && (s.mbox mb).flags == 0 && (s.mbox mb).clean f
theorem ready_iff {s : State} {mb op : Nat} {f : List (Nat × Nat)} (h : readyB s mb op f = true) : Ready s mb op f := by
  simp only [readyB, Bool.and_eq_true, decide_eq_true_eq, Bool.not_eq_true', Option.isNone_iff_eq_none, beq_iff_eq] at h
  obtain ⟨⟨⟨⟨⟨⟨⟨⟨⟨h1, h2⟩, h3⟩, h4⟩, h5⟩, h6⟩, h7⟩, h8⟩, h9⟩, h10⟩ := h
  exact ⟨h1, h2, h3, h4, h5, h6, h7, h8, h9, h10⟩

/-- Bytes of a number at an address. -/
def bytesAt (a n v : Nat) : List Host.Cell :=
  ((upTo n).map (fun i => ((a + i, BitVec.ofNat 8 (v / 2 ^ (8 * i))) : Nat × Byte))).filter (fun c => c.2 != 0)
/- Words of the manual's worked encodings. -/

/-- ADD g1, g2, g3, and its word. -/
theorem test_decode_add : decodeI (fR 0x01 1 2 3 0) = ⟨0, false, 4, some (.alu 0 1 2 3)⟩ := by decide +kernel
/-- The butterfly step of chapter 3: XL.FLIP g12, g12, 16 with EDGE KEEP. -/
theorem test_decode_xlFlip : (decodeI ⟨some 0xFC103010, 0xE8C30000⟩).op = some (.xl 3 false 0 0 16 12 12 0) := by decide +kernel
/-- The rotation of chapter 3: XL.FWD.WRAP g12, g12, 1 in segments of 8. -/
theorem test_decode_xlFwdWrap : (decodeI ⟨some 0xFC1014C1, 0xE8C30000⟩).op = some (.xl 1 false 2 3 1 12 12 0) := by decide +kernel
/-- The encoding of chapter 4: MMA f32, f16 with shape S32 and B in FP8 E4M3. -/
theorem test_decode_mma : (decodeI ⟨some 0xFC141100, 0xEA040000⟩).op = some (.mma false 0 2 false 32 16) := by decide +kernel
/-- An opcode that no table assigns. -/
theorem test_decode_unassigned : (decodeI ⟨none, 0⟩).op = none := by decide +kernel

/- Worked examples of the chapters. -/

/-- R178: the spread address 0x12_3456_7890 at HP = 24 lies in stack 4, at offset 0x2_468A_CF90. -/
theorem test_hbmSpread : hbmLoc 24 0x1234567890 = (4, 0x2468ACF90) := by decide +kernel
/-- R177: stack 5's placed range at HP = 24 begins at 0x4E_0000_0000, and its home is MD2. -/
theorem test_hbmPlaced : (hbmLoc 24 0x4E00000000).1 = 5 ∧ (hbmLoc 24 0x53FFFFFFFF).1 = 5 ∧ (hbmLoc 24 0x4DFFFFFFFF).1 = 4 := by decide +kernel
/-- R179: interface 15 ends at 0x01FF_FFFF_FFFF at SP = 16. -/
theorem test_steppePlaced : (steppeLoc 16 0x1FFFFFFFFFF).1 = 15 := by decide +kernel
/-- R171: byte 0 of the Steppe tier of member 5 of plain 37. -/
theorem test_remoteAddress : remoteAddr 0x4A5 (2 ^ 40) = 0x894B0000000000 := by decide +kernel
/-- R117: the MXFP4 block of chapter 5, whose first six values are 13.0, -2.9, 0.3, 0.8, 5.0 and -7.0. -/
theorem test_mxfp4Block : convBlock 0xA (fun _ => none) [0x41500000, 0xC039999A, 0x3E99999A, 0x3F4CCCCD, 0x40A00000, 0xC0E00000] =
    (0x80, [0x7, 0xB, 0x0, 0x1, 0x4, 0xE]) := by decide +kernel
/-- R118: 6.5 in that block with stochastic rounding gives 12 for both outcomes, 5.0 gives 4 or 6. -/
theorem test_mxfp4Stochastic : (convBlock 0xA (fun _ => some 0xFFFF) [0x41500000, 0x40A00000]).2 = [0x7, 0x5] ∧
    (convBlock 0xA (fun _ => some 0) [0x41500000, 0x40A00000]).2 = [0x7, 0x4] := by decide +kernel

/- Well-formedness: an operand that no encoding admits. -/

theorem test_wf_core : (Agent.core 64).wf = false ∧ (Agent.core 63).wf = true := by decide
theorem test_wf_slot : (Agent.grp 512 0).wf = false ∧ (Agent.grp 0 64).wf = false ∧ (Agent.grp 511 63).wf = true := by decide
theorem test_wf_packet : ({ pktBlank with dst := 2 ^ 14 } : Pkt).wf = false ∧ ({ pktBlank with tc := 8 } : Pkt).wf = false ∧
    ({ pktBlank with data := List.replicate 513 0 } : Pkt).wf = false ∧ pktBlank.wf = true := by decide +kernel
theorem test_wf_flit : (⟨4096, 0, false, 0, 0, 0⟩ : FlitHdr).wf false = false ∧ (⟨4096, 0, false, 0, 0, 0⟩ : FlitHdr).wf true = true := by decide
theorem test_wf_requester : (Requester.chan 0 8).wf = false ∧ (Requester.word 8 0 0).wf = false ∧ (Requester.grp 0 64).wf = false := by decide
theorem test_wf_who : (Who.tileR 0 68).wf = false ∧ (Who.desc 0 8).wf = false ∧ (Who.op 7).wf = true := by decide
theorem test_wf_access : accessWf 4 8 = false ∧ accessWf 6 4 = false ∧ accessWf 0 3 = false ∧ accessWf 8 8 = true := by decide
theorem test_illFormed_mailbox : exec (.sysNop 8) up = .refused .illFormed := by rfl

/- One step. -/

/-- What a field of the state after a command is. -/
def after {α : Type} (o : Host.Outcome State Fault Refusal) (f : State → α) : Option α := match o with | .next t => some (f t) | _ => none
/-- A processor core at level M with two operands. -/
def operands (x y : Word) : State := core0 (fun c => { c with thr := { c.thr with g := [(1, x), (2, y)] } })
/-- R28: a sum wraps, and the pc moves past the instruction. -/
theorem test_add_wraps : after (exec (.addSubAndOrXorAndn (.core 0) (fR 0x01 3 1 2 0)) (operands (-1) 2)) (fun t => ((t.core 0).thr.getG 3, (t.core 0).thr.pc)) =
    some (1, 4) := by decide +kernel
/-- R28: a source that is also the destination is read first. -/
theorem test_sub_same : after (exec (.addSubAndOrXorAndn (.core 0) (fR 0x01 1 2 1 1)) (operands 5 3)) (fun t => (t.core 0).thr.getG 1) = some (-2) := by decide +kernel
/-- R17: a write of g0 is discarded. -/
theorem test_add_g0 : after (exec (.addSubAndOrXorAndn (.core 0) (fR 0x01 0 1 2 0)) (operands 5 3)) (fun t => (t.core 0).thr.getG 0) = some 0 := by decide +kernel
/-- R29: the overflowing division. -/
theorem test_div_overflow : after (exec (.divDivuRemRemu (.core 0) (fR 0x01 3 1 2 0x13)) (operands (BitVec.ofInt 64 (-2 ^ 63)) (-1))) (fun t => (t.core 0).thr.getG 3) =
    some (BitVec.ofInt 64 (-2 ^ 63)) := by decide +kernel
/-- R29: the remainder by zero. -/
theorem test_rem_zero : after (exec (.divDivuRemRemu (.core 0) (fR 0x01 3 1 2 0x15)) (operands 7 0)) (fun t => (t.core 0).thr.getG 3) = some 7 := by decide +kernel
/-- R30: 1.5 + 2.25 in binary64. -/
theorem test_fadd : after (exec (.faddFsubFmulFdiv (.core 0) (fR 0x30 3 1 2 0x01)) (core0 (fun c => { c with thr := { c.thr with f := [(1, 0x3FF8000000000000), (2, 0x4002000000000000)] } })))
    (fun t => (t.core 0).thr.getF 3) = some 0x400E000000000000 := by decide +kernel
/-- R40: JALR clears the two low bits of its target and links the next instruction. -/
theorem test_jalr : after (exec (.jalr (.core 0) (fR 0x22 3 1 0 0)) (operands 0x1007 0)) (fun t => ((t.core 0).thr.pc, (t.core 0).thr.getG 3)) = some (0x1004, 4) := by decide +kernel
/-- R49: UPCALL at M is cause 11, taken at M. -/
theorem test_upcall : after (exec (.upcall (.core 0) (fR 0x38 0 0 0 1)) up) (fun t => ((t.core 0).whyM, bits (t.core 0).state 0 2)) = some (11, 2) := by decide +kernel
/-- R326: a doorbell of a busy mailbox sets OVERRUN. -/
theorem test_overrun : after (exec (.mbDoorbell .ext 0 8 1) (up.setFld .mbStatus 0 0 24 1 1)) (fun t => t.fld .mbStatus 0 0 26 1) = some 1 := by decide +kernel
/-- R390: EN of a port is 0 after its disable, and it drains. -/
theorem test_portDisable : after (exec (.pciPortDisable .ext 1) up) (fun t => (t.fld .pciPortCtrl 1 0 0 1, t.fld .pciPortStatus 1 0 10 1)) = some (0, 1) := by decide +kernel
/-- R352: above 65 V the module may be damaged. -/
theorem test_damaged : exec (.surgeStart 65001) up = .fault .damaged := by rfl
/-- R368: the first boot step of a module with power. -/
theorem test_boot : after (step { State.reset with pending := [.bootStep []] }) (fun t => t.pwr.phase) = some (.boot 2) := by decide +kernel

/- The words of the table have no bits. -/
theorem test_noWord : decodeTableWord 32 0 = none ∧ (State.reset.withFetchWord 32 0).pending = [] := by decide

/- Inputs that meet the hypotheses of the statements. -/

/-- A word of each integer row (R28, R29). -/
def intWords : List IWord :=
  [fR 0x01 3 1 2 0x00, fR 0x01 3 1 2 0x06, fR 0x01 3 1 2 0x0A, fR 0x01 3 1 2 0x10, fR 0x01 3 1 2 0x13, fR 0x01 3 1 2 0x18,
   fR 0x01 3 1 0 0x20, fR 0x01 3 1 2 0x28, fR 0x01 3 0 0 0x30, fR 0x01 0 1 0 0x31, fR 0x02 3 1 0 5, fR 0x06 3 1 0 5, fJ 0x07 3 9,
   fJ 0x08 3 9, fJ 0x09 3 9, fR 0x0A 3 1 0 5, fR 0x24 1 1 2 0, fR 0x25 1 1 0 5, fJ 0x27 1 0]
theorem witness_integer : ∀ iw ∈ intWords, ∃ op row, intRow op = some row ∧ CoreAt up 0 iw op ∧
    (∃ x s2, issued up (.core 0) iw = some (x, op, s2)) ∧ ∃ x s2, issued gs (.grp 0 0) iw = some (x, op, s2) := by
  have h : intWords.all (rowMeets intRow) = true := by decide +kernel
  exact fun iw hi => of_rowMeets (List.all_eq_true.mp h iw hi)

/-- A word of each floating row (R20, R30, R41). -/
def floatWords : List IWord :=
  [fR 0x30 3 1 2 0x00, fR 0x30 3 1 0 0x08, fR 0x30 3 1 2 0x0A, fR 0x30 3 1 2 0x0E, fR 0x30 3 1 0 0x16, fR 0x30 3 1 0 0x18,
   fR 0x30 3 1 0 0x1C, fR 0x30 3 1 0 0x20, fR 0x30 3 1 0 0x22, fR 0x30 3 1 0 0x24, fR 0x31 3 1 2 0x10, fR 0x32 3 1 2 0x10,
   fR 0x26 1 1 2 0, fR 0x38 3 0 0 5, fR 0x38 0 1 0 6]
theorem witness_floating : ∀ iw ∈ floatWords, ∃ op row, floatRow op = some row ∧ CoreAt up 0 iw op ∧
    (∃ x s2, issued up (.core 0) iw = some (x, op, s2)) ∧ ∃ x s2, issued gs (.grp 0 0) iw = some (x, op, s2) := by
  have h : floatWords.all (rowMeets floatRow) = true := by decide +kernel
  exact fun iw hi => of_rowMeets (List.all_eq_true.mp h iw hi)
theorem witness_clocks : (∃ x s2, issued gs (.grp 0 0) (fR 0x38 3 0 0 3) = some (x, .rdclk 3, s2)) ∧
    ∃ x s2, issued gs (.grp 0 0) (fR 0x38 3 0 0 4) = some (x, .rdft 3, s2) :=
  ⟨issues_some (by decide +kernel), issues_some (by decide +kernel)⟩

theorem witness_control : ∀ iw ∈ [fR 0x20 0x21 0 0 3, fJ 0x21 3 7, fR 0x22 3 1 0 8, fR 0x38 0 0 0 7], ∃ op row, jumpRow op = some row ∧
    CoreAt up 0 iw op ∧ (∃ x s2, issued up (.core 0) iw = some (x, op, s2)) ∧ ∃ x s2, issued gs (.grp 0 0) iw = some (x, op, s2) := by
  have h : [fR 0x20 0x21 0 0 3, fJ 0x21 3 7, fR 0x22 3 1 0 8, fR 0x38 0 0 0 7].all (fun iw => match (decodeI iw).op with
      | none => false
      | some op => (jumpRow op).isSome && coreAt up 0 iw op && issues up (.core 0) iw == some op &&
          issues gs (.grp 0 0) iw == some op) = true := by decide +kernel
  intro iw hi
  have h1 := List.all_eq_true.mp h iw hi
  split at h1
  · cases h1
  rename_i op _
  simp only [Bool.and_eq_true, beq_iff_eq] at h1
  obtain ⟨⟨⟨h1, h2⟩, h3⟩, h4⟩ := h1
  obtain ⟨row, h1⟩ := Option.isSome_iff_exists.mp h1
  exact ⟨op, row, h1, coreAt_iff h2, issues_some h3, issues_some h4⟩

/-- Core 0 has a store error to report. -/
def storeErr : State := core0 (fun c => { c with serr := [{ va := 64 }] })
/-- Core 0 runs at U with the inter-core interrupt pending and enabled. -/
def ipiAtU : State := core0 (fun c => { c with state := 0, ipi := true, irqEn := 4 })
theorem witness_traps : (∃ x s2, issued up (.core 0) (fR 0x38 0 0 0 1) = some (x, .upcall, s2) ∧ (s2.core 0).tagged = none) ∧
    (∃ x s2, issued up (.core 0) (fR 0x38 0 0 0 2) = some (x, .dbgtrap, s2)) ∧
    (storeErr.atBoundary (.core 0) = true ∧ (storeErr.core 0).serr = [{ va := 64 }]) ∧
    (ipiAtU.atBoundary (.core 0) = true ∧ (ipiAtU.core 0).serr = [] ∧ ipiAtU.irqOn 0 ≠ [] ∧ ipiAtU.lvl 0 = 0) := by
  refine ⟨?_, issues_some (by decide +kernel), by decide +kernel, by decide +kernel⟩
  obtain ⟨x, s2, h⟩ := issues_some (s := up) (u := .core 0) (iw := fR 0x38 0 0 0 1) (op := .upcall) (by decide +kernel)
  refine ⟨x, s2, h, ?_⟩
  have h2 : ((issued up (.core 0) (fR 0x38 0 0 0 1)).all (fun r => (r.2.2.core 0).tagged.isNone)) = true := by decide +kernel
  rw [h] at h2
  simpa using h2

/-- A core fetches an instruction of that operation. -/
theorem fetched_some {s : State} {n : Nat} {iw : IWord} {op : Op} (h : (fetched s n iw op).isSome = true) :
    ∃ x s1, fetched s n iw op = some (x, s1) := by
  obtain ⟨⟨x, s1⟩, h⟩ := Option.isSome_iff_exists.mp h
  exact ⟨x, s1, h⟩
theorem witness_privilege :
    (∃ x s1, fetched (atLevel 0) 0 (fR 0x3E 0 0 0 0) .tret = some (x, s1) ∧ s1.lvl 0 = 0) ∧
    (∃ x s1, fetched (atLevel 1) 0 (fR 0x3E 0 1 0 0x42) (.cmo .inval 1) = some (x, s1) ∧ s1.lvl 0 ≠ 2) ∧
    (∃ x s1, fetched up 0 (fG 0x20 0 0 0 0) .gbar = some (x, s1)) ∧
    (∃ x s1, fetched (atLevel 1) 0 (fJ 0x3C 3 0x108) (.mfsys 3 0x108) = some (x, s1) ∧ sysMin 0x108 = some 2 ∧ s1.lvl 0 < 2) ∧
    (∃ x s1, fetched up 0 (fJ 0x3C 3 0x200) (.mfsys 3 0x200) = some (x, s1) ∧ sysMin 0x200 = none) ∧
    (∃ x s1, fetched (atLevel 1) 0 (fR 0x3D 0 1 1 8) (.mtsys 1 0x108) = some (x, s1) ∧ sysReadOnly 0x108 = false ∧ s1.lvl 0 < 2) ∧
    (∃ x s1, fetched up 0 (fJ 0x3D 0 0x20) (.mtsys 0 0x20) = some (x, s1) ∧ sysReadOnly 0x20 = true) := by
  have lv {s : State} {n : Nat} {iw : IWord} {op : Op} {l : Nat} (h : ((fetched s n iw op).any (fun r => r.2.lvl 0 == l)) = true) :
      ∃ x s1, fetched s n iw op = some (x, s1) ∧ s1.lvl 0 = l := by
    match hf : fetched s n iw op with
    | none => rw [hf] at h; cases h
    | some (x, s1) => rw [hf] at h; exact ⟨x, s1, rfl, by simpa using h⟩
  have a1 : ((fetched (atLevel 0) 0 (fR 0x3E 0 0 0 0) .tret).any (fun r => r.2.lvl 0 == 0)) = true := by decide +kernel
  have a2 : ((fetched (atLevel 1) 0 (fR 0x3E 0 1 0 0x42) (.cmo .inval 1)).any (fun r => r.2.lvl 0 == 1)) = true := by decide +kernel
  have a4 : ((fetched (atLevel 1) 0 (fJ 0x3C 3 0x108) (.mfsys 3 0x108)).any (fun r => r.2.lvl 0 == 1)) = true := by decide +kernel
  have a6 : ((fetched (atLevel 1) 0 (fR 0x3D 0 1 1 8) (.mtsys 1 0x108)).any (fun r => r.2.lvl 0 == 1)) = true := by decide +kernel
  obtain ⟨x2, s2, h2, l2⟩ := lv a2
  obtain ⟨x4, s4, h4, l4⟩ := lv a4
  obtain ⟨x6, s6, h6, l6⟩ := lv a6
  obtain ⟨x3, s3, h3⟩ := fetched_some (s := up) (n := 0) (iw := fG 0x20 0 0 0 0) (op := .gbar) (by decide +kernel)
  obtain ⟨x5, s5, h5⟩ := fetched_some (s := up) (n := 0) (iw := fJ 0x3C 3 0x200) (op := .mfsys 3 0x200) (by decide +kernel)
  obtain ⟨x7, s7, h7⟩ := fetched_some (s := up) (n := 0) (iw := fJ 0x3D 0 0x20) (op := .mtsys 0 0x20) (by decide +kernel)
  exact ⟨lv a1, ⟨x2, s2, h2, by omega⟩, ⟨x3, s3, h3⟩, ⟨x4, s4, h4, by decide, by omega⟩, ⟨x5, s5, h5, by decide⟩,
    ⟨x6, s6, h6, by decide, by omega⟩, ⟨x7, s7, h7, by decide⟩⟩

theorem witness_sysRegisters : (∀ e ∈ sysReads up 0, CoreAt up 0 (fJ 0x3C 3 e.1) (.mfsys 3 e.1)) ∧
    (∀ e ∈ sysWrites (up.core 0) 0, CoreAt up 0 (fJ 0x3D 0 e.1) (.mtsys 0 e.1)) ∧ CoreAt up 0 (fJ 0x3D 0 0) (.mtsys 0 0) := by
  have h1 : (sysReads up 0).all (fun e => coreAt up 0 (fJ 0x3C 3 e.1) (.mfsys 3 e.1)) = true := by decide +kernel
  have h2 : (sysWrites (up.core 0) 0).all (fun e => coreAt up 0 (fJ 0x3D 0 e.1) (.mtsys 0 e.1)) = true := by decide +kernel
  exact ⟨fun e h => coreAt_iff (List.all_eq_true.mp h1 e h), fun e h => coreAt_iff (List.all_eq_true.mp h2 e h),
    coreAt_iff (by decide +kernel)⟩

theorem witness_levels : (∃ x s2, issued up (.core 0) (fR 0x3E 0 0 0 0) = some (x, .tret, s2)) ∧ CoreAt up 0 (fR 0x3E 0 0 0 1) .idle ∧
    ((core0 (fun c => { c with idle := some 0 })).core 0).idle = some 0 ∧ CoreAt up 0 (fR 0x3E 0 1 0 2) (.ipi 1) ∧
    (((core0 (fun c => { c with irqEn := 1 })).core 0).alarm.toNat ≤ (core0 (fun c => { c with irqEn := 1 })).now ∧
      bit ((core0 (fun c => { c with irqEn := 1 })).core 0).irqEn 0 = true) :=
  ⟨issues_some (by decide +kernel), coreAt_iff (by decide +kernel), by decide +kernel, coreAt_iff (by decide +kernel), by decide +kernel⟩

/-- A package TLBI of core 0 that has not taken effect. -/
def tlbiOut : State := { up with tlbi := [(0, { n := 0, k := 0 })] }
theorem witness_tlb : (∀ k, k < 4 → CoreAt up 0 (fR 0x3E 0 0 0 (0x30 + k)) (.tlbi k true 0 0) ∧ CoreAt up 0 (fR 0x3E 0 0 0 (0x10 + k)) (.tlbi k false 0 0)) ∧
    (CoreAt up 0 (fR 0x3E 0 0 0 8) .tlbsync ∧ ∀ e ∈ up.tlbi, e.2.n = 0 → up.tlbiDone e.2 = true) ∧
    (CoreAt tlbiOut 0 (fR 0x3E 0 0 0 8) .tlbsync ∧ (0, ({ n := 0, k := 0 } : TlbiS)) ∈ tlbiOut.tlbi ∧ tlbiOut.tlbiDone { n := 0, k := 0 } = false) ∧
    tlbiOut.tlbi.find? 0 = some { n := 0, k := 0 } := by
  refine ⟨fun k hk => ?_, ⟨coreAt_iff (by decide +kernel), by decide +kernel⟩, ⟨coreAt_iff (by decide +kernel), by decide +kernel⟩, by decide +kernel⟩
  have h : ∀ k, k < 4 → (coreAt up 0 (fR 0x3E 0 0 0 (0x30 + k)) (.tlbi k true 0 0) && coreAt up 0 (fR 0x3E 0 0 0 (0x10 + k)) (.tlbi k false 0 0)) = true := by
    decide +kernel
  have h1 := h k hk
  simp only [Bool.and_eq_true] at h1
  exact ⟨coreAt_iff h1.1, coreAt_iff h1.2⟩

/-- The checks of an instruction that returns data, as the statements name them. -/
def checks (s2 : State) (u : Agent) (x : UCtx) (r : MemRow) : TAll :=
  (if r.kind = .ll then s2.mapThr x (fun t => { t with resv := none }) else s2).checkAll x r.k (laneAddr s2 u r.a r.off) x.act
/-- An instruction's lanes pass, and its lines lie in local memory. -/
def asks (s : State) (u : Agent) (iw : IWord) : Bool :=
  match issued s u iw with
  | none => false
  | some (x, op, s2) => match memRow op with
    | none => false
    | some r => match checks s2 u x r with
      | .ok _ l => lineReqs r.hint l != [] && (lineReqs r.hint l).all (fun y => y.mem == .cached || y.mem == .nc)
      | _ => false
theorem of_asks {s : State} {u : Agent} {iw : IWord} (h : asks s u iw = true) : ∃ op r x s2 s3 l, memRow op = some r ∧
    issued s u iw = some (x, op, s2) ∧ checks s2 u x r = .ok s3 l ∧ lineReqs r.hint l ≠ [] ∧ (∀ y ∈ lineReqs r.hint l, y.mem = .cached ∨ y.mem = .nc) := by
  unfold asks at h
  split at h
  · cases h
  rename_i x op s2 hi
  split at h
  · cases h
  rename_i r hr
  split at h
  · rename_i s3 l hl
    simp only [Bool.and_eq_true, bne_iff_ne, List.all_eq_true, Bool.or_eq_true, beq_iff_eq] at h
    exact ⟨op, r, x, s2, s3, l, hr, hi, hl, h.1, h.2⟩
  · cases h
/-- A lane fails a check. -/
def denies (s : State) (u : Agent) (iw : IWord) : Bool :=
  match issued s u iw with
  | none => false
  | some (x, op, s2) => match memRow op with
    | none => false
    | some r => match checks s2 u x r with
      | .bad _ => true
      | _ => false
theorem of_denies {s : State} {u : Agent} {iw : IWord} (h : denies s u iw = true) : ∃ op r x s2 s3, memRow op = some r ∧
    issued s u iw = some (x, op, s2) ∧ checks s2 u x r = .bad s3 := by
  unfold denies at h
  split at h
  · cases h
  rename_i x op s2 hi
  split at h
  · cases h
  rename_i r hr
  split at h
  · rename_i s3 hl
    exact ⟨op, r, x, s2, s3, hr, hi, hl⟩
  · cases h

/-- A word of each row that returns data, an atomic with a release among them; the three CMO forms are privileged. -/
def memWords : List IWord :=
  [fR 0x10 3 1 0x30 0, fR 0x11 3 1 0x20 0, fR 0x13 3 1 0x30 0, fR 0x15 3 1 0 0x4A, fR 0x16 3 1 2 4, fR 0x16 3 1 2 0x84, fR 0x17 3 1 2 0,
   fR 0x18 3 1 2 4, fR 0x19 3 1 0 0]
def cmoWords : List IWord := [fR 0x3E 0 1 0 0x40, fR 0x3E 0 1 0 0x41, fR 0x3E 0 1 0 0x42]
/-- Core 0 holds a store to line 0, and a store to a device. -/
def storing : State := { up with sb := [(0, { u := .core 0, mem := .cached, line := 0, mask := 1 }), (1, { u := .core 0, mem := .nc, line := 5, mask := 1, sent := true })],
                                 ctr := { up.ctr with sid := 2 } }
/-- Register g1 of core 0 holds an odd address. -/
def odd : State := core0 (fun c => { c with thr := { c.thr with g := [(1, 1)] } })
theorem witness_requests : ∀ iw ∈ memWords ++ cmoWords, ∃ op r x s2 s3 l, memRow op = some r ∧ issued up (.core 0) iw = some (x, op, s2) ∧
    checks s2 (.core 0) x r = .ok s3 l ∧ lineReqs r.hint l ≠ [] ∧ (∀ y ∈ lineReqs r.hint l, y.mem = .cached ∨ y.mem = .nc) := by
  have h : (memWords ++ cmoWords).all (asks up (.core 0)) = true := by decide +kernel
  exact fun iw hi => of_asks (List.all_eq_true.mp h iw hi)
theorem witness_requests_wait : ∃ op r x s2 s3 l, memRow op = some r ∧ issued storing (.core 0) (fR 0x16 3 1 2 0x84) = some (x, op, s2) ∧
    checks s2 (.core 0) x r = .ok s3 l ∧ lineReqs r.hint l ≠ [] ∧ (∀ y ∈ lineReqs r.hint l, y.mem = .cached ∨ y.mem = .nc) := of_asks (by decide +kernel)
theorem witness_requests_group : ∀ iw ∈ memWords, ∃ op r x s2 s3 l, memRow op = some r ∧ issued gs (.grp 0 0) iw = some (x, op, s2) ∧
    checks s2 (.grp 0 0) x r = .ok s3 l ∧ lineReqs r.hint l ≠ [] ∧ (∀ y ∈ lineReqs r.hint l, y.mem = .cached ∨ y.mem = .nc) := by
  have h : memWords.all (asks gs (.grp 0 0)) = true := by decide +kernel
  exact fun iw hi => of_asks (List.all_eq_true.mp h iw hi)
theorem witness_checks : ∀ iw ∈ [fR 0x15 3 1 0 0x4A, fR 0x16 3 1 2 4, fR 0x19 3 1 0 0], ∃ op r x s2 s3, memRow op = some r ∧
    issued odd (.core 0) iw = some (x, op, s2) ∧ checks s2 (.core 0) x r = .bad s3 := by
  have h : [fR 0x15 3 1 0 0x4A, fR 0x16 3 1 2 4, fR 0x19 3 1 0 0].all (denies odd (.core 0)) = true := by decide +kernel
  exact fun iw hi => of_denies (List.all_eq_true.mp h iw hi)

theorem witness_stores_core : (CoreAt up 0 (fR 0x12 2 1 0x30 0) (.store false 3 2 1 0 0 0 0) ∧ CoreAt up 0 (fR 0x14 2 1 0x30 0) (.store true 3 2 1 0 0 0 0) ∧
      CoreAt up 0 (fR 0x15 2 1 0 7) (.ostore 3 2 1 0 0 0 0) ∧ CoreAt up 0 (fR 0x1B 0 1 0 2) (.zerol 1)) ∧
    isLocal (laneAddr up (.core 0) 1 0 0) = true ∧ laneAddr up (.core 0) 1 0 0 % 128 + 128 ≤ 128 ∧ up.sbUsed (.core 0) < 64 ∧
    (∀ e ∈ up.sbOf (.core 0), e.2.line ≠ laneAddr up (.core 0) 1 0 0 / 128 ∧ (e.2.mem = .cached ∨ e.2.sent = true)) :=
  ⟨⟨coreAt_iff (by decide +kernel), coreAt_iff (by decide +kernel), coreAt_iff (by decide +kernel), coreAt_iff (by decide +kernel)⟩,
    by decide +kernel⟩

/-- What a store in a unit's words asks: the size of its access, its address register and offset, and its hint. -/
def stArgs : Op → Option (Nat × Bool × Nat × Int × Nat)
  | .store _ size _ a off hint ord _ | .ostore size _ a off hint ord _ => some (2 ^ size, ord != 0, a, off, hint)
  | .zerol a => some (128, false, a, 0, 0)
  | _ => none
/-- A store's lanes pass their checks, and the buffer has room for it or not. -/
def stores (room : Bool) (s : State) (u : Agent) (iw : IWord) : Bool :=
  match issued s u iw with
  | none => false
  | some (x, op, s2) => match stArgs op with
    | none => false
    | some (n, ord, a, off, hint) =>
      match s2.checkAll x { need := .store, size := n, ordered := ord, excl := false } (laneAddr s2 u a off) x.act with
      | .ok s3 l => s3.sbRoom x.u (instrStores s3 x hint (fun _ => 0) l) == room
      | _ => false
theorem of_stores {room : Bool} {s : State} {u : Agent} {iw : IWord} (h : stores room s u iw = true) : ∃ x op s2 s3 l n ord a off hint,
    issued s u iw = some (x, op, s2) ∧ stArgs op = some (n, ord, a, off, hint) ∧
    s2.checkAll x { need := .store, size := n, ordered := ord, excl := false } (laneAddr s2 u a off) x.act = .ok s3 l ∧
    s3.sbRoom x.u (instrStores s3 x hint (fun _ => 0) l) = room := by
  unfold stores at h
  split at h
  · cases h
  rename_i x op s2 hi
  split at h
  · cases h
  rename_i n ord a off hint ha
  split at h
  · rename_i s3 l hl
    exact ⟨x, op, s2, s3, l, n, ord, a, off, hint, hi, ha, hl, by simpa using h⟩
  · cases h
/-- Plain stores, an ordered one with and without a release, and ZERO.L at a line's first byte. -/
def storeWords : List IWord := [fR 0x12 2 1 0x30 0, fR 0x14 2 1 0x30 0, fR 0x15 2 1 0 7, fR 0x15 2 1 0 0x8F, fR 0x1B 0 1 0 2]
/-- Core 0 holds as many stores as it may. -/
def full : State := { up with sb := (upTo 64).map (fun i => (i, { u := .core 0, mem := .cached, line := i + 1, mask := 1 })) }
theorem witness_stores : (∀ iw ∈ storeWords, ∃ x op s2 s3 l n ord a off hint, issued gs (.grp 0 0) iw = some (x, op, s2) ∧
      stArgs op = some (n, ord, a, off, hint) ∧
      s2.checkAll x { need := .store, size := n, ordered := ord, excl := false } (laneAddr s2 (.grp 0 0) a off) x.act = .ok s3 l ∧
      s3.sbRoom x.u (instrStores s3 x hint (fun _ => 0) l) = true) ∧
    (∀ iw ∈ storeWords, ∃ x op s2 s3 l n ord a off hint, issued full (.core 0) iw = some (x, op, s2) ∧
      stArgs op = some (n, ord, a, off, hint) ∧
      s2.checkAll x { need := .store, size := n, ordered := ord, excl := false } (laneAddr s2 (.core 0) a off) x.act = .ok s3 l ∧
      s3.sbRoom x.u (instrStores s3 x hint (fun _ => 0) l) = false) := by
  have h : storeWords.all (stores true gs (.grp 0 0)) = true := by decide +kernel
  have h2 : storeWords.all (stores false full (.core 0)) = true := by decide +kernel
  exact ⟨fun iw hi => of_stores (List.all_eq_true.mp h iw hi), fun iw hi => of_stores (List.all_eq_true.mp h2 iw hi)⟩

/-- Core 0 holds a reservation on line 0, in a loop that conforms. -/
def reserved : State := core0 (fun c => { c with thr := { c.thr with resv := some 0, llOk := true, scSince := 0 } })
theorem witness_sc : (CoreAt up 0 (fR 0x19 3 1 2 1) (.sc 3 1 2 0 0 0 0) ∧ isLocal (laneAddr up (.core 0) 1 0 0) = true ∧ laneAddr up (.core 0) 1 0 0 % 8 = 0) ∧
    (∃ x s2 s3 tr, issued reserved (.core 0) (fR 0x19 3 1 2 1) = some (x, .sc 3 1 2 0 0 0 0, s2) ∧
      s2.checkAll x { need := .store, size := 8, ordered := true, excl := true, llsc := true } (laneAddr s2 (.core 0) 1 0) x.act = .ok s3 [tr] ∧
      (tr.dev = false ∧ tr.p1.mem = .cached ∧ tr.a.lane = 0 ∧ tr.a.touches = [tr.a.pa / 128] ∧ (s3.core 0).thr.resv = some (tr.a.pa / 128) ∧
       (s3.core 0).thr.llOk = true ∧ (s3.core 0).thr.llLen + 1 ≤ 16 ∧ (s3.core 0).thr.scSince < 16 ∧
       (∀ e ∈ s3.sbOf (.core 0), e.2.line ≠ tr.a.pa / 128))) := by
  refine ⟨⟨coreAt_iff (by decide +kernel), by decide +kernel, by decide +kernel⟩, ?_⟩
  obtain ⟨x, s2, h⟩ := issues_some (s := reserved) (u := .core 0) (iw := fR 0x19 3 1 2 1) (op := .sc 3 1 2 0 0 0 0) (by decide +kernel)
  have h2 : (issued reserved (.core 0) (fR 0x19 3 1 2 1)).all (fun r =>
      match r.2.2.checkAll r.1 { need := .store, size := 8, ordered := true, excl := true, llsc := true } (laneAddr r.2.2 (.core 0) 1 0) r.1.act with
      | .ok s3 [tr] => decide (tr.dev = false ∧ tr.p1.mem = .cached ∧ tr.a.lane = 0 ∧ tr.a.touches = [tr.a.pa / 128] ∧ (s3.core 0).thr.resv = some (tr.a.pa / 128) ∧
       (s3.core 0).thr.llOk = true ∧ (s3.core 0).thr.llLen + 1 ≤ 16 ∧ (s3.core 0).thr.scSince < 16 ∧
       (∀ e ∈ s3.sbOf (.core 0), e.2.line ≠ tr.a.pa / 128))
      | _ => false) = true := by decide +kernel
  rw [h] at h2
  simp only [Option.all_some] at h2
  split at h2
  · rename_i s3 tr hl
    exact ⟨x, s2, s3, tr, h, hl, of_decide_eq_true h2⟩
  · cases h2

theorem witness_fences : ∀ e ∈ [(fR 0x1A 0 0 0 0x18, Op.fence 0 3), (fR 0x1A 0 0 0 0x58, .fence 1 3), (fR 0x1A 0 0 0 0x98, .fence 2 3), (fR 0x1A 0 0 0 0xC0, .fenceIo), (fR 0x1A 0 0 0 0xC1, .fenceI)],
    CoreAt up 0 e.1 e.2 ∧ (fenceRow up (.core 0) e.2).map (·.2.1) = some [] ∧ CoreAt storing 0 e.1 e.2 ∧
    (e.2 = .fence 1 3 ∨ (fenceRow storing (.core 0) e.2).map (·.2.1) ≠ some []) ∧ ∃ x s2, issued gs (.grp 0 0) e.1 = some (x, e.2, s2) := by
  have h : [(fR 0x1A 0 0 0 0x18, Op.fence 0 3), (fR 0x1A 0 0 0 0x58, .fence 1 3), (fR 0x1A 0 0 0 0x98, .fence 2 3), (fR 0x1A 0 0 0 0xC0, .fenceIo), (fR 0x1A 0 0 0 0xC1, .fenceI)].all
      (fun e => coreAt up 0 e.1 e.2 && decide ((fenceRow up (.core 0) e.2).map (·.2.1) = some []) && coreAt storing 0 e.1 e.2 &&
        decide (e.2 = .fence 1 3 ∨ (fenceRow storing (.core 0) e.2).map (·.2.1) ≠ some []) && issues gs (.grp 0 0) e.1 == some e.2) = true := by decide +kernel
  intro e he
  have h1 := List.all_eq_true.mp h e he
  simp only [Bool.and_eq_true, beq_iff_eq, decide_eq_true_eq] at h1
  obtain ⟨⟨⟨⟨a, b⟩, c⟩, d⟩, f⟩ := h1
  exact ⟨coreAt_iff a, b, coreAt_iff c, d, issues_some f⟩

theorem witness_prefetch : (CoreAt up 0 (fR 0x1B 0 1 0 0) (.pf false 1) ∧ CoreAt up 0 (fR 0x1B 0 1 0 1) (.pf true 1)) ∧
    isLocal (laneAddr up (.core 0) 1 0 0) = true := ⟨⟨coreAt_iff (by decide +kernel), coreAt_iff (by decide +kernel)⟩, by decide +kernel⟩

/-- A load of core 0 waits for line 0. -/
def loading : PendOp := { u := .core 0, kind := .load 8 true false, rd := 3, accs := [{ size := 8 }], lines := [{ line := 0, mem := .cached }] }
def waits : State := { up with ops := [(0, loading)] }
/-- A store of core 0 has left for a device, and a fence awaits it and another store. -/
def leaving : State := { up with sb := [(0, { u := .core 0, mem := .mmio, line := 5, mask := 1, sent := true, va := 640 })] }
def fencing : State := { leaving.setCore 0 { leaving.core 0 with barrier := some { sids := [0, 1], adv := 4 } } with now := 0 }
theorem witness_answers : (isMmio 0 = false ∧ (waits.core 0).tagged = none ∧ waits.ops.find? 0 = some loading ∧
      loading.lines.map (fun r => (r.line, r.st, r.mem, r.lane)) = [(0, 0, .cached, none)]) ∧
    (leaving.sb.find? 0 = some { u := .core 0, mem := .mmio, line := 5, mask := 1, sent := true, va := 640 } ∧
      leaving.barrierOf (.core 0) = none ∧ leaving.fld .serrStatus 0 0 0 1 = 0) ∧
    (fencing.sb.find? 0 = some { u := .core 0, mem := .mmio, line := 5, mask := 1, sent := true, va := 640 } ∧
      fencing.barrierOf (.core 0) = some { sids := [0, 1], adv := 4 }) := by decide +kernel

/-- What a group issues, with a test of the operation, the group, the lanes and the state. -/
def grpAt (s : State) (iw : IWord) (p : Op → Group → UCtx → State → Bool) : Bool :=
  match issued s (.grp 0 0) iw with
  | none => false
  | some (x, op, s2) => match s2.grp 0 0 with
    | none => false
    | some g => p op g x s2
theorem of_grpAt {s : State} {iw : IWord} {p : Op → Group → UCtx → State → Bool} (h : grpAt s iw p = true) :
    ∃ x op s2 g, issued s (.grp 0 0) iw = some (x, op, s2) ∧ s2.grp 0 0 = some g ∧ p op g x s2 = true := by
  unfold grpAt at h
  split at h
  · cases h
  rename_i x op s2 hi
  split at h
  · cases h
  rename_i g hg
  exact ⟨x, op, s2, g, hi, hg, h⟩
/-- The same for a statement about one operation. -/
theorem of_grpAt_op {s : State} {iw : IWord} {o : Op} {p : Group → UCtx → State → Bool}
    (h : grpAt s iw (fun op g x s2 => op == o && p g x s2) = true) :
    ∃ x s2 g, issued s (.grp 0 0) iw = some (x, o, s2) ∧ s2.grp 0 0 = some g ∧ p g x s2 = true := by
  obtain ⟨x, op, s2, g, h1, h2, h3⟩ := of_grpAt h
  simp only [Bool.and_eq_true, beq_iff_eq] at h3
  exact ⟨x, s2, g, h3.1 ▸ h1, h2, h3.2⟩

/-- A debugger is attached; a store of the group has failed. -/
def debugged : State := { gs with cp := { attach := true } }
def grpErr : State := grp0 (fun g => { g with serr := [{ va := 64 }] })
theorem witness_groupTraps : (∃ x s2 g, issued gs (.grp 0 0) (fR 0x38 0 0 0 1) = some (x, .upcall, s2) ∧ s2.grp 0 0 = some g ∧ true = true) ∧
    (∃ x s2 g, issued debugged (.grp 0 0) (fR 0x38 0 0 0 2) = some (x, .dbgtrap, s2) ∧ s2.grp 0 0 = some g ∧ s2.cp.attach = true) ∧
    (∃ x s2 g, issued gs (.grp 0 0) (fR 0x38 0 0 0 2) = some (x, .dbgtrap, s2) ∧ s2.grp 0 0 = some g ∧ (!s2.cp.attach) = true) ∧
    ((Agent.grp 0 0).wf = true ∧ grpErr.atBoundary (.grp 0 0) = true ∧ (grpErr.grp 0 0).map (·.serr) = some [{ va := 64 }]) :=
  ⟨of_grpAt_op (p := fun _ _ _ => true) (by decide +kernel), of_grpAt_op (p := fun _ _ s2 => s2.cp.attach) (by decide +kernel),
    of_grpAt_op (p := fun _ _ s2 => !s2.cp.attach) (by decide +kernel), by decide +kernel⟩

/-- A word of each exchange, vote and fold over the whole group, and one over a segment that is too wide. -/
def segWords : List IWord :=
  [fG 0 0 3 1 2, fG 1 1 3 1 0, fG 2 1 3 1 0, fG 3 1 3 1 0, fG 4 1 3 1 0, fG 0x10 8 0 0 0, fG 0x11 8 0 0 0, fG 0x12 1 3 0 0, fG 0x13 0 3 0 0,
   fG 0x14 8 0 0 0, fG 0x15 1 3 0 0, fG 0x18 0 3 1 0, fG 0x19 0 3 1 0, fG 0x1A 0 3 1 0, fG 0x1B 0 3 1 0, fG 0x1C 0 3 1 0, fG 0x1D 0 3 1 0]
theorem witness_lanes : (∀ iw ∈ segWords, ∃ x op s2 g, issued gs (.grp 0 0) iw = some (x, op, s2) ∧ s2.grp 0 0 = some g ∧
      ((segRow op).any (fun r => (if r.2.1 = 0 then g.width else 2 ^ r.2.1) ≤ g.width) && 0 < g.width) = true) ∧
    ∃ x op s2 g, issued gs (.grp 0 0) (fG 0x1D 0x100 3 1 0) = some (x, op, s2) ∧ s2.grp 0 0 = some g ∧
      ((segRow op).any (fun r => (if r.2.1 = 0 then g.width else 2 ^ r.2.1) > g.width)) = true := by
  have h : segWords.all (fun iw => grpAt gs iw (fun op g _ _ =>
      (segRow op).any (fun r => (if r.2.1 = 0 then g.width else 2 ^ r.2.1) ≤ g.width) && 0 < g.width)) = true := by decide +kernel
  exact ⟨fun iw hi => of_grpAt (List.all_eq_true.mp h iw hi), of_grpAt (p := fun op g _ _ => (segRow op).any (fun r => (if r.2.1 = 0 then g.width else 2 ^ r.2.1) > g.width)) (by decide +kernel)⟩

theorem witness_barriers : (∃ x s2, issued gs (.grp 0 0) (fG 0x20 0 0 0 0) = some (x, .gbar, s2)) ∧
    (∃ x s2, issued gs (.grp 0 0) (fG 0x21 0 0 0 0) = some (x, .tbar, s2)) ∧ ∃ g, gs.grp 0 0 = some g :=
  ⟨issues_some (by decide +kernel), issues_some (by decide +kernel), ⟨_, rfl⟩⟩

/-- A group of 16 lanes with a fragment bound in registers 0 to 15. -/
def mat : State := grp0 (fun g => { g with width := 16, lanes := List.replicate 16 {}, bind := some ⟨0, 16, 0, 2, []⟩ })
/-- The group has met at its instruction, and no channel holds its engine. -/
def metAt (s : State) (g : Group) (x : UCtx) (s2 : State) (p : Group → Bool) : Bool :=
  (match s.fetchAll x false with | (.ok s0, false) => (s0.tagIssue x).converged x | _ => false) &&
  (s2.eng (portEngine 0 0)).owner.isNone && !s2.mstElsewhere 0 0 && p g
theorem of_metAt {s : State} {g : Group} {x : UCtx} {s2 : State} {p : Group → Bool} (h : metAt s g x s2 p = true) :
    (∀ s0, s.fetchAll x false = (.ok s0, false) → (s0.tagIssue x).converged x = true) ∧ (s2.eng (portEngine 0 0)).owner = none ∧
    s2.mstElsewhere 0 0 = false ∧ p g = true := by
  simp only [metAt, Bool.and_eq_true, Option.isNone_iff_eq_none, Bool.not_eq_true'] at h
  obtain ⟨⟨⟨h1, h2⟩, h4⟩, h3⟩ := h
  refine ⟨fun s0 hs => ?_, h2, h4, h3⟩
  rw [hs] at h1
  exact h1
theorem witness_matrix :
    (∃ x s2 g, issued mat (.grp 0 0) (fG 0x40 0x100 0 0 0) = some (x, .mlds 0 2 0, s2) ∧ s2.grp 0 0 = some g ∧
      metAt mat g x s2 (fun g => g.width != 8 && 0 + 2048 / 8 / g.width ≤ g.fn) = true) ∧
    (∃ x s2 g, issued mat (.grp 0 0) (fG 0x41 0x100 16 48 0) = some (x, .mma false 0 2 false 16 48, s2) ∧ s2.grp 0 0 = some g ∧
      metAt mat g x s2 (fun g => mmaOk (.mma false 0 2 false 16 48) g && g.bind.isSome) = true) ∧
    (∃ x s2 g, issued mat (.grp 0 0) (fG 0x42 0x140 16 48 0) = some (x, .mma true 0 2 true 16 48, s2) ∧ s2.grp 0 0 = some g ∧
      metAt mat g x s2 (fun g => mmaOk (.mma true 0 2 true 16 48) g && g.bind.isSome) = true) ∧
    (∃ x s2 g, issued mat (.grp 0 0) (fG 0x43 0x100 16 1 2) = some (x, .mst 0 2 false false false 16 1 2, s2) ∧ s2.grp 0 0 = some g ∧
      metAt mat g x s2 (fun g => g.width != 8 && mstOut 2 false && 16 + 4096 / 8 / g.width ≤ g.fn &&
        ((g.lane 0).thr.getG 1).toNat % (eltBits 2 / 8) == 0 && ((g.lane 0).thr.getG 2).toNat % (eltBits 2 / 8) == 0) = true) :=
  ⟨of_grpAt_op (p := fun g x s2 => metAt mat g x s2 _) (by decide +kernel), of_grpAt_op (p := fun g x s2 => metAt mat g x s2 _) (by decide +kernel),
    of_grpAt_op (p := fun g x s2 => metAt mat g x s2 _) (by decide +kernel), of_grpAt_op (p := fun g x s2 => metAt mat g x s2 _) (by decide +kernel)⟩

/-- The last row of an MST at an address: what its pieces meet. -/
def lanes16 (act : List Nat) : UCtx := ⟨.grp 0 0, 0, 8, upTo 16, act, fG 0x43 0x100 16 1 2⟩
def matFull : State := { mat with sb := (upTo 128).map (fun i => (i, { u := .grp 0 0, mem := .cached, line := i + 1, mask := 1 })) }
/-- The pieces of the row pass, and the buffer has room for them or not. -/
def rowStores (room : Bool) (s : State) : Bool :=
  match mstPieces s (lanes16 (upTo 16)) 0 2 (cutLines 0 64) with
  | .ok s1 l => s1.sbRoom (.grp 0 0) (mstStores s1 (lanes16 (upTo 16)) 0 l 0) == room
  | _ => false
theorem of_rowStores {room : Bool} {s : State} (h : rowStores room s = true) : ∃ s1 l, mstPieces s (lanes16 (upTo 16)) 0 2 (cutLines 0 64) = .ok s1 l ∧
    s1.sbRoom (.grp 0 0) (mstStores s1 (lanes16 (upTo 16)) 0 l 0) = room := by
  unfold rowStores at h
  split at h
  · rename_i s1 l hp
    exact ⟨s1, l, hp, by simpa using h⟩
  · cases h
theorem witness_rows : ((mat.grp 0 0).isSome = true ∧ (matFull.grp 0 0).isSome = true) ∧
    ((rowLanes 16 32 31).any (fun j => !(lanes16 []).act.elem j) = true ∧ mat.sbRoom (.grp 0 0) [] = true) ∧
    (rowLanes 16 32 31).all (fun j => (lanes16 (upTo 16)).act.elem j) = true ∧
    (∃ s1 g1, mstPieces mat (lanes16 (upTo 16)) 0 2 (cutLines (2 ^ 57) 64) = .bad s1 ∧ s1.grp 0 0 = some g1) ∧
    (∃ s1 l, mstPieces mat (lanes16 (upTo 16)) 0 2 (cutLines 0 64) = .ok s1 l ∧ s1.sbRoom (.grp 0 0) (mstStores s1 (lanes16 (upTo 16)) 0 l 0) = true) ∧
    (∃ s1 l, mstPieces matFull (lanes16 (upTo 16)) 0 2 (cutLines 0 64) = .ok s1 l ∧ s1.sbRoom (.grp 0 0) (mstStores s1 (lanes16 (upTo 16)) 0 l 0) = false) := by
  have h1 : (match mstPieces mat (lanes16 (upTo 16)) 0 2 (cutLines (2 ^ 57) 64) with | .bad s1 => (s1.grp 0 0).isSome | _ => false) = true := by decide +kernel
  refine ⟨by decide +kernel, by decide +kernel, by decide +kernel, ?_, of_rowStores (by decide +kernel), of_rowStores (by decide +kernel)⟩
  split at h1
  · rename_i s1 hp
    obtain ⟨g1, hg⟩ := Option.isSome_iff_exists.mp h1
    exact ⟨s1, g1, hp, hg⟩
  · cases h1

/-- Lane 1 of the group stands elsewhere. -/
def apart : State := grp0 (fun g => { g with width := 16, lanes := (upTo 16).map (fun i => { thr := { pc := if i = 1 then 64 else 0 } }) })
theorem witness_convergence : ∀ iw ∈ [fG 0x40 0x100 0 0 0, fG 0x41 0x100 16 48 0, fG 0x43 0x100 16 1 2],
    ∃ x op s2 s0, issued apart (.grp 0 0) iw = some (x, op, s2) ∧ apart.fetchAll x false = (.ok s0, false) ∧ (s0.tagIssue x).converged x = false := by
  have h : [fG 0x40 0x100 0 0 0, fG 0x41 0x100 16 48 0, fG 0x43 0x100 16 1 2].all (fun iw => match issued apart (.grp 0 0) iw with
      | none => false
      | some (x, _, _) => match apart.fetchAll x false with
        | (.ok s0, false) => !(s0.tagIssue x).converged x
        | _ => false) = true := by decide +kernel
  intro iw hi
  have h1 := List.all_eq_true.mp h iw hi
  split at h1
  · cases h1
  rename_i x op s2 hx
  split at h1
  · rename_i s0 hf
    exact ⟨x, op, s2, s0, hx, hf, by simpa using h1⟩
  · cases h1

/-- Channel 0 runs; slot 0 is FULL; slot 0 is FILLING. -/
def running : State := gs.setFld .tsChStatus 0 0 0 2 1
def slotIs (st : Nat) : State := gs.setSlot 0 0 { st := st }
theorem witness_channels :
    (∃ x s2 g, issued gs (.grp 0 0) (fG 0x60 0 3 1 0) = some (x, .schStart 0 3 1, s2) ∧ s2.grp 0 0 = some g ∧
      (decide (s2.relStores (.grp 0 0) 1 = []) && !s2.chanBusy 0 0) = true) ∧
    (∃ x s2 g, issued running (.grp 0 0) (fG 0x60 0 3 1 0) = some (x, .schStart 0 3 1, s2) ∧ s2.grp 0 0 = some g ∧
      (decide (s2.relStores (.grp 0 0) 1 = []) && s2.chanBusy 0 0) = true) ∧
    (∃ x s2 g, issued running (.grp 0 0) (fG 0x61 8 0 0 0) = some (x, .schPost 0 1, s2) ∧ s2.grp 0 0 = some g ∧
      (decide (s2.relStores (.grp 0 0) 1 = []) && !s2.frozen 0 0) = true) ∧
    (∃ x s2 g, issued running (.grp 0 0) (fG 0x62 0 0 0 0) = some (x, .schWait 0 0, s2) ∧ s2.grp 0 0 = some g ∧ true = true) ∧
    (∃ x s2 g, issued (grp0 (fun g => { g with lanes := List.replicate 8 { thr := { g := [(1, 5)] } } })) (.grp 0 0) (fG 0x62 0 0 1 0) =
        some (x, .schWait 0 1, s2) ∧ s2.grp 0 0 = some g ∧
      (decide (s2.fld .tsChCount 0 0 0 32 < ((g.lane ((x.act.head?).getD 0)).thr.getG 1).toNat)) = true) ∧
    (∃ x s2 g, issued gs (.grp 0 0) (fG 0x66 0 3 0 0) = some (x, .schStat 0 3, s2) ∧ s2.grp 0 0 = some g ∧ true = true) :=
  ⟨of_grpAt_op (p := fun _ _ s2 => decide (s2.relStores (.grp 0 0) 1 = []) && !s2.chanBusy 0 0) (by decide +kernel),
   of_grpAt_op (p := fun _ _ s2 => decide (s2.relStores (.grp 0 0) 1 = []) && s2.chanBusy 0 0) (by decide +kernel),
   of_grpAt_op (p := fun _ _ s2 => decide (s2.relStores (.grp 0 0) 1 = []) && !s2.frozen 0 0) (by decide +kernel),
   of_grpAt_op (p := fun _ _ _ => true) (by decide +kernel),
   of_grpAt_op (p := fun g x s2 => decide (s2.fld .tsChCount 0 0 0 32 < ((g.lane ((x.act.head?).getD 0)).thr.getG 1).toNat)) (by decide +kernel),
   of_grpAt_op (p := fun _ _ _ => true) (by decide +kernel)⟩
theorem witness_tiles :
    (∃ x s2 g, issued gs (.grp 0 0) (fG 0x63 0x101 0 0 0) = some (x, .tfence 1 1, s2) ∧ s2.grp 0 0 = some g ∧
      ((g.lane ((x.act.head?).getD 0)).await.isNone && s2.twr.isEmpty) = true) ∧
    (∃ x s2 g, issued (slotIs 2) (.grp 0 0) (fG 0x64 0x10 3 0 0) = some (x, .tsRd 1 true 3 0, s2) ∧ s2.grp 0 0 = some g ∧
      (decide (s2.tsLines g 0 1 3 = some (0, 0)) && (s2.slot 0 0).st == 2 && !(s2.slot 0 0).bad 0) = true) ∧
    (∃ x s2 g, issued gs (.grp 0 0) (fG 0x64 0 3 0 0) = some (x, .tsRd 1 false 3 0, s2) ∧ s2.grp 0 0 = some g ∧
      (decide (s2.tsLines g 0 1 3 = some (0, 0)) && (s2.slot 0 0).st != 2) = true) ∧
    (∃ x s2 g, issued gs (.grp 0 0) (fG 0x65 0x10 0 0 3) = some (x, .tsWr 1 true 0 3, s2) ∧ s2.grp 0 0 = some g ∧
      (decide (s2.tsLines g 0 1 3 = some (0, 0)) && (s2.slot 0 0).st != 1) = true) :=
  ⟨of_grpAt_op (p := fun g x s2 => (g.lane ((x.act.head?).getD 0)).await.isNone && s2.twr.isEmpty) (by decide +kernel),
   of_grpAt_op (p := fun g _ s2 => decide (s2.tsLines g 0 1 3 = some (0, 0)) && (s2.slot 0 0).st == 2 && !(s2.slot 0 0).bad 0) (by decide +kernel),
   of_grpAt_op (p := fun g _ s2 => decide (s2.tsLines g 0 1 3 = some (0, 0)) && (s2.slot 0 0).st != 2) (by decide +kernel),
   of_grpAt_op (p := fun g _ s2 => decide (s2.tsLines g 0 1 3 = some (0, 0)) && (s2.slot 0 0).st != 1) (by decide +kernel)⟩

/-- Mailbox 1 holds SYS_DELEGATE, which it may not issue; mailbox 0 holds SYS_NOP with a flag, and FW_GRANT_IN on a module
without an auxiliary die. -/
def denied : State := mbHas 1 3 [] up
def flagged : State := mbHas 0 (1 + 2 ^ 16) [] up
def siteless : State := setR .fwStatus 0 0 0 (mbHas 0 0x720 [] up)
theorem witness_mailboxChecks :
    (MailboxRow .sysDelegate 3 (denied.mbox 1) ∧ (denied.mbox 1).busy = true ∧ (denied.mbox 1).opcode = 3 ∧ denied.mayRun 1 3 = false) ∧
    (MailboxRow .sysNop 1 (flagged.mbox 0) ∧ (flagged.mbox 0).opcode = 1 ∧ flagged.mayRun 0 1 = true ∧ (flagged.mbox 0).flags ≠ 0) ∧
    (AuxRow .fwGrantIn 0x720 (siteless.mbox 0) ∧ (siteless.mbox 0).opcode = 0x720 ∧ (siteless.mbox 0).busy = true ∧
      siteless.fld .fwStatus 0 0 0 1 = 0) := by
  refine ⟨⟨?_, by decide +kernel⟩, ⟨?_, by decide +kernel⟩, ⟨?_, by decide +kernel⟩⟩
  · simp [MailboxRow]
  · simp [MailboxRow]
  · simp [AuxRow]

/-- Queue 0 has a ring of 64 packets at 64 KiB, and its doorbell stands at b. -/
def queue (b : Nat) (f : Queue → Queue := id) : State :=
  { setR .dqDoorbell 0 0 (BitVec.ofNat 64 b) up with queues := [(0, f { ring := 0x10000, ridxAddr := 0x20000 })] }
theorem witness_doorbells :
    ((queue 1).queues.find? 0 = some { ring := 0x10000, ridxAddr := 0x20000 } ∧ (queue 1).fld .dqStatus 0 0 0 1 = 1 ∧
      ((queue 1).reg .dqDoorbell 0 0).toNat < (2 : Word).toNat ∧ (2 : Word).toNat ≤ ((queue 1).reg .dqRidx 0 0).toNat + 2 ^ 6) ∧
    ((queue 1).reg .dqRidx 0 0).toNat + 2 ^ 6 < (65 : Word).toNat ∧
    ((setR .dqStatus 0 0 0 (queue 1)).queues.find? 0 = some { ring := 0x10000, ridxAddr := 0x20000 } ∧
      (setR .dqStatus 0 0 0 (queue 1)).fld .dqStatus 0 0 0 1 = 0) ∧
    (1 : Word).toNat ≤ ((queue 1).reg .dqDoorbell 0 0).toNat ∧ up.queues.find? 0 = none ∧
    (∀ s ∈ [queue 1, setR .dqStatus 0 0 0 (queue 1), up], s.reach .ext (regAddr .dqDoorbell 0 0) = .ok) := by decide +kernel

/-- The slot holds a packet: a KERNEL of one team of one group of eight lanes, a BARRIER, a bad one, none. -/
def kernel : Nat := 1 + 1 * 2 ^ 24 + 1 * 2 ^ 32 + 0xFF * 2 ^ 56 + 1 * 2 ^ 64 + 1 * 2 ^ 96 + 1 * 2 ^ 112 + 0x1000 * 2 ^ 128
def slotOf (head : Nat) : State :=
  { queue 1 with mem := ((upTo 128).map (fun i => ((0x10000 + i, BitVec.ofNat 8 (head / 2 ^ (8 * i))) : Nat × Byte))).filter (fun c => c.2 != 0) }
/-- The slot is read, and the packet is consumed at once. -/
def slotB (s : State) (p : Line → Bool) (done : Bool) : Bool :=
  match s.queues.find? 0 with
  | none => false
  | some x => s.pwr.phase == .on && s.fld .dqStatus 0 0 0 1 == 1 && x.cur.isNone && (s.reg .dqRidx 0 0).toNat < (s.reg .dqDoorbell 0 0).toNat &&
    match s.ncRead (x.ring / 128 + (s.reg .dqRidx 0 0).toNat % 2 ^ x.log2) 1 with
    | .ok s1 d false => p d && (!done ||
        (let l := launchOfPacket 0 (s.reg .dqRidx 0 0).toNat x d
         let s2 : State := { s1 with ctr := { s1.ctr with lid := s1.ctr.lid + 1 } }
         ((s2.setLaunch s1.ctr.lid (if packetOk d then l else { l with bad := true, ended := true, barrier := false, compl := if l.compl % 8 = 0 then l.compl else 0 })).consume
           0 x s1.ctr.lid).isSome))
    | _ => false
theorem of_slotB {s : State} {p : Line → Bool} {done : Bool} (h : slotB s p done = true) : ∃ x s1 d, slotReads s 0 x s1 d ∧ p d = true ∧
    (done = true → ∃ t, (({ s1 with ctr := { s1.ctr with lid := s1.ctr.lid + 1 } } : State).setLaunch s1.ctr.lid
      (if packetOk d then launchOfPacket 0 (s.reg .dqRidx 0 0).toNat x d else { launchOfPacket 0 (s.reg .dqRidx 0 0).toNat x d with bad := true, ended := true, barrier := false, compl := if (launchOfPacket 0 (s.reg .dqRidx 0 0).toNat x d).compl % 8 = 0 then (launchOfPacket 0 (s.reg .dqRidx 0 0).toNat x d).compl else 0 })).consume
        0 x s1.ctr.lid = some t) := by
  unfold slotB at h
  split at h
  · cases h
  rename_i x hx
  simp only [Bool.and_eq_true, beq_iff_eq, Option.isNone_iff_eq_none, decide_eq_true_eq] at h
  obtain ⟨⟨⟨⟨h1, h2⟩, h3⟩, h4⟩, h5⟩ := h
  split at h5
  · rename_i s1 d hr
    simp only [Bool.and_eq_true, Bool.or_eq_true, Bool.not_eq_true'] at h5
    refine ⟨x, s1, d, ⟨hx, h1, h2, h3, h4, hr⟩, h5.1, fun hd => ?_⟩
    rcases h5.2 with h6 | h6
    · rw [hd] at h6; cases h6
    · exact Option.isSome_iff_exists.mp h6
  · cases h5
theorem witness_packets :
    (∃ x s1 d, slotReads (slotOf 0) 0 x s1 d ∧ (lineBytes d 0 2 % 16 == 0) = true) ∧
    (∃ x s1 d, slotReads (slotOf kernel) 0 x s1 d ∧ (packetOk d && lineBytes d 0 2 % 16 == 1) = true) ∧
    (slotB (slotOf (kernel + 1)) (fun d => packetOk d && lineBytes d 0 2 % 16 == 2) true = true) ∧
    (slotB (slotOf 1) (fun d => !packetOk d && lineBytes d 0 2 % 16 != 0) true = true) := by
  have a : slotB (slotOf 0) (fun d => lineBytes d 0 2 % 16 == 0) false = true := by decide +kernel
  have b : slotB (slotOf kernel) (fun d => packetOk d && lineBytes d 0 2 % 16 == 1) false = true := by decide +kernel
  obtain ⟨x, s1, d, h, hp, _⟩ := of_slotB a
  obtain ⟨x', s1', d', h', hp', _⟩ := of_slotB b
  exact ⟨⟨x, s1, d, h, hp⟩, ⟨x', s1', d', h', hp'⟩, by decide +kernel, by decide +kernel⟩

/-- A launch of n teams whose queue is being served. -/
def launching (n : Nat) : State :=
  { queue 1 (fun x => { x with cur := some 0 }) with launches := [(0, { groups := 1, gregs := 1, diemask := 1, tx := n })] }
/-- The same, with core 0 disabled. -/
def coreLess : State := (launching 2).setCoreS 0 { disabled := true }
theorem groups_fold {α : Type} (c : Nat) (k : α → Nat) (f : α → Group) (l : List α) (s : State) :
    l.foldl (fun s e => s.setGrp c (k e) (f e)) s = { s with grps := l.foldl (fun m e => NMap.set m (gkey c (k e)) (f e)) s.grps } := by
  induction l generalizing s with
  | nil => rfl
  | cons e r ih => rw [List.foldl_cons, ih]; rfl
theorem witness_teamStart :
    ((launching 2).pwr.phase = .on ∧ (launching 2).fits 0 ((launching 2).launchOf 0) = true ∧ (bestQueue ((launching 2).startable 0)).map (fun e => (e.1, e.2.cur)) = some (0, some 0) ∧
      (((launching 2).startTeam 0 0).launchOf 0).started ≠ (((launching 2).startTeam 0 0).launchOf 0).total) ∧
    (coreLess.fits 0 (coreLess.launchOf 0) = false ∧ (bestQueue (coreLess.startable 0)).map (fun e => (e.1, e.2.cur)) = some (0, some 0)) ∧
    ((launching 1).fits 0 ((launching 1).launchOf 0) = true ∧ (bestQueue ((launching 1).startable 0)).map (fun e => (e.1, e.2.cur)) = some (0, some 0) ∧
      (((launching 1).startTeam 0 0).launchOf 0).started = (((launching 1).startTeam 0 0).launchOf 0).total ∧
      (((launching 1).startTeam 0 0).consume 0 { ring := 0x10000, ridxAddr := 0x20000, cur := some 0 } 0).isSome = true) := by
  unfold State.startTeam
  dsimp only
  rw [groups_fold, groups_fold]
  decide +kernel

/-- A launch is over; it has a completion word at 4 KiB where c is that address. -/
def finished (c : Nat) : State :=
  { gs with grps := [], teams := [], launches := [(0, { compl := c, consumed := true, started := 1, rel := 0 })], queues := [(0, {})] }
theorem witness_completion :
    (List.find? (fun (e : Nat × Launch) => e.2.q = 0 && e.2.pkt = 0) (finished 0).launches = some (0, { consumed := true, started := 1 }) ∧
      (finished 0).launchOver 0 { consumed := true, started := 1 } = true ∧ (finished 0).complDie = some 0) ∧
    ((finished 4096).launchOver 0 { compl := 4096, consumed := true, started := 1 } = true ∧ (finished 4096).complDie = some 0 ∧
      ∃ s1 pa h w lf s2 dd pp, (finished 4096).translate (.cd (64 * 0) ((finished 4096).asidOf 0)) .store 4096 = .ok s1 pa false h w lf ∧
        s1.memKind pa false = .cached ∧ s1.ncPut pa (leBytes 8 0) 1 = .ok s2 dd pp) := by
  have h : (match (finished 4096).translate (.cd (64 * 0) ((finished 4096).asidOf 0)) .store 4096 with
      | .ok s1 pa false _ _ _ => s1.memKind pa false == .cached && (match s1.ncPut pa (leBytes 8 0) 1 with | .ok .. => true | _ => false)
      | _ => false) = true := by decide +kernel
  refine ⟨by decide +kernel, by decide +kernel, by decide +kernel, ?_⟩
  split at h
  · rename_i s1 pa hh w lf ht
    simp only [Bool.and_eq_true, beq_iff_eq] at h
    obtain ⟨h1, h2⟩ := h
    split at h2
    · rename_i s2 dd pp hp
      exact ⟨s1, pa, hh, w, lf, s2, dd, pp, ht, h1, hp⟩
    · cases h2
  · cases h

theorem witness_disableEnds :
    ((queue 0 (fun x => { x with drainEnd := some 0 })).queues.find? 0 = some { ring := 0x10000, ridxAddr := 0x20000, drainEnd := some 0 }) ∧
    (((up.setCoreS 0 { drainEnd := some 0 }).coreS 0).drainEnd = some 0 ∧ (up.setCoreS 0 { drainEnd := some 0 }).teamsOn 0 = []) := by decide +kernel

/-- DQ_CREATE in mailbox 0; the other commands of queue 0 and of core 0. -/
def creating : State := mbHas 0 0x201 [(4, 0), (8, 0x10000), (0x10, 0x20000), (0x18, 6), (0x1C, 1), (0x20, 100)] up
def stopped : State := setR .dqStatus 0 0 0 (queue 0)
theorem witness_queueCommands :
    (Ready creating 0 0x201 [(4, 2), (6, 1), (7, 1), (8, 8), (0x10, 8), (0x18, 1), (0x1A, 2), (0x1C, 1), (0x20, 4)] ∧ creating.memOk = true ∧
      argOf creating 0 4 2 < 1024 ∧ argOf creating 0 6 1 ≤ 7 ∧ argOf creating 0 7 1 ≤ 1 ∧ 6 ≤ argOf creating 0 0x18 1 ∧ argOf creating 0 0x18 1 ≤ 16 ∧
      argOf creating 0 8 8 % 128 = 0 ∧ argOf creating 0 0x10 8 % 8 = 0 ∧ localRange (argOf creating 0 8 8) (128 * 2 ^ argOf creating 0 0x18 1) = true ∧
      localRange (argOf creating 0 0x10 8) 8 = true ∧ argOf creating 0 8 8 + 128 * 2 ^ argOf creating 0 0x18 1 ≤ argOf creating 0 0x10 8 ∧
      argOf creating 0 0x1C 1 ≤ 63 ∧ argOf creating 0 0x20 4 ≤ 1000000 ∧ creating.queues.has (argOf creating 0 4 2) = false ∧
      creating.freeQueue = some 0 ∧ ∃ s1 d p, creating.ncPut (argOf creating 0 0x10 8) (leBytes 8 0) 1 = .ok s1 d p) ∧
    (Ready (mbHas 0 0x202 [(8, 0xFFFFFFFF)] (queue 0)) 0 0x202 [(4, 2), (8, 4)] ∧ (queue 0).fld .dqStatus 0 0 0 1 = 1 ∧
      argOf (mbHas 0 0x202 [(8, 0xFFFFFFFF)] (queue 0)) 0 8 4 = 0xFFFFFFFF) ∧
    (Ready (mbHas 0 0x203 [] stopped) 0 0x203 [(4, 2)] ∧ (mbHas 0 0x203 [] stopped).fld .dqStatus 0 0 0 1 = 0 ∧ (mbHas 0 0x203 [] stopped).fld .dqStatus 0 0 2 1 = 0) ∧
    (Ready (mbHas 0 0x204 [] stopped) 0 0x204 [(4, 2)] ∧ stopped.queues.has 0 = true) ∧
    (Ready (mbHas 0 0x205 [] (queue 0)) 0 0x205 [(4, 2)] ∧ (queue 0).queues.has 0 = true) := by
  have h : (match creating.ncPut (argOf creating 0 0x10 8) (leBytes 8 0) 1 with | .ok .. => true | _ => false) = true := by decide +kernel
  refine ⟨⟨ready_iff (by decide +kernel), by decide +kernel, by decide +kernel, by decide +kernel, by decide +kernel, by decide +kernel, by decide +kernel,
      by decide +kernel, by decide +kernel, by decide +kernel, by decide +kernel, by decide +kernel, by decide +kernel, by decide +kernel,
      by decide +kernel, by decide +kernel, ?_⟩,
    ⟨ready_iff (by decide +kernel), by decide +kernel⟩, ⟨ready_iff (by decide +kernel), by decide +kernel⟩,
    ⟨ready_iff (by decide +kernel), by decide +kernel⟩, ⟨ready_iff (by decide +kernel), by decide +kernel⟩⟩
  split at h
  · rename_i s1 d p hp
    exact ⟨s1, d, p, hp⟩
  · cases h

def coreOff : State := up.setCoreS 0 { disabled := true }
theorem witness_coreControl :
    (Ready (mbHas 0 0x206 [(8, 5)] up) 0 0x206 [(4, 2), (6, 1), (8, 4)] ∧ argOf (mbHas 0 0x206 [(8, 5)] up) 0 6 1 = 0 ∧
      ((mbHas 0 0x206 [(8, 5)] up).coreS 0).disabled = false) ∧
    (Ready (mbHas 0 0x206 [(6, 1)] coreOff) 0 0x206 [(4, 2), (6, 1), (8, 4)] ∧ argOf (mbHas 0 0x206 [(6, 1)] coreOff) 0 6 1 = 1 ∧
      ((mbHas 0 0x206 [(6, 1)] coreOff).coreS 0).disabled = true ∧ ((mbHas 0 0x206 [(6, 1)] coreOff).coreS 0).drainEnd = none) :=
  ⟨⟨ready_iff (by decide +kernel), by decide +kernel⟩, ⟨ready_iff (by decide +kernel), by decide +kernel⟩⟩

/-- Core 0 of compute die 0 runs a program on channel 0, in the team of gs. -/
def chan0 (x : Chan) (slots : NMap TSlot := []) : State :=
  setR .tsChStatus 0 0 1 { gs with cores := [(0, { chans := [(0, { x with team := some 0 })], slots := slots })] }
/-- Its next descriptor, which its cluster cache holds: OP, flags, COUNT, SLOT, SLOTN, FMT, HINT, ADDR and P0 of R130. -/
def descNum (op flags count slotn adr p0 : Nat) : Nat := op + flags * 2 ^ 8 + count * 2 ^ 16 + slotn * 2 ^ 40 + adr * 2 ^ 64 + p0 * 2 ^ 352
def desc0 (v : Nat) (f : Chan → Chan := id) : State := (chan0 (f { pc := 0x1000 })).setCline 0 32 { st := .S, data := BitVec.ofNat 1024 v }
def linearDesc : Nat := descNum 1 0 1 4 0x20000 0
def loopDesc : Nat := descNum 0x13 0 3 0 0x1000 0
def endDesc : Nat := descNum 0x1F 0 0 0 0 0

def descB (s : State) (p : State → Line → Bool) : Bool :=
  s.chanRuns 0 0 && !(s.chan 0 0).ending && !(s.chan 0 0).stall.elem 1 && (s.chan 0 0).pc % 64 == 0 &&
  match s.chanXlate 0 0 (s.chan 0 0).pc (s.chan 0 0).pc 1 with
  | .ok s1 pa dev _ _ => (s1.memKind pa dev == .cached || s1.memKind pa dev == .nc) &&
    (match s1.agentRead 0 (pa / 128) 6 with
     | .ok s2 d false => p s2 d
     | _ => false)
  | _ => false
theorem of_descB {s : State} {p : State → Line → Bool} (h : descB s p = true) : ∃ s2 d, descLine s 0 0 s2 d ∧ p s2 d = true := by
  unfold descB at h
  simp only [Bool.and_eq_true, Bool.not_eq_true', beq_iff_eq] at h
  obtain ⟨⟨⟨⟨h1, h2⟩, h3⟩, h4⟩, h5⟩ := h
  split at h5
  · rename_i s1 pa dev hh w hx
    simp only [Bool.and_eq_true, Bool.or_eq_true, beq_iff_eq] at h5
    obtain ⟨h6, h7⟩ := h5
    split at h7
    · rename_i s2 d hr
      exact ⟨s2, d, ⟨by decide, by decide, h1, h2, h3, h4, s1, pa, dev, hh, w, hx, h6, hr⟩, h7⟩
    · cases h7
  · cases h5
/-- What the descriptor of a line is, and whether it passes the checks. -/
def descGood (s2 : State) (l : Line) (good : Bool) (p : Desc → Bool) : Bool :=
  let x2 := s2.chan 0 0
  let d0 := parseDesc l x2.pc x2.i0 x2.i1
  let d := { d0 with ord := x2.ord + 1, n0 := x2.cnt.get 0 x2.pc }
  let tiles := match x2.team with | some tid => (s2.teams.get {} tid).tiles | none => 0
  d.ok (lineBytes l (x2.pc % 128 + 56) 8) tiles (s2.launchOf x2.lid).remote x2.bound == good && p d
theorem witness_descriptors :
    (∃ s2 d, descLine (desc0 0) 0 0 s2 d ∧ descGood s2 d false (fun _ => true) = true) ∧
    (∃ s2 d, descLine (desc0 endDesc) 0 0 s2 d ∧ descGood s2 d true (fun e => e.op == 0x1F) = true) ∧
    (∃ s2 d, descLine (desc0 loopDesc) 0 0 s2 d ∧ descGood s2 d true (fun e => e.op == 0x13) = true) ∧
    (∃ s2 d, descLine (desc0 linearDesc) 0 0 s2 d ∧ descGood s2 d true (fun e => e.isMem && accUsed (s2.chan 0 0).acc < 16) = true) ∧
    (∃ s2 d, descLine (desc0 linearDesc (fun x => { x with acc := List.replicate 16 { op := 1, count := 1 } })) 0 0 s2 d ∧
      descGood s2 d true (fun e => e.isMem && 16 ≤ accUsed (s2.chan 0 0).acc) = true) :=
  ⟨of_descB (by decide +kernel), of_descB (by decide +kernel), of_descB (by decide +kernel), of_descB (by decide +kernel), of_descB (by decide +kernel)⟩

/-- A tile read and a tile write of a LINEAR and of a GATHER descriptor may issue. -/
def tile0 (op : Nat) (write : Bool) : State :=
  chan0 { acc := [{ op := op, count := 1, slotn := 1, flags := write.toNat, adr := if op = 4 then 0 else 0x20000 }] } (if write then [(0, { st := 2 })] else [])
def tileB (s : State) (write : Bool) (d : Desc) : Bool :=
  s.chanRuns 0 0 && !(s.chan 0 0).stall.elem (if write then 3 else 2) && nextMem write (s.chan 0 0).acc == some d &&
  (if write then (s.slot 0 (s.tileSlot 0 0 d)).st == 2 && s.twr.isEmpty
   else (s.slot 0 (s.tileSlot 0 0 d)).st == 0 && s.coreInflight 0 < 96 && s.inflight 0 0 < s.fld .tsChCtrl 0 0 0 7)
theorem of_tileB {s : State} {write : Bool} {d : Desc} (h : tileB s write d = true) : tileNext s 0 0 write d := by
  simp only [tileB, Bool.and_eq_true, Bool.not_eq_true', beq_iff_eq] at h
  obtain ⟨⟨⟨h1, h2⟩, h3⟩, h4⟩ := h
  refine ⟨by decide, by decide, h1, h2, h3, ?_⟩
  cases write with
  | true =>
    simp only [if_true, Bool.and_eq_true, beq_iff_eq, List.isEmpty_iff] at h4
    refine ⟨h4.1, fun e he => ?_⟩
    rw [h4.2] at he
    cases he
  | false =>
    simp only [Bool.false_eq_true, if_false, Bool.and_eq_true, beq_iff_eq, decide_eq_true_eq] at h4
    exact ⟨h4.1.1, h4.1.2, h4.2⟩
theorem witness_issue :
    (∃ d, tileNext (tile0 1 false) 0 0 false d ∧ d.op ≠ 4 ∧ ∃ r, (tile0 1 false).planTile 0 0 d false = .inr r) ∧
    (∃ d, tileNext (tile0 4 false) 0 0 false d ∧ d.op = 4) ∧
    (∃ d, tileNext (tile0 1 true) 0 0 true d ∧ d.op ≠ 4 ∧ ∃ r, (tile0 1 true).planTile 0 0 d true = .inr r) ∧
    (∃ d, tileNext (tile0 4 true) 0 0 true d ∧ d.op = 4) := by
  have plan (w : Bool) (d : Desc) (h : (match (tile0 1 w).planTile 0 0 d w with | .inr _ => true | _ => false) = true) :
      ∃ r, (tile0 1 w).planTile 0 0 d w = .inr r := by
    split at h
    · rename_i r hr
      exact ⟨r, hr⟩
    · cases h
  exact ⟨⟨{ op := 1, count := 1, slotn := 1, flags := 0, adr := 0x20000 }, of_tileB (by decide +kernel), by decide, plan _ _ (by decide +kernel)⟩,
    ⟨{ op := 4, count := 1, slotn := 1, flags := 0 }, of_tileB (by decide +kernel), by decide⟩,
    ⟨{ op := 1, count := 1, slotn := 1, flags := 1, adr := 0x20000 }, of_tileB (by decide +kernel), by decide, plan _ _ (by decide +kernel)⟩,
    ⟨{ op := 4, count := 1, slotn := 1, flags := 1 }, of_tileB (by decide +kernel), by decide⟩⟩

/-- Tile 7 of two lines is being read, line 1 has come, until 1 us; tile 9 is being written. -/
def reading : State := { chan0 {} [(0, { st := 1 })] with trd := [(7, { nln := 3, got := [1], deadline := 1000 })] }
def readingLast : State := { chan0 {} [(0, { st := 1 })] with trd := [(7, { nln := 2, got := [1], deadline := 0 })] }
def writing (l : List Nat) : State := { chan0 {} [(0, { st := 2 })] with twr := [(9, { free := true, left := l })] }
theorem witness_tileTurns (p : Msg → Bool) (l : List Nat) : reading.inTurn p = true ∧ readingLast.inTurn p = true ∧ (writing l).inTurn p = true :=
  ⟨quiet_turn rfl p, quiet_turn rfl p, quiet_turn rfl p⟩
theorem witness_lines :
    (reading.trd.find? 7 = some { nln := 3, got := [1], deadline := 1000 } ∧ [1].elem 0 = false ∧ [1].length + 1 < 3) ∧
    (readingLast.trd.find? 7 = some { nln := 2, got := [1], deadline := 0 } ∧ [1].elem 0 = false ∧ [1].length + 1 = 2) ∧
    (reading.trd.find? 8 = none ∧ [1].elem 1 = true) ∧
    (List.find? (fun (e : Nat × TileRd) => e.2.c = 0 && e.2.slot = 0) readingLast.trd = some (7, { nln := 2, got := [1], deadline := 0 }) ∧ 0 ≤ readingLast.now) ∧
    (List.find? (fun (e : Nat × TileRd) => e.2.c = 0 && e.2.slot = 0) reading.trd = some (7, { nln := 3, got := [1], deadline := 1000 }) ∧ reading.now < 1000) ∧
    ((writing [0, 1]).twr.find? 9 = some { free := true, left := [0, 1] } ∧ [0, 1].elem 0 = true ∧ [0, 1].any (fun i => i ≠ 0) = true) ∧
    ((writing [0]).twr.find? 9 = some { free := true, left := [0] } ∧ [0].elem 0 = true ∧ [0].any (fun i => i ≠ 0) = false) := by decide +kernel

/-- A synchronising descriptor has been reached, with an earlier write still open where `w`. -/
def syncing (op : Nat) (w : Bool) (p1 : Nat) : State :=
  chan0 { acc := (if w then [{ op := 1, flags := 1, count := 1, k := 1, ord := 1 }] else []) ++ [{ op := op, ord := 2, p1 := p1 }], exe := [{ op := op, ord := 2, p1 := p1 }] }
theorem witness_sync :
    ((syncing 0x11 false 0).chanRuns 0 0 = true ∧ reachedSync ((syncing 0x11 false 0).chan 0 0) 0x11 = some { op := 0x11, ord := 2 } ∧
      earlierDone ((syncing 0x11 false 0).chan 0 0) { op := 0x11, ord := 2 } = true) ∧
    (reachedSync ((syncing 0x11 true 0).chan 0 0) 0x11 = some { op := 0x11, ord := 2 } ∧
      earlierDone ((syncing 0x11 true 0).chan 0 0) { op := 0x11, ord := 2 } = false) ∧
    ((syncing 0x10 false 0).chanRuns 0 0 = true ∧ reachedSync ((syncing 0x10 false 0).chan 0 0) 0x10 = some { op := 0x10, ord := 2 } ∧
      earlierDone ((syncing 0x10 false 0).chan 0 0) { op := 0x10, ord := 2 } = true) ∧
    ((syncing 0x12 false 0).chanRuns 0 0 = true ∧ reachedSync ((syncing 0x12 false 0).chan 0 0) 0x12 = some { op := 0x12, ord := 2 } ∧
      0 ≤ (syncing 0x12 false 0).fld .tsChCount 0 0 32 32) ∧
    (reachedSync ((syncing 0x12 false 1).chan 0 0) 0x12 = some { op := 0x12, ord := 2, p1 := 1 } ∧ (syncing 0x12 false 1).fld .tsChCount 0 0 32 32 < 1) ∧
    ((chan0 { ending := true }).chanRuns 0 0 = true ∧ ((chan0 { ending := true }).chan 0 0).ending = true ∧
      ((chan0 { ending := true }).chan 0 0).acc = [] ∧ ((chan0 { ending := true }).chan 0 0).exe = []) := by decide +kernel

/-- A lookup of channel 0 is sent, or has its result; its context is live, with the block past its length. -/
def looking (l : Lookup) (x : Chan := {}) : State := { chan0 x with seq := { recs := [(0, { live := true, layers := 1, rowb := 1 })], looks := [l] } }
theorem witness_lookups :
    ((looking {}).seq.looks.find? (fun l => l.c == 0 && l.ch == 0 && l.st == 0) = some {} ∧ ((looking {}).resolve {}).isSome = true) ∧
    (looking { st := 1, res := 2 }).seq.looks.find? (fun l => l.c == 0 && l.ch == 0 && l.st == 1) = some { st := 1, res := 2 } := by decide +kernel

/-- Engine 1 of core 0 is bound to channel 0, whose next descriptor is d; slots 0 to 2 are in state st. -/
def eng0 (d : Desc) (x : Engine := {}) (st : Nat := 2) : State :=
  { chan0 { exe := [d] } ((upTo 3).map (fun i => (i, { st := st }))) with engs := [(1, { x with owner := some 0 })] }
/-- An engine descriptor: EOP, format, tiles. -/
def engD (eop fmt count : Nat) : Desc := { op := 8, p0 := 1 + 4 * eop, fmt := fmt, count := count, slotn := 4, ord := 1, p1 := if eop = 4 then 0x3F800000 else 0 }
def turnB (s : State) (eop : Nat) (d : Desc) : Bool :=
  s.chanRuns 0 0 && (nextExe eop [] (s.chan 0 0).exe).map (fun r => r.1) == some d && (nextExe eop [] (s.chan 0 0).exe).map (fun r => r.2) == some [] &&
  (s.eng (4 * 0 + d.p0 % 4)).owner == some 0 && engOk (s.eng (4 * 0 + d.p0 % 4)) d && s.engFree 0 0 d && s.slotsReady 0 0 d
theorem of_turnB {s : State} {eop : Nat} {d : Desc} (h : turnB s eop d = true) : engTurn s 0 0 eop d := by
  simp only [turnB, Bool.and_eq_true, beq_iff_eq] at h
  obtain ⟨⟨⟨⟨⟨⟨h1, h2⟩, h3⟩, h4⟩, h5⟩, h6⟩, h7⟩ := h
  refine ⟨by decide, by decide, h1, [], ?_, h4, h5, rfl, h6, h7⟩
  match hn : nextExe eop [] (s.chan 0 0).exe with
  | none => rw [hn] at h2; cases h2
  | some (a, b) =>
    rw [hn] at h2 h3
    simp only [Option.map_some, Option.some.injEq] at h2 h3
    rw [h2, h3]
theorem witness_engines :
    engTurn (eng0 (engD 0 4 1)) 0 0 0 (engD 0 4 1) ∧ engTurn (eng0 (engD 1 4 1)) 0 0 1 (engD 1 4 1) ∧
    engTurn (eng0 (engD 2 4 2)) 0 0 2 (engD 2 4 2) ∧ engTurn (eng0 (engD 3 4 1)) 0 0 3 (engD 3 4 1) ∧
    engTurn (eng0 (engD 5 0 1)) 0 0 5 (engD 5 0 1) ∧ engTurn (eng0 (engD 7 0 1)) 0 0 7 (engD 7 0 1) ∧
    engTurn (eng0 (engD 8 0 1)) 0 0 8 (engD 8 0 1) ∧ engTurn (eng0 (engD 4 0xB 2) {} 0) 0 0 4 (engD 4 0xB 2) ∧
    engTurn (eng0 (engD 6 0xB 2) {} 0) 0 0 6 (engD 6 0xB 2) := by
  refine ⟨of_turnB ?_, of_turnB ?_, of_turnB ?_, of_turnB ?_, of_turnB ?_, of_turnB ?_, of_turnB ?_, of_turnB ?_, of_turnB ?_⟩ <;> decide +kernel
theorem witness_outputs :
    (engD 4 0xB 2).eop = 4 ∧
    (((eng0 (engD 1 4 1) { busy := [{}] }).eng 1).busy = [{}] ∧ firstOp [({} : EngOp)] = some {} ∧ ({} : EngOp).endClk ≤ (eng0 (engD 1 4 1) { busy := [{}] }).cdClk) ∧
    (firstOp ((eng0 (engD 1 4 1) { busy := [{ endClk := 5 }] }).eng 1).busy = some { endClk := 5 } ∧ (eng0 (engD 1 4 1) { busy := [{ endClk := 5 }] }).cdClk < 5) := by decide +kernel
/-- Engine 1 is free. -/
def freeEng (d : Desc) : State := { chan0 { exe := [d] } with engs := [] }
theorem witness_bindings :
    ((freeEng (engD 9 0 1)).chanRuns 0 0 = true ∧ nextExe 9 [] ((freeEng (engD 9 0 1)).chan 0 0).exe = some (engD 9 0 1, []) ∧ ((freeEng (engD 9 0 1)).eng 1).owner = none) ∧
    ((eng0 (engD 10 0 1)).chanRuns 0 0 = true ∧ nextExe 10 [] ((eng0 (engD 10 0 1)).chan 0 0).exe = some (engD 10 0 1, []) ∧
      ((eng0 (engD 10 0 1)).eng 1).owner = some 0 ∧ ((eng0 (engD 10 0 1)).eng 1).busy = []) ∧
    ((freeEng (engD 7 0 1)).chanRuns 0 0 = true ∧ nextExe 7 [] ((freeEng (engD 7 0 1)).chan 0 0).exe = some (engD 7 0 1, []) ∧ ((freeEng (engD 7 0 1)).eng 1).owner ≠ some 0) := by decide +kernel
theorem witness_seedWrites : ∀ s ∈ [linked [416, 288] up, linked [416, 288] (eng0 (engD 1 4 1))], s.reach .ext (regAddr .mxSeed 1 0) = .ok ∧ ∀ o ∈ (s.eng 1).busy, o.draws = [] := by decide +kernel
theorem witness_west : ({ actFmt := some 4 } : Engine).actFmt = some 4 ∧ ∀ o ∈ ((eng0 (engD 1 4 1)).eng 1).busy, o.draws = [] := by decide +kernel

/-- Context 0 holds a record r, with tables of one line; a block list with one block stands at 128 KiB. -/
def seqRec0 : SeqRec := { live := true, layers := 1, rowb := 1, root0 := 0x4001, root1 := 0x9001, asid := 3 }
def seqS (r : SeqRec) (s : State) : State := { s with seq := { recs := [(0, r)] }, mem := bytesAt 0x4000 8 0x200001 ++ bytesAt 0x20000 8 0x100001 }
def seqMb (r : SeqRec) (op : Nat) (args : List (Nat × Nat)) : State := mbHas 0 op args (seqS r up)
theorem seqReady {op : Nat} {args f : List (Nat × Nat)} {r : SeqRec}
    (h : (readyB (seqMb r op args) 0 op ((4, 4) :: f) && (seqMb r op args).memOk && argOf (seqMb r op args) 0 4 4 < 262144 &&
      (seqMb r op args).seqRec (argOf (seqMb r op args) 0 4 4) == r && r.live) = true) : SeqReady (seqMb r op args) 0 op f r := by
  simp only [Bool.and_eq_true, decide_eq_true_eq, beq_iff_eq] at h
  obtain ⟨⟨⟨⟨h1, h2⟩, h3⟩, h4⟩, h5⟩ := h
  exact ⟨ready_iff h1, h2, h3, h4, h5, fun e => by cases e⟩
theorem some_fst {α β : Type} {x : Option (α × β)} {b : β} [DecidableEq β] (h : (match x with | some y => decide (y.2 = b) | none => false) = true) :
    ∃ a, x = some (a, b) := by
  split at h
  · rename_i y
    obtain ⟨a, c⟩ := y
    exact ⟨a, by rw [show c = b from of_decide_eq_true h]⟩
  · cases h
def creates (adopt len : Nat) : State := mbHas 0 0x801 [(8, 5), (0x10, 0x4001), (0x18, 1), (0x1A, 1), (0x1B, adopt), (0x20, len)] up
def createB (adopt len : Nat) : Bool :=
  let s := creates adopt len
  readyB s 0 0x801 [(4, 4), (8, 8), (0x10, 8), (0x18, 2), (0x1A, 1), (0x1B, 1), (0x1C, 2), (0x20, 4)] && s.memOk && argOf s 0 4 4 < 262144 &&
  !(s.seqRec (argOf s 0 4 4)).live && 0 < argOf s 0 0x18 2 && argOf s 0 0x18 2 ≤ 1024 && 0 < argOf s 0 0x1A 1 && argOf s 0 0x1A 1 ≤ 64 &&
  s.twOk (argOf s 0 4 4) (argOf s 0 0x10 8) (argOf s 0 0x18 2) && argOf s 0 0x20 4 ≤ 2 ^ 22 && argOf s 0 0x20 4 ≤ twCap (argOf s 0 0x10 8) &&
  argOf s 0 0x1B 1 == adopt && argOf s 0 0x20 4 == len
theorem witness_seqCreate :
    createB 1 2048 = true ∧ createB 0 0 = true ∧
    (((creates 0 0).setRec 0 { live := true, seqid := 5, layers := 1, rowb := 1, root0 := 0x4001 }).tableUpds 0 false (fun _ _ => (true, fun _ => 0))
      ((upTo 1).flatMap (fun l => (upTo (twStride 0x4001)).map (fun i => (l, i))))).isSome = true := by decide +kernel

def extending : State := seqMb seqRec0 0x802 [(8, 128), (0x10, 0x20000)]
theorem witness_seqExtend : SeqReady extending 0 0x802 [(8, 4), (0x10, 8)] seqRec0 ∧ seqRec0.length < argOf extending 0 8 4 ∧
    argOf extending 0 8 4 ≤ 2 ^ 22 ∧ argOf extending 0 8 4 ≤ twCap seqRec0.table ∧ (seqRec0.cpt = true → argOf extending 0 8 4 ≤ twCap seqRec0.shadow) ∧
    (match extending.readEntries (argOf extending 0 0x10 8) (seqRec0.layers * (blocksOf (argOf extending 0 8 4) - blocksOf seqRec0.length)) with
      | none => false
      | some (s1, es) => listFault seqRec0.rowb es == none &&
        (match s1.tableUpds (argOf extending 0 4 4) true (fun l i => (16 * i ≥ 0, fun d => (upTo 16).foldl (fun d n =>
            if 0 ≤ 16 * i + n ∧ 16 * i + n < 0 + 1 then putEntry d n ((at' es none (l * 1 + (16 * i + n - 0))).getD 0) else d) d))
          ((upTo seqRec0.layers).flatMap (fun l => (upTo ((0 + 1 - 1) / 16 - 0 / 16 + 1)).map (fun j => (l, 0 / 16 + j)))) with
         | some (_, false) => true
         | _ => false)) = true :=
  ⟨seqReady (by decide +kernel), by decide +kernel, by decide +kernel, by decide +kernel, by decide +kernel, by decide +kernel⟩
def trimming : State := seqMb { seqRec0 with length := 100 } 0x803 []
theorem witness_seqTrim : SeqReady trimming 0 0x803 [(8, 4)] { seqRec0 with length := 100 } ∧ argOf trimming 0 8 4 < 100 ∧
    ((trimming.setRec 0 seqRec0).tableUpds 0 false (fun _ i => (16 * i ≥ 0, fun d =>
        (upTo 16).foldl (fun d n => if 0 ≤ 16 * i + n then putEntry d n (2 * (entryOf d n / 2)) else d) d))
      ((upTo seqRec0.layers).flatMap (fun l => (upTo (twStride seqRec0.table - 0 / 16)).map (fun j => (l, 0 / 16 + j))))).isSome = true :=
  ⟨seqReady (by decide +kernel), by decide +kernel, by decide +kernel⟩
theorem witness_seqRecords : SeqReady (seqMb seqRec0 0x806 []) 0 0x806 [] seqRec0 ∧ seqRec0.cpt = false ∧ seqRec0.mig = false ∧
    SeqReady (seqMb seqRec0 0x807 []) 0 0x807 [] seqRec0 := ⟨seqReady (by decide +kernel), by decide +kernel, by decide +kernel, seqReady (by decide +kernel)⟩

def relaying : State := seqMb seqRec0 0x805 [(8, 0x9001)]
def migBusy : State := seqMb { seqRec0 with cpt := true } 0x804 []
def migrating : State := seqMb { seqRec0 with length := 100 } 0x804 [(0xC, 1), (0x10, 0x20000)]
def shadowing (stride copied : Nat) : State :=
  { seqS { seqRec0 with root0 := 0x4001, root1 := 0x9000 + stride, cpt := true, copied := copied } up with now := 1000 }
def installing : State := seqS { seqRec0 with mig := true, migDone := true, mign := 1, blist := [0x100001], olds := [0x200001] } up
theorem witness_seqMoves :
    (SeqReady relaying 0 0x805 [(8, 8)] seqRec0 ∧ relaying.twOk 0 (argOf relaying 0 8 8) 1 = true ∧
      twArea seqRec0.table + 128 ≤ twArea (argOf relaying 0 8 8) ∧ seqRec0.length ≤ twCap (argOf relaying 0 8 8)) ∧
    SeqReady migBusy 0 0x804 [(8, 4), (0xC, 4), (0x10, 8)] { seqRec0 with cpt := true } ∧
    (SeqReady migrating 0 0x804 [(8, 4), (0xC, 4), (0x10, 8)] { seqRec0 with length := 100 } ∧ argOf migrating 0 0xC 4 = 1 ∧
      argOf migrating 0 8 4 + argOf migrating 0 0xC 4 ≤ blocksOf 100 ∧
      (match migrating.readLines (twArea seqRec0.table / 128) 1 with
       | none => false
       | some (s1, ls) => (at' ls none 0).map (fun d => entryOf d 0 % 2) == some 1 &&
         (match s1.readEntries (argOf migrating 0 0x10 8) 1 with
          | none => false
          | some (_, es) => listFault 1 es == none)) = true) ∧
    (let s := shadowing 1 0; let r := s.seqRec 0; r.live = true ∧ r.cpt = true ∧ r.copiedAt + s.fld .seqCptRate (0 / 65536) 0 0 8 ≤ s.now ∧
      (match s.ncRead (twArea r.table / 128 + r.copied / twStride r.shadow * twStride r.table + r.copied % twStride r.shadow) 1 with
       | .ok s1 d false => (s1.tableWrite (twArea r.shadow / 128 + r.copied) d true).isSome
       | _ => false) = true) ∧
    (let s := shadowing 2 1; let r := s.seqRec 0; r.live = true ∧ r.cpt = true ∧ twStride r.table ≤ r.copied % twStride r.shadow ∧
      (s.tableWrite (twArea r.shadow / 128 + r.copied) 0 true).isSome = true) ∧
    ({ up with seq := { evs := [{}] } } : State).seq.evs.find? (fun e => e.ctx == 0 && !e.mig && ({ up with seq := { evs := [{}] } } : State).looksDone e.waits) = some {} ∧
    (let r := installing.seqRec 0; r.live = true ∧ r.mig = true ∧ r.migDone = true ∧
      (r.blist.zipIdx.foldl (fun (acc : Option State) p => acc.bind (fun s1 => s1.installEntry r (p.2 / r.mign) (r.miglo + p.2 % r.mign) p.1)) (some installing)).isSome = true) :=
  ⟨⟨seqReady (by decide +kernel), by decide +kernel⟩, seqReady (by decide +kernel), ⟨seqReady (by decide +kernel), by decide +kernel⟩, by decide +kernel⟩

/-- Memory commands. -/
def copying : State := mbHas 0 0x101 [(8, 0x20000), (0x10, 0x40000), (0x18, 256), (0x24, 9)] up
def advising : State := mbHas 0 0x102 [(8, 0x20000), (0x10, 128), (0x18, 0)] up
def unmarking : State := mbHas 0 0x102 [(8, 0x20000), (0x10, 256), (0x18, 2)] up
def splitting : State := mbHas 0 0x103 [(8, 4), (9, 5)] up
theorem witness_memCommands :
    (Ready copying 0 0x101 [(8, 8), (0x10, 8), (0x18, 8), (0x20, 1), (0x24, 4)] ∧ copying.memOk = true ∧ argOf copying 0 0x18 8 = 256 ∧
      argOf copying 0 0x20 1 ≤ 4 ∧ copyRange (argOf copying 0 8 8) 256 = true ∧ copyRange (argOf copying 0 0x10 8) 256 = true ∧
      argOf copying 0 8 8 + 256 ≤ argOf copying 0 0x10 8 ∧ copying.moverJobs < 64) ∧
    (Ready advising 0 0x102 [(8, 8), (0x10, 8), (0x18, 1)] ∧ argOf advising 0 8 8 % 128 = 0 ∧ argOf advising 0 0x10 8 = 128 ∧ argOf advising 0 0x18 1 ≤ 3 ∧
      localRange (argOf advising 0 8 8) 128 = true ∧ (advising.adviseLines (argOf advising 0 8 8 / 128) (argOf advising 0 0x18 1) 1).isSome = true) ∧
    (Ready unmarking 0 0x102 [(8, 8), (0x10, 8), (0x18, 1)] ∧ argOf unmarking 0 8 8 % 128 = 0 ∧ argOf unmarking 0 0x10 8 = 256 ∧ argOf unmarking 0 0x18 1 = 2 ∧
      localRange (argOf unmarking 0 8 8) 256 = true) ∧
    (Ready splitting 0 0x103 [(8, 1), (9, 1)] ∧ argOf splitting 0 8 1 ≤ 48 ∧ argOf splitting 0 9 1 ≤ 64) :=
  ⟨⟨ready_iff (by decide +kernel), by decide +kernel⟩, ⟨ready_iff (by decide +kernel), by decide +kernel⟩, ⟨ready_iff (by decide +kernel), by decide +kernel⟩,
    ⟨ready_iff (by decide +kernel), by decide +kernel⟩⟩
def moving (j : Job) : State := { up with jobs := [j] }
def move0 : Job := { src := 0x20000, dst := 0x40000, len := 256, hint := 1 }
theorem witness_mover :
    ((moving move0).jobs = [move0] ∧ move0.asked = 0 ∧ isLocal (move0.src + move0.off) = true ∧ isLocal (move0.dst + move0.off) = true ∧ move0.kind = 0 ∧
      (match (moving move0).ncRead ((move0.src + move0.off) / 128) 2 with | .ok .. => true | _ => false) = true ∧
      (match (moving move0).ncWrite ((move0.dst + move0.off) / 128) (BitVec.allOnes 128) 0 false move0.hint with | .ok .. => true | _ => false) = true ∧
      (moving move0).pmuOn 580 = false ∧ move0.off + 128 ≠ move0.len ∧ move0.burst + 1 ≠ 64) ∧
    (let j := { move0 with len := 1024, burst := 63 }; (moving j).jobs = [j] ∧ j.off + 128 ≠ j.len ∧ j.burst + 1 = 64) ∧
    (let j := { move0 with off := 128 }; (moving j).jobs = [j] ∧ j.off + 128 = j.len) ∧
    ({ moving move0 with regs := [] } : State).ncRead ((move0.src + move0.off) / 128) 2 = .bus := by decide +kernel
theorem witness_health :
    (({ up with pwr := { phase := .boot 5 } } : State).pwr.phase = .boot 5 ∧ ∀ r ∈ [(3, 7)], (r : Nat × Nat).1 < 129 ∧ r.2 < 64) ∧
    ((setR .scrubCtrl 0 0 1 up).fld .scrubCtrl 0 0 0 1 = 1 ∧ (setR .scrubCtrl 0 0 1 up).memOk = true ∧ (setR .scrubCtrl 0 0 1 up).pwr.phase = .on) ∧
    ({ up with ueSent := [5] } : State).ueSent.elem 5 = true := by decide +kernel
theorem witness_cacheRegister : ∀ m ∈ [0, 3], (linked [416, 419] up).reach .ext (regAddr .seqBtcCtrl m 0) = .ok ∧ (linked [416, 419] up).reach .ext (regAddr .mscCtrl m 0) = .ok := by decide +kernel

/- Coherence: line 0x400 of local memory; its home's die is 0. -/
def coh (net : List Msg) (st : CSt := .I) (c : Cause := .none') : State := ({ up with net := net } : State).setCline 0 0x400 { st := st, data := 9, cause := c }
def homeB (s : State) (a line : Nat) : Bool := a < 66 && isLocal (line * 128) && !s.isLost (s.homeOf line) a && !s.linkWaits (agentDie a) line
theorem of_homeB {s : State} {a line : Nat} (h : homeB s a line = true) : homeHears s a line := by
  simp only [homeB, Bool.and_eq_true, decide_eq_true_eq, Bool.not_eq_true'] at h
  exact ⟨h.1.1.1, h.1.1.2, h.1.2, h.2⟩
def atomic : State := { up with ops := [(5, { u := .core 0, kind := .amo .add true })], pd := [(0, { held := false, op := some 5 })],
                                net := [.req { kind := .atmh, a := 64, w := .op 5, line := 0x400 }] }
def lostAgent : State := { setR .cohLost0 0 0 1 up with net := [.req { kind := .rdnc, a := 0, w := .op 5, line := 0x400 }] }
/-- The auxiliary die is up, with a window that lets it cache, or asks for the line already. -/
def cacher (right : Nat) : State := setR .fwStatus 0 0 2 { up with aux := { inw := [(1, { base := 0x20000, size := 0x10000, rights := right })] } }
def asked65 : State := { up with net := [.req { kind := .rds, a := 65, line := 0x400 }] }
/-- The link of compute die 0 to memory die 0 trains. -/
def trains0 : State := setR .lnkStatus 0 0 1 up
/-- A request is on its way, behind another of its channel. -/
def behind : State := { up with net := [.req { kind := .rdx, a := 0, line := 0x400 }, .req { kind := .rds, a := 0, line := 0x400 }] }
def ncB (s : State) (k : RqKind) (w : Who) (line : Nat) : Bool :=
  let a := ncFor s k w line
  isLocal (line * 128) && !s.linkWaits (if a < 66 then agentDie a else s.whoDie w) line && s.inTurn (ncOf k w line) && (a ≥ 66 || !s.isLost (s.homeOf line) a) &&
  (match s.net.find? (ncOf k w line) with | some (.req q) => !q.burst | _ => true)
theorem of_ncB {s : State} {k : RqKind} {w : Who} {line : Nat} (h : ncB s k w line = true) : homeHearsNc s k w line := by
  simp only [ncB, Bool.and_eq_true, Bool.not_eq_true', Bool.or_eq_true, decide_eq_true_eq] at h
  obtain ⟨⟨⟨⟨h1, h2⟩, h5⟩, h3⟩, h4⟩ := h
  refine ⟨h1, h2, h5, fun ha => ?_, fun q hq => ?_⟩
  · rcases h3 with h3 | h3
    · omega
    · exact h3
  · rw [hq] at h4
    simpa using h4
theorem witness_arrive :
    homeHears up 0 0x400 ∧ (homeHears asked65 65 0x400 ∧ asked65.net.any (askOf .rds 65 0x400) = true) ∧
    (isLocal (0x400 * 128) = true ∧ up.net.any (askOf .rds 65 0x400) = false ∧ (setR .fwStatus 0 0 0 up).fld .fwStatus 0 0 1 1 = 0 ∧
      (cacher 1).fld .fwStatus 0 0 1 1 = 1 ∧ (cacher 1).aux.inw.any (fun w => w.2.covers (0x400 * 128) 128 && w.2.right 3) = false ∧
      (cacher 8).aux.inw.any (fun w => w.2.covers (0x400 * 128) 128 && w.2.right 3) = true) ∧ homeHears (cacher 8) 65 0x400 ∧
    homeHearsNc up .rdnc (.op 5) 0x400 ∧ homeHearsNc up .wrnc (.tileW 1 0) 0x400 ∧ homeHearsNc up .wrnc (.store 3) 0x400 ∧
    (homeHearsNc atomic .atmh (.op 5) 0x400 ∧ atomic.net.find? (ncOf .atmh (.op 5) 0x400) = some (.req { kind := .atmh, a := 64, w := .op 5, line := 0x400 })) ∧
    ((0 : Nat) < 64 ∧ (atomic.core 0).op = some 5 ∧ atomic.isLost (atomic.homeOf 0x400) 64 = false) ∧
    (lostAgent.isLost (lostAgent.homeOf 0x400) 0 = true ∧ lostAgent.linkWaits (agentDie 0) 0x400 = false ∧ ncFor lostAgent .rdnc (.op 5) 0x400 = 0) ∧
    (trains0.linkWaits (agentDie 0) 0x400 = true ∧ behind.inTurn (askOf .rds 0 0x400) = false ∧ up.inTurn (askOf .rds 0 0x400) = true ∧
      asked65.inTurn (askOf .rds 65 0x400) = true ∧ lostAgent.inTurn (askOf .rds 0 0x400) = true ∧ lostAgent.inTurn (ncOf .rdnc (.op 5) 0x400) = true ∧
      atomic.linkWaits 8 0x400 = false ∧ atomic.inTurn (ncOf (.cmo .clean) (.op 5) 0x400) = true) :=
  ⟨of_homeB (by decide +kernel), ⟨of_homeB (by decide +kernel), by decide +kernel⟩, by decide +kernel, of_homeB (by decide +kernel), of_ncB (by decide +kernel),
    of_ncB (by decide +kernel), of_ncB (by decide +kernel), ⟨of_ncB (by decide +kernel), by decide +kernel⟩, by decide +kernel, by decide +kernel, by decide +kernel⟩
/-- The home holds a transaction of the line, or an entry. -/
def homeS (t : Option Txn) (e : Option DirE := none) : State :=
  { up with txns := (match t with | some x => [(0x400, x)] | none => []), dir := (match e with | some x => [(0x400, x)] | none => []),
            msc := [(0x400, { data := 5 })] }
def hreq (k : RqKind) (a : Nat) : HReq := { kind := k, a := a, line := 0x400 }
theorem not_lost (m a : Nat) (s : State) (h0 : s.reg .cohLost0 m 0 = 0) (h1 : s.reg .cohLost1 m 0 = 0) : s.isLost m a = false := by
  unfold State.isLost bit
  rw [h0, h1]
  split <;> simp
theorem witness_start :
    (let s := homeS none (some { st := .HX, owner := 3 }); s.hq = [] ∧ s.txns.has 0x400 = false ∧ s.needsEntry (hreq .rds 0) = false ∧ (hreq .rds 0).burst = false ∧
      s.dir.find? 0x400 = some { st := .HX, owner := 3 } ∧ (∀ a, s.isLost (s.homeOf 0x400) a = false) ∧ (hreq .rds 0).kind = .rds ∧ (3 : Nat) ≠ (hreq .rds 0).a) ∧
    (let s := homeS none (some { st := .HS, sharers := [0, 4] }); s.needsEntry (hreq .rdx 0) = false ∧
      s.dir.find? 0x400 = some { st := .HS, sharers := [0, 4] } ∧ (∀ a, s.isLost (s.homeOf 0x400) a = false) ∧
      (({ st := .HS, sharers := [0, 4] } : DirE).holders.filter (fun a => a ≠ (hreq .rdx 0).a)) ≠ []) := by
  refine ⟨⟨rfl, by decide +kernel, by decide +kernel, rfl, by decide +kernel, fun a => not_lost _ a _ (by decide +kernel) (by decide +kernel), rfl, by decide⟩,
    by decide +kernel, by decide +kernel, fun a => not_lost _ a _ (by decide +kernel) (by decide +kernel), by decide +kernel⟩
theorem witness_grantsOfHome :
    (let t : Txn := { req := hreq .rds 2, phase := .mem }; let s := homeS (some t); s.txns.find? 0x400 = some t ∧ t.req.line = 0x400 ∧ t.req.burst = false ∧ t.d = none ∧ t.od = none ∧ t.h = [] ∧ s.msc.has 0x400 = true) ∧
    (let t : Txn := { req := hreq .rdnc 66, phase := .mem }; let s := homeS (some t); s.txns.find? 0x400 = some t ∧ t.req.kind = .rdnc ∧ s.hq = [] ∧ s.msc.has 0x400 = true) ∧
    (let t : Txn := { req := hreq .rds 2, phase := .ack }; let s := homeS (some t); s.txns.find? 0x400 = some t ∧ t.phase ≠ .mem ∧ t.req.a = 2 ∧ s.hq = []) ∧
    homeHears (homeS (some { req := hreq .rds 2, phase := .ack })) 2 0x400 :=
  ⟨by decide +kernel, by decide +kernel, by decide +kernel, of_homeB (by decide +kernel)⟩
theorem witness_responses :
    (let t : Txn := { req := hreq .rdx 2, phase := .snp, await := [3, 4], h := [3, 4] }; homeHears (homeS (some t)) 3 0x400 ∧ (homeS (some t)).txns.find? 0x400 = some t ∧ t.phase = .snp ∧ t.await.elem 3 = true ∧ t.await.elem 5 = false) ∧
    homeHears (homeS (some { req := hreq .rdx 2, phase := .snp, await := [3, 4], h := [3, 4] })) 5 0x400 :=
  ⟨⟨of_homeB (by decide +kernel), by decide +kernel⟩, of_homeB (by decide +kernel)⟩
def cacheB (s : State) (a line : Nat) : Bool := a < 66 && isLocal (line * 128) && !s.agentGone a && !s.linkWaits (agentDie a) line
theorem of_cacheB {s : State} {a line : Nat} (h : cacheB s a line = true) : cacheHears s a line := by
  simp only [cacheB, Bool.and_eq_true, decide_eq_true_eq, Bool.not_eq_true'] at h
  exact ⟨h.1.1.1, h.1.1.2, h.1.2, h.2⟩
theorem witness_snoops :
    (cacheHears (coh [] .M) 0 0x400 ∧ snoopTable ((coh [] .M).cline 0 0x400).st .s = some (.O, false, true)) ∧
    (cacheHears (coh [] .ISD) 0 0x400 ∧ snoopTable ((coh [] .ISD).cline 0 0x400).st .x = none) :=
  ⟨⟨of_cacheB (by decide +kernel), by decide +kernel⟩, of_cacheB (by decide +kernel), by decide +kernel⟩
theorem witness_grantsOfCache :
    (cacheHears (coh [] .ISD) 0 0x400 ∧ ((coh [] .ISD).cline 0 0x400).st = .ISD) ∧ (cacheHears (coh [] .S) 0 0x400 ∧ ((coh [] .S).cline 0 0x400).st ≠ .ISD) ∧
    (cacheHears (coh [] .IMD) 0 0x400 ∧ ((coh [] .IMD).cline 0 0x400).st = .IMD) ∧ (cacheHears (coh [] .SMA) 0 0x400 ∧ ((coh [] .SMA).cline 0 0x400).st = .SMA) ∧
    (cacheHears (coh [] .MIA) 0 0x400 ∧ ((coh [] .MIA).cline 0 0x400).st.inBuffer = true ∧ (∀ r ∈ (coh [] .MIA).rsts, r.writing = false) ∧ (coh [] .MIA).held = [] ∧ ∀ e ∈ ((coh [] .MIA).cacheOf 0).lines, e.2.flush = false) :=
  ⟨⟨of_cacheB (by decide +kernel), by decide +kernel⟩, ⟨of_cacheB (by decide +kernel), by decide +kernel⟩, ⟨of_cacheB (by decide +kernel), by decide +kernel⟩,
    ⟨of_cacheB (by decide +kernel), by decide +kernel⟩, of_cacheB (by decide +kernel), by decide +kernel⟩
/-- An instruction of processor core 0 loads from the line; a store of it is buffered. -/
def loads (st : CSt) : State :=
  ({ up with ops := [(5, { u := .core 0, kind := .load 8 false false, lines := [{ line := 0x400 }] })],
             sb := [(4, { u := .core 0, mem := .cached, line := 0x400, mask := 0xFF, data := 7 })] } : State).setCline 64 0x400 { st := st, data := 9 }
theorem witness_accesses :
    ((loads .S).ops.find? 5 = some { u := .core 0, kind := .load 8 false false, lines := [{ line := 0x400 }] } ∧
      [({ line := 0x400 } : LineReq)].any (fun r => r.line == 0x400 && r.mem == .cached && r.st == 0) = true ∧ ((loads .S).cline 64 0x400).st.readable = true) ∧
    (((loads .I).cline 64 0x400).st = .I ∧ (loads .I).agentBusy 64 0x400 = false ∧ (loads .I).pdRoom 0x400 none = some (loads .I) ∧
      ({ loads .I with ncOut := [(64, 0x400, .op 5)] } : State).agentBusy 64 0x400 = true) ∧
    ((loads .E).sb.find? 4 = some { u := .core 0, mem := .cached, line := 0x400, mask := 0xFF, data := 7 } ∧
      (∀ x ∈ (loads .E).sbOf (.core 0), x.1 < 4 → x.2.line ≠ 0x400) ∧ ((loads .E).cline 64 0x400).st = .E) := by decide +kernel
theorem witness_ncAnswers :
    (isLocal 0x400 = true → (loads .I).linkWaits ((loads .I).whoDie (.op 5)) 0x400 = false) ∧
    (loads .I).linkWaits ((loads .I).whoDie (.store 4)) 0x400 = false ∧ (loads .I).linkWaits ((loads .I).whoDie (.tileW 1 0)) 0x400 = false ∧
    (((((loads .I).outTake (.store 4) 0x400).took (fun m => match m with | .dat v l _ _ => v == .store 4 && l == 0x400 | _ => false)).ncDone (.store 4) 0x400).sb.find?
      4).map (·.line) = some 0x400 ∧
    (setR .lnkStatus 256 0 1 (loads .I)).linkWaits ((loads .I).whoDie (.op 5)) 0x400 = true ∧
    ({ loads .I with net := [.gnt 64 0x400 true 0 false, .dat (.op 5) 0x400 0 false] } : State).inTurn (fun m => match m with | .dat v l _ _ => v == .op 5 && l == 0x400 | _ => false) = false := by decide +kernel
theorem witness_turns (p : Msg → Bool) : (∀ t e, (homeS t e).inTurn p = true) ∧ (∀ st, (coh [] st).inTurn p = true) ∧ (∀ st, (loads st).inTurn p = true) ∧
    (coh [.req { kind := .rds, a := 0, line := 0x400 }, .cmpack 0 0x400]).inTurn (fun m => m == .cmpack 0 0x400) = true :=
  ⟨fun _ _ => quiet_turn rfl p, fun _ => quiet_turn rfl p, fun _ => quiet_turn rfl p, by decide +kernel⟩
/-- The home of the line has waited a millisecond for agent 2. -/
def silent (e : Option DirE) : State := { homeS (some { req := hreq .rds 2, phase := .ack }) e with now := 1100000 }
def lostOwner : State := setR .cohLost0 0 0 4 (homeS none (some { st := .HX, owner := 2 }))
theorem witness_lost :
    ((silent none).txns.find? 0x400 = some { req := hreq .rds 2, phase := .ack } ∧ 0 + (silent none).fld .cohCtrl ((silent none).homeOf 0x400) 0 0 10 * 1000 ≤ (silent none).now ∧
      (silent none).dir.find? 0x400 = none) ∧
    List.find? (fun (e : Nat × DirE) => lostOwner.homeOf e.1 == 0 && e.2.st != HSt.HS && lostOwner.isLost 0 e.2.owner && !lostOwner.txns.has e.1) lostOwner.dir = some (0x400, { st := .HX, owner := 2 }) ∧
    lostOwner.dir.find? 0x400 = some { st := .HX, owner := 2 } ∧
    (linked [416, 288] (coh [] .M)).reach .ext (regAddr .ccCtrl 0 0) = .ok ∧
    ({ up with rsts := [{ dom := .die 0, writing := true, drained := true }], now := 100000 } : State).rsts.any (fun r => r.dom == .die 0 && r.writing && r.drained && r.since + 100000 ≤ 100000) = true := by decide +kernel

/-- Requesters of compute die 0 are stalled. -/
def stalls (l : List Stall) : State := { chan0 { stall := [2] } with fqs := [(0, { stalled := l })] }
def stG : Stall := { r := .grp 0 0, token := some 5, va := 0x30000, deadline := 9 }
def stC : Stall := { r := .chan 0 0, token := some 6, what := 2 }
theorem witness_faultResponses :
    answered (stalls [stG, stC]) 0 5 stG ∧ answered (stalls [stG, stC]) 0 6 stC ∧
    ((0 : Nat) < 8 ∧ (7 : Nat) < 2 ^ 32 ∧ ∀ x ∈ ((stalls [stG, stC]).fq 0).stalled, x.token ≠ some 7) ∧
    ((linked [416, 288] (stalls [stG, stC])).reach .ext (regAddr .fqResp 0 0) = .ok ∧ (stalls [stG, stC]).now < stG.deadline ∧ stC.deadline ≤ (stalls [stG, stC]).now ∧ stG.r = .grp 0 0 ∧ ((stalls [stG]).grp 0 0).isSome = true ∧ stG.upcall = false ∧ stC.r = .chan 0 0) := by
  refine ⟨⟨by decide, by decide, by decide +kernel⟩, ⟨by decide, by decide, by decide +kernel⟩, by decide +kernel, by decide +kernel⟩
/-- A group waits for a record of a read fault; it translates again and succeeds. -/
def fqWaiting : State := { stalls [{ stG with token := none, record := leBytes 16 0 ++ leBytes 2 5, deadline := 5000 }] with now := 2000 }
/-- The same, with translation off. -/
def fqDenied : State := setR .xltAst 0 0 0 fqWaiting
def fqLate : State := { stalls [{ stG with deadline := 1000 }] with now := 2000 }
theorem witness_faultUpkeep :
    (let s := linked [416, 288] (setR .fqWidx 0 0 5 up); s.reach .ext (regAddr .fqRidx 0 0) = .ok ∧ (s.reg .fqRidx 0 0).toNat ≤ (3 : Word).toNat ∧ (3 : Word).toNat ≤ (s.reg .fqWidx 0 0).toNat ∧ (s.reg .fqWidx 0 0).toNat < (9 : Word).toNat) ∧
    ((Requester.grp 0 0).wf = true ∧ ((fqWaiting.fq (Requester.die (.grp 0 0))).stalled.filter (fun x => x.r == .grp 0 0 && x.token.isNone)).map
          (fun x => (x.upcall, x.since + 1000 ≤ fqWaiting.now, ofLeBytes ((x.record.drop 16).take 2))) = [(false, 0 + 1000 ≤ 2000, 5)] ∧
      (match fqWaiting.translate (fqWaiting.stallWho (.grp 0 0)) .load 0x30000 with | .ok .. => true | _ => false) = true) ∧
    (match fqDenied.translate (fqDenied.stallWho (.grp 0 0)) .load 0x30000 with | .fault _ _ _ false _ _ => true | _ => false) = true ∧
    (0 : Nat) + 1000 ≤ fqDenied.now ∧ ({ fqWaiting with now := 500 } : State).now < 0 + 1000 ∧
    (up.fq 0).stalled.filter (fun x => x.r == Requester.grp 0 0 && x.token.isNone) = [] ∧
    ((fqLate.fq (Requester.die (.grp 0 0))).stalled.find? (fun x => x.r == .grp 0 0 && decide (x.deadline ≤ fqLate.now))) = some { stG with deadline := 1000 } := by
  refine ⟨by decide +kernel, ⟨by decide, ?_, by decide +kernel⟩, by decide +kernel⟩
  rfl
/-- The link between compute die 0 and memory die 0 is up, or trains. -/
def lnk (st : Nat) (l : LinkS := {}) : State :=
  ((setR .lnkStatus 0 0 (BitVec.ofNat 64 (st + 0x110)) (setR .lnkStatus 288 0 (BitVec.ofNat 64 (st + 0x110)) up)).setLink 0 l).setLink 288 { maxw := 4 }
/-- The bytes of a flit before its CRC: SEQ, ACK and NAK, EPOCH, and one credit of the Request channel; and its CRC. -/
def flit (seq ack nak epoch : Nat) : BitVec 2016 := BitVec.ofNat 2016 (seq + ack * 2 ^ 16 + nak * 2 ^ 28 + epoch * 2 ^ 32 + 8 * 2 ^ 40)
/-- The CRC that belongs to a body. -/
def sealOf (body : BitVec 2016) : BitVec 32 := crc32 ((upTo 252).map (flitByte ((0 : BitVec 32) ++ body)))
theorem append_toNat (c : BitVec 32) (b : BitVec 2016) : (c ++ b : BitVec 2048).toNat = c.toNat * 2 ^ 2016 + b.toNat := by
  rw [BitVec.toNat_append, Nat.shiftLeft_eq, Nat.mul_comm, ← Nat.two_pow_add_eq_or_of_lt b.isLt]
theorem body_byte (c : BitVec 32) (b : BitVec 2016) (i : Nat) (h : i < 252) : flitByte (c ++ b) i = flitByte ((0 : BitVec 32) ++ b) i := by
  unfold flitByte
  rw [append_toNat, append_toNat, Nat.shiftRight_eq_div_pow, Nat.shiftRight_eq_div_pow,
    show (2 : Nat) ^ 2016 = 2 ^ (8 * i) * (256 * 2 ^ (2008 - 8 * i)) by rw [show (256 : Nat) = 2 ^ 8 by rfl, ← Nat.pow_add, ← Nat.pow_add]; congr 1; omega,
    Nat.mul_left_comm, Nat.add_comm, Nat.add_mul_div_left _ _ (Nat.two_pow_pos _), Nat.mul_left_comm, Nat.add_mul_mod_self_left]
  simp
theorem crc_byte (c : BitVec 32) (b : BitVec 2016) (j : Nat) : flitByte (c ++ b) (252 + j) = c.toNat / 256 ^ j % 256 := by
  unfold flitByte
  rw [append_toNat, Nat.shiftRight_eq_div_pow, show 8 * (252 + j) = 2016 + 8 * j by omega, Nat.pow_add, ← Nat.div_div_eq_div_mul,
    Nat.mul_comm, Nat.mul_add_div (Nat.two_pow_pos _), Nat.div_eq_of_lt b.isLt, Nat.add_zero, show (256 : Nat) = 2 ^ 8 by rfl, ← Nat.pow_mul]
theorem flitCrcOk_append (c : BitVec 32) (b : BitVec 2016) : flitCrcOk (c ++ b) = (sealOf b == c) := by
  have h : (upTo 252).map (flitByte (c ++ b)) = (upTo 252).map (flitByte ((0 : BitVec 32) ++ b)) := by
    apply List.map_congr_left
    intro i hi
    exact body_byte c b i (by simpa [upTo] using hi)
  unfold flitCrcOk sealOf
  rw [h, crc_byte c b 0, crc_byte c b 1, crc_byte c b 2, crc_byte c b 3]
  have hc := c.isLt
  have e : c.toNat / 256 ^ 0 % 256 + 256 * (c.toNat / 256 ^ 1 % 256) + 65536 * (c.toNat / 256 ^ 2 % 256) + 16777216 * (c.toNat / 256 ^ 3 % 256) = c.toNat := by
    omega
  rw [e]
  rw [Bool.eq_iff_iff]
  simp [BitVec.toNat_eq]
theorem flitHdr_append (c : BitVec 32) (b : BitVec 2016) : flitHdr (c ++ b) = flitHdr ((0 : BitVec 32) ++ b) := by
  unfold flitHdr
  simp only [body_byte c b 0 (by omega), body_byte c b 1 (by omega), body_byte c b 2 (by omega), body_byte c b 3 (by omega), body_byte c b 4 (by omega), body_byte c b 5 (by omega)]
/-- The header of the flit with a body. -/
def hdrOf (body : BitVec 2016) : FlitHdr := flitHdr ((0 : BitVec 32) ++ body)
theorem test_flitHeader : hdrOf (flit 7 3 1 9) = { seq := 7, ack := 3, nak := true, epoch := 9, vc := 0, cred := 1 } := by decide +kernel
theorem sealed (body : BitVec 2016) : flitCrcOk (sealOf body ++ body) = true ∧ flitHdr (sealOf body ++ body) = hdrOf body ∧
    flitCrcOk ((sealOf body ^^^ 1) ++ body) = false := by
  refine ⟨by rw [flitCrcOk_append]; exact beq_self_eq_true _, flitHdr_append _ _, ?_⟩
  rw [flitCrcOk_append, beq_eq_false_iff_ne]
  intro h
  have h1 := congrArg (fun c => sealOf body ^^^ c) h
  simp only [BitVec.xor_self, ← BitVec.xor_assoc, BitVec.zero_xor] at h1
  exact absurd h1 (by decide)
/-- With `sealed`, flits that meet the clauses at end 0. -/
theorem witness_flits :
    (linkPartner 0 = some 288 ∧ (0 : Nat) ≠ 288 ∧ (lnk 2).fld .lnkStatus 0 0 0 2 = 2) ∧
    (hdrOf (flit 0 0 0 9)).epoch ≠ (lnk 2).fld .lnkStatus 0 0 8 8 ∧
    ((hdrOf (flit 100 0 0 1)).epoch = (lnk 2).fld .lnkStatus 0 0 8 8 ∧
      ((lnk 2).link 288).sendTo (hdrOf (flit 100 0 0 1)).seq 4096 64 (lnk 2).now 128 = none) ∧
    ((((lnk 2).link 288).sendTo (hdrOf (flit 7 0 0 1)).seq 4096 64 (lnk 2).now 128).isSome = true ∧
      (hdrOf (flit 7 0 0 1)).seq ≠ ((lnk 2).link 0).expect) ∧
    (let s := lnk 2 { sent := [3, 4] }
     ((s.link 288).sendTo (hdrOf (flit 0 3 1 1)).seq 4096 64 s.now 128).isSome = true ∧
      (hdrOf (flit 0 3 1 1)).seq = (s.link 0).expect ∧ (s.link 0).replays < 7 ∧ (hdrOf (flit 0 3 1 1)).nak = true ∧
      ackUpTo (s.link 0).sent (hdrOf (flit 0 3 1 1)).ack ≠ []) ∧
    (hdrOf (flit 0 0 0 1)).nak = false ∧
    (({ lnk 2 { sent := [3] } with now := 2000 } : State).link 0).sent ≠ [] ∧
    (({ lnk 2 { sent := [3] } with now := 2000 } : State).link 0).ackAt + 2000 ≤ 2000 ∧ (lnk 2).now < ((lnk 2).link 0).ackAt + 2000 := by decide +kernel
theorem witness_training :
    linkPartner 0 = some 288 ∧ (0 : Nat) ≠ 288 ∧ (lnk 1).fld .lnkStatus 0 0 0 2 = 1 ∧ ((lnk 1 { maxw := 4 }).link 0).trained = false ∧ ((lnk 1).link 0).attempts < 3 ∧
    (let s := lnk 1 { maxw := 4 }
     ((upTo 6).filter (fun g => ((s.goodAt 0 3 &&& s.goodAt 288 3) >>> g) % 2 = 1)).take (min (s.link 0).maxw (s.link 288).maxw) ≠ []) ∧
    ((0 : Nat) < linkGroups 0 ∧ (upTo 4).any (fun k => !bit ((lnk 1).reg .lnkRepair 0 0) (8 * k + 6)) = true) ∧
    ((linked [416, 288] (lnk 1)).reach .ext (regAddr .lnkCtrl 0 0) = .ok ∧ (linked [416] (lnk 1)).fld .lnkStatus 0 0 0 2 = 1) := by decide +kernel
/-- The auxiliary site with a die of status st, windows and grants. -/
def site (st : Nat) (x : AuxS := {}) : State := setR .fwStatus 0 0 (BitVec.ofNat 64 st) { up with aux := x }
theorem witness_aux :
    ((∃ id, id < 2 ^ 16 ∧ id ≠ Config.auxId.toNat) ∧ (site 1).fld .fwStatus 0 0 0 1 = 1 ∧ (site 1).aux.inReset = true) ∧ (site 3).fld .fwStatus 0 0 1 1 = 1 := by
  refine ⟨⟨?_, by decide +kernel⟩, by decide +kernel⟩
  rcases Nat.eq_zero_or_pos Config.auxId.toNat with h | h
  · exact ⟨1, by decide, by omega⟩
  · exact ⟨0, by decide, by omega⟩
def auxWin : FwWin := { base := 0x10000, size := 0x10000, rights := 3, hint := 1 }
def walled : State := site 3 { inw := [(2, auxWin)], evFirst := some 0xF00, inReset := false }
theorem witness_firewall :
    (List.find? (fun (w : Nat × FwWin) => w.2.covers 0x10008 8 && w.2.right 0) walled.aux.inw = some (2, auxWin) ∧
      (match walled.ncRead (0x10008 / 128) 1 with | .ok .. => true | _ => false) = true) ∧
    (List.find? (fun (w : Nat × FwWin) => w.2.covers 0x10008 8 && w.2.right 1) walled.aux.inw = some (2, auxWin) ∧
      (match walled.ncWrite (0x10008 / 128) (maskAt (0x10008 % 128) 8) (lineAt (0x10008 % 128) 8 5) false 1 with | .ok .. => true | _ => false) = true) ∧
    (∀ w ∈ walled.aux.inw, (w.2.covers 0x30000 8 && w.2.right 0) = false ∧ (w.2.covers 0x30000 8 && w.2.right 1) = false) ∧
    walled.aux.evFirst = some 0xF00 ∧ walled.fld .fwStatus 0 0 1 1 = 1 := by decide +kernel
/-- Firewall commands in mailbox 0. -/
def fwMb (op : Nat) (args : List (Nat × Nat)) (x : AuxS := {}) : State := mbHas 0 op args (site 3 x)
def grantIn : State := fwMb 0x720 [(4, 2), (8, 0x10000), (0x10, 0x10000), (0x18, 3)]
def grantOut : State := fwMb 0x721 [(4, 2), (8, 0xF00080000000), (0x10, 0x1000), (0x20, 1)]
def grantCmd : State := fwMb 0x722 [(8, 1), (0xA, 0xF00)]
def revokeOut : State := fwMb 0x723 [(4, 1), (5, 2), (8, 7)] { outw := [(2, auxWin)] }
def revokeIn : State := fwMb 0x723 [(5, 2), (8, 7)] { inw := [(2, auxWin)] }
/-- The last window with the cache right is being revoked; a directory names the die. -/
def revokeLast : State := site 3 { inw := [(2, { auxWin with rights := 8, revoking := some (0, none) })] }
def holding65 : State := { revokeLast with dir := [(0x400, { st := .HX, owner := 65 })] }
theorem witness_grants :
    (Ready grantIn 0 0x720 [(4, 1), (8, 8), (0x10, 8), (0x18, 1)] ∧ grantIn.fld .fwStatus 0 0 0 1 = 1 ∧ argOf grantIn 0 4 1 < 16 ∧ argOf grantIn 0 0x18 1 < 80 ∧
      powerOf2 (argOf grantIn 0 0x10 8) = true ∧ 2 ^ 12 ≤ argOf grantIn 0 0x10 8 ∧ argOf grantIn 0 0x10 8 ≤ 2 ^ 40 ∧
      argOf grantIn 0 8 8 % argOf grantIn 0 0x10 8 = 0 ∧ localRange (argOf grantIn 0 8 8) (argOf grantIn 0 0x10 8) = true ∧ grantIn.aux.inw = []) ∧
    (Ready grantOut 0 0x721 [(4, 1), (8, 8), (0x10, 8), (0x18, 8), (0x20, 1)] ∧ argOf grantOut 0 4 1 < 16 ∧ argOf grantOut 0 0x20 1 < 4 ∧
      0 < argOf grantOut 0 0x10 8 ∧ isAuxWin (argOf grantOut 0 8 8) = true ∧ isAuxWin (argOf grantOut 0 8 8 + argOf grantOut 0 0x10 8 - 1) = true) ∧
    (Ready grantCmd 0 0x722 [(8, 2), (0xA, 2)] ∧ 0xF00 ≤ argOf grantCmd 0 0xA 2 ∧ argOf grantCmd 0 0xA 2 + 15 ≤ 0xFFF) ∧
    (Ready revokeOut 0 0x723 [(4, 1), (5, 1), (8, 4)] ∧ argOf revokeOut 0 4 1 = 1 ∧ argOf revokeOut 0 5 1 < 16 ∧ revokeOut.aux.outw.find? (argOf revokeOut 0 5 1) = some auxWin) ∧
    ((site 3 { outw := [(2, { auxWin with revoking := some (0, none) })] }).aux.outw.get {} 2).revoking = some (0, none) ∧
    (((site 3 { inw := [(2, { auxWin with revoking := some (0, none) })] }).aux.inw.get {} 2).revoking = some (0, none) ∧
      (site 3 { inw := [(2, { auxWin with revoking := some (0, none) })] }).lastCache 2 = false) ∧
    (revokeLast.lastCache 2 = true ∧ ((revokeLast.auxCancel (revokeLast.aux.inw.get {} 2)).auxOut && (revokeLast.auxCancel (revokeLast.aux.inw.get {} 2)).auxQuiet) = true) ∧
    (((holding65.auxCancel (holding65.aux.inw.get {} 2)).auxOut && (holding65.auxCancel (holding65.aux.inw.get {} 2)).auxQuiet) = false ∧ holding65.lastCache 2 = true) ∧
    (Ready revokeIn 0 0x723 [(4, 1), (5, 1), (8, 4)] ∧ argOf revokeIn 0 4 1 = 0 ∧ argOf revokeIn 0 5 1 < 16 ∧ revokeIn.aux.inw.find? (argOf revokeIn 0 5 1) = some auxWin) :=
  ⟨⟨ready_iff (by decide +kernel), by decide +kernel⟩, ⟨ready_iff (by decide +kernel), by decide +kernel⟩, ⟨ready_iff (by decide +kernel), by decide +kernel⟩,
    ⟨ready_iff (by decide +kernel), by decide +kernel⟩, by decide +kernel, by decide +kernel, by decide +kernel, by decide +kernel, ⟨ready_iff (by decide +kernel), by decide +kernel⟩⟩

/-- Module 5 of plain 1; port 0 is in a state, with partner x at member 6. -/
def fab (st : Nat) (x : ColPort := {}) (f : FabS → FabS := id) : State :=
  setR .fabCtrl 0 0 (BitVec.ofNat 64 (1 + 100 * 2)) (setR .fabId 0 0 (BitVec.ofNat 64 (0x25 + 2 ^ 14 + 2 ^ 16 + 5 * 2 ^ 25 + 2 ^ 30))
    (setR .fabPortStatus 0 0 (BitVec.ofNat 64 (st + 2 ^ 8 + 6 * 2 ^ 17 + 2 ^ 22)) { up with fab := f { ports := [(0, x)], map := [(5, 128 + 5), (6, 128 + 6), (37, 128 + 5)] } }))
theorem witness_ports :
    ((fab 0).portState 0 = 0 ∧ ((fab 0).port 0).dark = false) ∧ ((fab 2).portState 0 = 2 ∧ (fab 2).portState 0 ≠ 0 ∧ (fab 2).portState 0 ≠ 4) ∧
    ((fab 1).portState 0 = 1 ∧ ((fab 1).port 0).lnk.attempts < 2) ∧ ((fab 1 { lnk := { attempts := 2 } }).portState 0 = 1 ∧ 2 ≤ ((fab 1 { lnk := { attempts := 2 } }).port 0).lnk.attempts) ∧
    ((fab 1).portState 0 ≠ 2 ∧ (fab 4).portState 0 = 4 ∧ (fab 0 { dark := true }).portState 0 = 0 ∧ ((fab 0 { dark := true }).port 0).dark = true) := by decide +kernel
/-- With the links of port 0's optical engine up. -/
def fabL (st : Nat) (x : ColPort := {}) (f : FabS → FabS := id) : State := linked [421] (fab st x f)
theorem colHdr_append (c : BitVec 32) (b : BitVec 2016) : colHdr (c ++ b) = colHdr ((0 : BitVec 32) ++ b) := by
  unfold colHdr
  simp only [body_byte c b 0 (by omega), body_byte c b 1 (by omega), body_byte c b 2 (by omega), body_byte c b 3 (by omega), body_byte c b 4 (by omega), body_byte c b 5 (by omega), body_byte c b 6 (by omega)]
/-- The bytes of a frame before its CRC: SEQ, ACK and lane 9. -/
def frame (seq ack : Nat) : BitVec 2016 := BitVec.ofNat 2016 (seq + ack * 2 ^ 16 + 2 ^ 40 + 2 ^ 48)
/-- With `sealed` and `colHdr_append`, frames that meet the clauses at port 0. -/
theorem witness_frames :
    ((fabL 2).oeUp 0 = true ∧ (fabL 2).portState 0 = 2 ∧ (fabL 6).oeUp 0 = true ∧ (fabL 6).portState 0 = 6) ∧
    colHdr ((0 : BitVec 32) ++ frame 0 7) = { seq := 0, ack := 7, nak := false, epoch := 0, vc := 9, cred := 0 } ∧
    (colHdr ((0 : BitVec 32) ++ frame 40000 0)).seq ≠ ((fabL 2).port 0).lnk.expect ∧
    (colHdr ((0 : BitVec 32) ++ frame 0 7)).seq = ((fabL 2).port 0).lnk.expect ∧ (fabL 2).pmuOn 580 = false ∧ (fabL 6).pmuOn 580 = false ∧
    (let s : State := { fabL 2 { lnk := { sent := [3] } } with now := 2000 }
     (s.port 0).lnk.sent ≠ [] ∧ (s.port 0).lnk.ackAt + 2000 ≤ s.now) ∧ (fabL 2).now < ((fabL 2).port 0).lnk.ackAt + 2000 := by decide +kernel
def probeK : Pkt := { pktBlank with dst := 0x25, src := 0x26, tc := 3, op := 0x32 }
theorem witness_partners :
    (fab 2).portState 0 = 2 ∧ (fab 6).portState 0 = 6 ∧ ((fab 2).port 0).missed < 2 ∧ 2 ≤ ((fab 2 { missed := 2 }).port 0).missed ∧
    ((fab 3 { probeAt := some 0 }).portState 0 = 3 ∧ ((fab 3 { probeAt := some 0 }).port 0).probeAt = some 0 ∧ (fab 3 { probeAt := some 0 }).now < 0 + 20000 ∧
      0 + 20000 ≤ ({ fab 3 { probeAt := some 0 } with now := 20000 } : State).now) ∧
    (probeK.wf = true ∧ probeK.tc = 3 ∧ probeK.op = 0x32) := by decide +kernel
def note : DeadN := { plain := 1, member := 6, laddr := 0x26, time := 7, declarer := 0x25 }
theorem witness_notices : note ∉ (fab 2).fab.notices ∧ note ∈ (fab 2 {} (fun f => { f with notices := [note] })).fab.notices ∧
    ((fab 2).fab.rem = [] ∧ (fab 2).ws.snap = none ∧ (fab 2).cgs = [] ∧ note.laddr % 32 < 24 ∧ (fab 2).fab.dead.length < 2 ^ 14 - 1) := by decide +kernel
/-- Plain 3 has a route through the own global port. -/
def reachable3 : State := fab 2 {} (fun f => { f with plain := [(3, BitVec.ofNat 64 (2 ^ 15 + 5))] })
theorem one_via {l : List Nat} {n : Nat} (h : l = [3]) : l[n % max 1 l.length]? = some 3 := by
  subst h
  simp [Nat.mod_one]
/-- A partner of plain 2 is probed through plain 3, one of the own plain directly. -/
theorem witness_probes :
    (let r := reachable3.injected { pktBlank with dst := 2 * 32 + 5, tc := 3, op := 0x32 }
     let l := (r.1.stamp.2.viaPlains r.2.epoch).filter (fun q => q ≠ (2 * 32 + 5) / 32)
     (2 * 32 + 5) / 32 ≠ r.1.plainNo ∧ l[Config.viaPick r.1.stamp.1 % max 1 l.length]? = some 3) ∧
    0x26 / 32 = (fab 2).plainNo := by
  have h : reachable3.injected { pktBlank with dst := 2 * 32 + 5, tc := 3, op := 0x32 } =
      (reachable3.stamp.2, { pktBlank with dst := 2 * 32 + 5, tc := 3, op := 0x32, src := 0x25 }) := by decide +kernel
  have hl : (reachable3.stamp.2.stamp.2.viaPlains 0).filter (fun q => q ≠ (2 * 32 + 5) / 32) = [3] := by decide +kernel
  refine ⟨?_, by decide +kernel⟩
  rw [h]
  exact ⟨by decide +kernel, one_via hl⟩
/-- The module has no number yet. -/
def newcomer : State := setR .fabId 0 0 (BitVec.ofNat 64 (2 ^ 16)) (fab 2)
def hello (m : Nat) (v : Bool) : HelloF := { serial := 9, plain := 1, port := 22, member := m, mvalid := v, root := 5 }
/-- The state in which the rule for a module's number is applied. -/
def greeted (s : State) (p : Nat) (h : HelloF) : State :=
  ((((s.setPort p { s.port p with serial := h.serial, root := h.root, plain := h.plain, member := h.member, mvalid := h.mvalid, pport := h.port, known := true }).setFld .fabPortStatus p 0 8 9 h.plain).setFld
    .fabPortStatus p 0 17 5 h.member).setFld .fabPortStatus p 0 22 1 h.mvalid.toNat).checkPort p
theorem witness_discovery :
    (greeted (fab 2) 0 (hello 6 true)).memberNo.isSome = true ∧
    ((greeted newcomer 0 (hello 6 true)).memberNo = none ∧ (greeted newcomer 0 (hello 6 true)).findMember = some 5) ∧
    (up.partners = [] ∧ (fabL 2).oeUp 0 = true ∧ (fabL 2).portState 0 = 2 ∧ (fabL 6).oeUp 0 = true ∧ (fabL 6).portState 0 = 6 ∧ (fabL 3).oeUp 0 = true ∧ (fabL 3).portState 0 = 3) ∧ ((greeted newcomer 0 (hello 6 true)).partners.find? (fun (e : Nat × ColPort) => e.2.mvalid)).isSome = true := by decide +kernel
/-- Heartbeats: port 0 is not, or is, the port toward the master. -/
theorem witness_heartbeats : (fabL 2).oeUp 0 = true ∧ (fabL 2).portState 0 = 2 ∧ -(2 ^ 31) ≤ (-5 : Int) ∧ (-5 : Int) < 2 ^ 31 ∧ (fabL 2).fld .fabTimeStatus 0 0 16 6 ≠ 0 ∧
    (setR .fabTimeStatus 0 0 0 (fabL 2)).oeUp 0 = true ∧ (setR .fabTimeStatus 0 0 0 (fabL 2)).portState 0 = 2 ∧ (setR .fabTimeStatus 0 0 0 (fabL 2)).fld .fabTimeStatus 0 0 16 6 = 0 := by decide +kernel
/-- A request to member m of the own plain, stamped at ts. -/
def askK (op m : Nat) (data : List Byte := []) : Pkt := { pktBlank with dst := 0x20 + m, src := 0x26, tc := 0, op := op, offset := 0x20000, data := data }
/-- A packet has arrived at port 0. -/
def came (k : Pkt) (f : FabS → FabS := id) : State := fab 2 { arrived := [k] } f
/-- The same, two milliseconds later. -/
def cameLate (k : Pkt) : State := { came k with now := 2000000 }
def noticeK : Pkt := { askK 1 5 with tc := 3, op := 0x31 }
theorem witness_packets2 :
    ((askK 1 5).wf = true ∧ ((fab 2).port 0).arrived.head? ≠ some (askK 1 5) ∧ ((came (askK 1 5)).port 0).arrived.head? = some (askK 1 5)) ∧
    ({ askK 1 5 with op := 9 } : Pkt).wf = true ∧ ((came { askK 1 5 with op := 9 }).port 0).arrived.head? = some { askK 1 5 with op := 9 } ∧
    pktKnown { askK 1 5 with op := 9 } = false ∧ pktKnown (askK 1 5) = true ∧
    (∀ k ∈ [askK 1 5, probeK], k.wf = true ∧ pktKnown k = true ∧ ((cameLate k).port 0).arrived.head? = some k ∧
      ((cameLate k).tstamp + 2 ^ 16 - k.tstamp) % 2 ^ 16 * 1024 > (cameLate k).fab.lifetime * 1000) ∧ ((askK 1 5).tc = 0 ∧ probeK.tc ≠ 0) ∧
    (∀ k ∈ [askK 1 5, askK 1 6, noticeK], k.wf = true ∧ pktKnown k = true ∧ ((came k).port 0).arrived.head? = some k ∧
      ¬ ((came k).tstamp + 2 ^ 16 - k.tstamp) % 2 ^ 16 * 1024 > (came k).fab.lifetime * 1000 ∧ k.tc ≠ 4) ∧
    (noticeK.op = 0x31 ∧ (askK 1 5).op ≠ 0x31 ∧ (askK 1 6).op ≠ 0x31) ∧
    ((askK 1 5).dst / 32 = (came (askK 1 5)).plainNo ∧ (askK 1 5).nm = false ∧ (came (askK 1 5)).memberNo = some 5 ∧ (came (askK 1 5)).mapOf (askK 1 5).epoch ((askK 1 5).dst % 32) = some 5) ∧
    ((came (askK 1 6)).pmuOn 580 = false ∧ (askK 1 6).hops < 7 ∧
      (let s0 := (came (askK 1 6)).takeArrived 0
       s0.stamp.2.route s0.stamp.1 (askK 1 6) 2 = .port 0 (askK 1 6))) := by decide +kernel
theorem witness_routing :
    ((fab 2).plainNo = (askK 1 6).dst / 32 ∧ (askK 1 6).nm = false ∧ (fab 2).memberNo = some 5 ∧
      (fab 2).mapOf (askK 1 6).epoch ((askK 1 6).dst % 32) = some 6 ∧ (6 : Nat) ≠ 5 ∧ (fab 2).toMember 5 6 = some 0) ∧
    ((6 + 23 - 5) % 24 = 0 ∧ (fab 2).portState ((6 + 23 - 5) % 24) = 2) ∧ (fab 2).stamp.2.memberNo.isSome = true := by decide +kernel
theorem free_line (i : Nat) : (fab 2).lineBusy i = false := by
  simp [State.lineBusy, NMap.has, show (fab 2).txns = [] from rfl, show (fab 2).hq = [] from rfl]
def amoK : Pkt := askK 3 5 (leBytes 1 0 ++ leBytes 1 1 ++ leBytes 6 0 ++ leBytes 8 4 ++ leBytes 8 0)
theorem witness_remote :
    (let s := { fab 2 with rsts := [{ dom := .warm }] }; (s : State).inReset .warm = true) ∧
    ((fab 2).inReset .warm = false ∧ (setR .fabCtrl 0 0 0 (fab 2)).fld .fabCtrl 0 0 0 1 = 0 ∧ (fab 2).fld .fabCtrl 0 0 0 1 = 1 ∧
      (setR .pwrStatus 0 0 3 (fab 2)).fld .pwrStatus 0 0 0 3 = 3 ∧ (fab 2).fld .pwrStatus 0 0 0 3 ≠ 3 ∧ (fab 2).memOk = true) ∧
    ((askK 1 5).wf = true ∧ (askK 1 5).tc = 0 ∧ pktKnown (askK 1 5) = true ∧ localRange ((askK 1 5).offset / 128 * 128) 128 = true ∧
      (match ((fab 2).takePkt (askK 1 5)).ncRead ((askK 1 5).offset / 128) (askK 1 5).hint with | .ok .. => true | _ => false) = true) ∧
    ((askK 2 5 (leBytes 128 7)).wf = true ∧ (askK 2 5 (leBytes 128 7)).data.length = 128 ∧ localRange (askK 2 5).offset 128 = true ∧
      (match ((fab 2).takePkt (askK 2 5 (leBytes 128 7))).ncWrite ((askK 2 5).offset / 128) (BitVec.allOnes 128) (lineOfBytes ((leBytes 128 7).take 128)) false 1 with | .ok .. => true | _ => false) = true) ∧
    ((∀ k ∈ [askK 1 5, askK 2 5 (leBytes 128 7), amoK], (fab 2).writeWaits k = false) ∧
      (fab 2 {} (fun f => { f with inbox := [askK 2 5 (leBytes 128 7), askK 2 5 (leBytes 128 9)] })).writeWaits (askK 2 5 (leBytes 128 9)) = true) ∧
    (amoK.wf = true ∧ amoK.data.length = 24 ∧ ofLeBytes (amoK.data.take 1) ≤ 10 ∧ ofLeBytes ((amoK.data.drop 1).take 1) = 1 ∧ amoK.offset % 8 = 0 ∧ localRange amoK.offset 8 = true ∧
      (match ((fab 2).takePkt amoK).ncAmo amoK.offset 8 0 4 0 amoK.hint with | .ok .. => true | _ => false) = true) := by decide +kernel
/-- A read of module 6 waits for its answer. -/
def asking : State := fab 2 {} (fun f => { f with rem := [{ tag := 4, w := .op 5, dst := 0x26, line := 7, sent := true }] })
def ansK (tag : Nat) : Pkt := { pktBlank with dst := 0x25, src := 0x26, tc := 1, op := 0x10, tag := tag, data := leBytes 128 7 }
theorem witness_remAnswers :
    ((ansK 4).wf = true ∧ (ansK 4).tc = 1 ∧ pktKnown (ansK 4) = true ∧ (asking.fab.rem.any (fun r => r.tag == (ansK 4).tag && r.dst == (ansK 4).src && r.sent)) = true) ∧
    ((ansK 5).wf = true ∧ (asking.fab.rem.any (fun r => r.tag == (ansK 5).tag && r.dst == (ansK 5).src && r.sent)) = false) ∧
    (asking.fab.rem.find? (fun r => r.tag == 4) = some { tag := 4, w := .op 5, dst := 0x26, line := 7, sent := true } ∧ asking.now < 0 + asking.fld .ordCtrl 0 0 0 10 * 1000 ∧
      0 + ({ asking with now := 2000000 } : State).fld .ordCtrl 0 0 0 10 * 1000 ≤ 2000000) := by decide +kernel
/-- Time: an announcement better than the module itself; an offset that has been good; HOLDOVER. -/
def timing (st : Nat) : State := setR .fabTimeStatus 0 0 (BitVec.ofNat 64 st) { fab 2 {} (fun f => { f with goodSince := some 0, holdSince := some 0, up := some (5, 2000000) }) with ref := 2000000 }
theorem witness_time :
    ((fab 2).portState 0 = 2 ∧ (0 : Nat) < (fab 2).fld .fabTimeCfg 0 0 0 8 ∧ ¬ (fab 2).fab.masterSet = true) ∧
    ((timing 0).fab.goodSince = some 0 ∧ 0 + 100000 ≤ (timing 0).ref ∧ (timing 0).fld .fabTimeStatus 0 0 0 2 = 0 ∧ (timing 0).fld .fabTimeStatus 0 0 2 1 = 0 ∧
      (timing 0).disciplined = 5 ∧ 5 ≤ 12 + 10 ∧ 12 ≤ 5 + 10 ∧ 5 + 10 < 16) ∧
    ((timing 4).fab.goodSince = some 0 ∧ 0 + 100000 ≤ (timing 4).ref ∧ (timing 4).fld .fabTimeStatus 0 0 0 2 = 0 ∧ (timing 4).fld .fabTimeStatus 0 0 2 1 = 1) ∧
    ((timing 2).fab.goodSince = some 0 ∧ 0 + 100000 ≤ (timing 2).ref ∧ 2 ≤ (timing 2).fld .fabTimeStatus 0 0 0 2) ∧
    ((timing 2).fab.holdSince = some 0 ∧ (timing 2).fld .fabTimeStatus 0 0 0 2 = 2 ∧ 0 + 2000000 ≤ (timing 2).ref ∧ (timing 2).pwr.slewPend = none ∧
      (timing 2).pwr.ldPend = none ∧ (timing 2).fab.switchAt = none ∧ (timing 2).ws.snap = none ∧ (timing 2).cgs = []) := by decide +kernel
/-- Routing banks: a switch is due, with the module mapped in the new bank, or not; a bank is held; commands. -/
def switching (map : NMap Nat) : State := fab 2 {} (fun f => { f with switchAt := some 0, heldUntil := some 0, map := map })
def lockedS (op : Nat) (args : List (Nat × Nat)) (st : Nat) : State := mbHas 0 op args (setR .fabTimeStatus 0 0 (BitVec.ofNat 64 st) { fab 2 with mem := bytesAt 0x20000 8 0x8786 })
def heldS : State := mbHas 0 0x303 [(8, 30000)] (setR .fabTimeStatus 0 0 1 (fab 2 {} (fun f => { f with heldUntil := some 7 })))
def mapping : State := lockedS 0x302 [(4, 1), (8, 3), (0xA, 2), (0x10, 0x20000)] 0
theorem witness_banks :
    ((switching [(35, 128 + 5)]).fab.switchAt = some 0 ∧ 0 ≤ (switching [(35, 128 + 5)]).now ∧ (switching [(35, 128 + 5)]).memberNo = some 5 ∧
      (upTo 24).find? (fun lm => (switching [(35, 128 + 5)]).mapOf (1 - (switching [(35, 128 + 5)]).epoch) lm == some 5) = some 3 ∧
      ∀ lm < 24, (switching []).mapOf (1 - (switching []).epoch) lm ≠ some 5) ∧
    (switching []).fab.heldUntil = some 0 ∧
    (Ready (lockedS 0x303 [(8, 30000)] 1) 0 0x303 [(8, 8)] ∧ (lockedS 0x303 [(8, 30000)] 1).fld .fabTimeStatus 0 0 0 2 = 1 ∧
      (lockedS 0x303 [(8, 30000)] 1).now + 20000 ≤ argOf (lockedS 0x303 [(8, 30000)] 1) 0 8 8 ∧ (lockedS 0x303 [(8, 30000)] 1).fab.heldUntil = none ∧ (lockedS 0x303 [(8, 30000)] 1).fab.switchAt = none) ∧
    (Ready heldS 0 0x303 [(8, 8)] ∧ heldS.fld .fabTimeStatus 0 0 0 2 = 1 ∧ heldS.now + 20000 ≤ argOf heldS 0 8 8 ∧ heldS.fab.heldUntil.isSome = true) ∧
    (Ready (lockedS 0x303 [(8, 30)] 1) 0 0x303 [(8, 8)] ∧ argOf (lockedS 0x303 [(8, 30)] 1) 0 8 8 < (lockedS 0x303 [(8, 30)] 1).now + 20000) ∧
    (Ready (lockedS 0x303 [(8, 30)] 0) 0 0x303 [(8, 8)] ∧ (lockedS 0x303 [(8, 30)] 0).fld .fabTimeStatus 0 0 0 2 ≠ 1) ∧
    (Ready mapping 0 0x302 [(4, 1), (8, 2), (0xA, 2), (0x10, 8)] ∧ argOf mapping 0 4 1 = 1 ∧ argOf mapping 0 0xA 2 = 2 ∧ argOf mapping 0 8 2 = 3 ∧
      localRange (argOf mapping 0 0x10 8) 2 = true ∧ mapping.fab.heldUntil = none ∧ mapping.memOk = true ∧
      (match mapping.readBytes (argOf mapping 0 0x10 8) 2 with | some (_, b, false) => b.all (fun x => x.toNat % 32 < 24) | _ => false) = true) ∧
    (Ready (lockedS 0x301 [(8, 7)] 0) 0 0x301 [(8, 2)] ∧ argOf (lockedS 0x301 [(8, 7)] 0) 0 8 2 < 512) :=
  ⟨by decide +kernel, by decide +kernel, ⟨ready_iff (by decide +kernel), by decide +kernel⟩, ⟨ready_iff (by decide +kernel), by decide +kernel⟩, ⟨ready_iff (by decide +kernel), by decide +kernel⟩,
    ⟨ready_iff (by decide +kernel), by decide +kernel⟩, ⟨ready_iff (by decide +kernel), by decide +kernel⟩, ready_iff (by decide +kernel), by decide +kernel⟩
def portOff : State := mbHas 0 0x304 [(8, 50)] (fab 2)
def portOn : State := mbHas 0 0x304 [(5, 1)] (fab 5 { light := true })
theorem witness_portControl :
    (Ready portOff 0 0x304 [(4, 1), (5, 1), (8, 4)] ∧ argOf portOff 0 4 1 < 48 ∧ argOf portOff 0 5 1 = 0 ∧ argOf portOff 0 8 4 ≤ 1000000 ∧
      (portOff.port (argOf portOff 0 4 1)).drainEnd = none ∧ portOff.portState (argOf portOff 0 4 1) ≠ 5) ∧
    (Ready portOn 0 0x304 [(4, 1), (5, 1), (8, 4)] ∧ argOf portOn 0 4 1 < 48 ∧ argOf portOn 0 5 1 = 1 ∧ argOf portOn 0 8 4 ≤ 1000000 ∧
      (portOn.port (argOf portOn 0 4 1)).drainEnd = none ∧ portOn.portState (argOf portOn 0 4 1) = 5) ∧
    (((fab 5 { drainEnd := some 0, txq := [askK 1 6] }).port 0).drainEnd = some 0 ∧ 0 ≤ (fab 5 { drainEnd := some 0, txq := [askK 1 6] }).now) :=
  ⟨⟨ready_iff (by decide +kernel), by decide +kernel⟩, ⟨ready_iff (by decide +kernel), by decide +kernel⟩, by decide +kernel⟩
/-- Groups: one is made of members 5 and 6; one is there, with an instance or without. -/
def grouping : State := mbHas 0 0x310 [(4, 7), (8, 0x20000), (0x10, 2), (0x18, 0x30000), (0x20, 16), (0x24, 50)] { fab 2 with mem := bytesAt 0x20000 8 0x260025 }
def grouped (i : Option CInst) (op : Nat) (args : List (Nat × Nat)) : State := mbHas 0 op args { fab 2 with cgs := [(7, { members := [0x25, 0x26], addr := 0x25, ring := 0x30000, inst := i })] }
theorem witness_groups :
    (Ready grouping 0 0x310 [(4, 2), (8, 8), (0x10, 2), (0x18, 8), (0x20, 2), (0x24, 4)] ∧ argOf grouping 0 4 2 < 4096 ∧ argOf grouping 0 0x10 2 = 2 ∧
      localRange (argOf grouping 0 8 8) 4 = true ∧ cgRingOk (argOf grouping 0 0x18 8) (argOf grouping 0 0x20 2) = true ∧ grouping.cgs.has (argOf grouping 0 4 2) = false ∧
      grouping.memOk = true ∧ grouping.laddr = some 0x25 ∧
      (match grouping.readBytes (argOf grouping 0 8 8) 4 with
       | some (_, b, false) => (upTo 2).map (fun i => ofLeBytes ((b.drop (2 * i)).take 2)) == [0x25, 0x26]
       | _ => false) = true ∧ [0x25, 0x26].count 0x25 = 1) ∧
    (Ready (grouped none 0x311 [(4, 7)]) 0 0x311 [(4, 2)] ∧ ((grouped none 0x311 [(4, 7)]).cgs.find? (argOf (grouped none 0x311 [(4, 7)]) 0 4 2)).map (fun g => (g.inst, g.destroying)) = some (none, none)) ∧
    (Ready (grouped (some {}) 0x311 [(4, 7)]) 0 0x311 [(4, 2)] ∧ ((grouped (some {}) 0x311 [(4, 7)]).cgs.find? (argOf (grouped (some {}) 0x311 [(4, 7)]) 0 4 2)).map (fun g => (g.inst, g.destroying)) = some (some {}, none)) ∧
    (let s := grouped none 0 []; s.reach .ext (regAddr .cgDoorbell 7 0) = .ok ∧ s.fld .pwrStatus 0 0 0 3 ≠ 3 ∧ s.cgs.find? 7 = some { members := [0x25, 0x26], addr := 0x25, ring := 0x30000 } ∧
      (s.reg .cgDoorbell 7 0).toNat < (1 : Word).toNat ∧ (1 : Word).toNat ≤ 0 + 16 ∧ 0 + 16 < (17 : Word).toNat ∧ (0 : Word).toNat ≤ (s.reg .cgDoorbell 7 0).toNat) ∧
    ((fab 2).cgs.find? 7 = none ∧ (fab 2).reach .ext (regAddr .cgDoorbell 7 0) = .ok) :=
  ⟨⟨ready_iff (by decide +kernel), by decide +kernel⟩, ⟨ready_iff (by decide +kernel), by decide +kernel⟩, ⟨ready_iff (by decide +kernel), by decide +kernel⟩,
    by decide +kernel, by decide +kernel⟩

/-- Group 7 of modules 5 and 6: its ring, its instance, and what stands in memory. -/
def coll (g : CGrp → CGrp) (mem : List Host.Cell := []) (now : Nat := 1000) : State :=
  { fab 2 with cgs := [(7, g { members := [0x25, 0x26], addr := 0x25, ring := 0x30000, defdl := 5 })], mem := mem, now := now }
/-- A record of an all-reduce of one line from 0x40000 to 0x50000. -/
def ringRec : List Host.Cell := bytesAt 0x30000 64 (3 + 0x40000 * 2 ^ 64 + 0x50000 * 2 ^ 128 + 128 * 2 ^ 192 + 0x60000 * 2 ^ 384)
def inst0 : CInst := { op := 3, src := 0x40000, dst := 0x50000, bytes := 256, compl := 0x60000, live := [0, 1], deadline := 5000 }
/-- The next record is taken. -/
def takeB (s : State) (p : CInst → Nat → Bool) : Bool :=
  match s.cgs.find? 7 with
  | none => false
  | some g => match s.ncRead ((g.ring + 64 * (g.ridx % g.size)) / 128) 1 with
    | .ok s1 d false => lineBytes d ((g.ring + 64 * (g.ridx % g.size)) % 128) 1 != 0 &&
      (match s1.ncPut (g.ring + 64 * (g.ridx % g.size)) [0] 1 with
       | .ok s2 _ _ => p (instOf g (g.first + g.ridx) s.now d ((g.ring + 64 * (g.ridx % g.size)) % 128) false (s.fld .fabTimeStatus 0 0 0 2 == 0)) s2.now
       | _ => false)
    | _ => false
theorem witness_collStart :
    (let s := coll id; s.cgs.find? 7 = some { members := [0x25, 0x26], addr := 0x25, ring := 0x30000, defdl := 5 } ∧ s.laddr = some 0x25 ∧ (s.reg .cgDoorbell 7 0).toNat ≤ 0) ∧
    (let s := setR .cgDoorbell 7 0 1 (coll id); 0 < (s.reg .cgDoorbell 7 0).toNat ∧
      (match s.ncRead (0x30000 / 128) 1 with | .ok _ d false => lineBytes d 0 1 == 0 | _ => false) = true) ∧
    takeB (setR .cgDoorbell 7 0 1 (coll id ringRec)) (fun i t => !i.bad && !i.unlocked && i.start ≤ t) = true ∧
    takeB (setR .cgDoorbell 7 0 1 (coll id (bytesAt 0x30000 64 9))) (fun i _ => i.bad) = true ∧
    ((coll (fun g => { g with inst := some inst0 })).cgs.find? 7 = some { members := [0x25, 0x26], addr := 0x25, ring := 0x30000, defdl := 5, inst := some inst0 } ∧
      inst0.opened = false ∧ inst0.start ≤ (coll (fun g => { g with inst := some inst0 })).now) := by decide +kernel
theorem witness_shards : 0 < 2 ∧ 0 ∈ inst0.lines 2 0 ∧ (1 : Nat) < inst0.nlines := by decide +kernel
/-- A line of rank 1 arrives for shard 0, of an all-reduce and of an all-gather. -/
def dataK (line : Nat) : Pkt := { pktBlank with dst := 0x25, src := 0x26, tc := 2, op := 0x20, offset := line, group := 7, ccount := 1, data := leBytes 128 9 }
def openInst : CInst := { inst0 with opened := true, shards := [(0, {})] }
theorem witness_collPackets :
    ((dataK 0).data.length ≤ 512 ∧ ((coll (fun g => { g with inst := some openInst })).cgs.find? (dataK 0).group).map (fun g => (g.inst, g.rank (dataK 0).src)) = some (some openInst, some 1) ∧
      ((dataK 0).offset >>> 28) % 8192 = openInst.k % 8192 ∧ (dataK 0).data.length % 128 = 0 ∧ (dataK 0).data ≠ [] ∧
      (∀ x ∈ pktLines (dataK 0), x.1 < openInst.nlines ∧ openInst.shardOf 2 x.1 = openInst.shardOf 2 ((dataK 0).offset % 2 ^ 28)) ∧
      openInst.reduces = true ∧ openInst.shards.has (openInst.shardOf 2 ((dataK 0).offset % 2 ^ 28)) = true) ∧
    (let i : CInst := { openInst with op := 2 }; i.reduces = false ∧ 1 = i.source 2 (i.shardOf 2 ((dataK 1).offset % 2 ^ 28)) ∧
      ∀ x ∈ pktLines (dataK 1), x.1 < i.nlines ∧ i.shardOf 2 x.1 = i.shardOf 2 ((dataK 1).offset % 2 ^ 28)) ∧
    (((dataK 0).offset >>> 28) % 8192 = inst0.k % 8192 ∧ inst0.opened = false ∧ inst0.bad = false ∧ inst0.unlocked = false ∧ inst0.cancelled = false) ∧
    ((0 : Nat) >>> 28 % 8192 = 0 ∧ ((dataK 0).offset >>> 28) % 8192 = ({ inst0 with k := 1 }.k + 8191) % 8192) ∧ (fab 2).cgs.find? (dataK 0).group = none := by decide +kernel
theorem witness_collDeadlines :
    (let s := coll (fun g => { g with inst := some openInst }); s.now < openInst.deadline) ∧
    (let s := coll (fun g => { g with inst := some openInst }) [] 5000; openInst.opened = true ∧ openInst.deadline ≤ s.now ∧ openInst.reduces = true) ∧
    (let i : CInst := { openInst with op := 2 }; i.op = 2 ∧ ∃ x < i.nlines, i.recv.has x = false) ∧
    (let s := coll (fun g => { g with inst := some openInst }) [] 10000; openInst.deadline + 5 * 1000 ≤ s.now) ∧
    (let s := coll (fun g => { g with inst := some openInst }) [] 5000; s.now < openInst.deadline + 5 * 1000) := by
  refine ⟨by decide, by decide, ⟨rfl, 0, by decide, by decide⟩, by decide, by decide⟩
/-- An instance whose two lines are written ends. -/
def endInst : CInst := { inst0 with opened := true, recv := [(0, 2), (1, 1)], shards := [(0, { closed := true })] }
theorem witness_collEnds (ds : Option Nat) (h : ds = none ∨ ds = some 0) :
    let s := coll (fun g => { g with inst := some endInst, destroying := ds })
    (s.cgs.find? 7).map (fun g => (g.inst, g.destroying)) = some (some endInst, ds) ∧ endInst.ended = true ∧ endInst.compl % 16 = 0 ∧ localRange endInst.compl 16 = true ∧
    (match s.ncPut endInst.compl (leBytes 2 (endInst.status 2) ++ leBytes 2 1 ++ leBytes 2 2 ++ leBytes 2 0 ++ leBytes 8 0) 1 with | .ok .. => true | _ => false) = true := by
  rcases h with rfl | rfl <;> decide +kernel
theorem witness_collStatus :
    ({ inst0 with bad := true }.bad = true) ∧ ({ inst0 with unlocked := true }.unlocked = true ∧ inst0.bad = false) ∧ { inst0 with cancelled := true }.cancelled = true ∧
    { inst0 with rootLost := true }.rootLost = true ∧ { inst0 with shardLost := true }.shardLost = true ∧
    (endInst.reduces = true ∧ endInst.shardLost = false ∧ ∃ e ∈ endInst.recv, e.2 < 2) ∧ { inst0 with op := 2 }.reduces = false := by
  refine ⟨rfl, ⟨rfl, rfl⟩, rfl, rfl, rfl, ⟨rfl, rfl, (1, 1), by decide, by decide⟩, rfl⟩

/-- The Watershed in a state, with its thresholds; all its weights are zero and its die sensors cold. -/
def water (state thresh : Nat) : State :=
  setR .wsStatus 0 0 (BitVec.ofNat 64 (state * 2 ^ 16)) (setR .wsThresh 0 0 (BitVec.ofNat 64 thresh)
    ((upTo 12).foldl (fun s i => setR .wsIn i 0 0 s) { up with cp := { sensors := (upTo 15).map (fun i => (i, 0)) } }))
theorem witness_samples :
    ((setR .wsCtrl 0 0 0 up).fld .wsCtrl 0 0 0 1 = 0) ∧
    ((water 1 0).fld .wsCtrl 0 0 0 1 = 1 ∧ (water 1 0).pwr.phase = .on ∧ (water 1 0).fld .wsStatus 0 0 16 2 = 1 ∧ (water 1 0).fld .wsThresh 0 0 16 16 ≤ (water 1 0).wsAverage.2.2) ∧
    (let s := water 1 (0x10001 * 100); s.fld .wsStatus 0 0 16 2 = 1 ∧ s.wsAverage.2.2 < s.fld .wsThresh 0 0 16 16 ∧ s.wsAverage.2.2 < s.fld .wsThresh 0 0 0 16) := by decide +kernel
/-- Snapshots: one region of a line at 0x40000, to module 6. -/
def snapping (start : Nat) : State :=
  mbHas 0 0x401 [(4, 1), (6, 0x26), (8, 0x20000), (0x10, 1), (0x18, start), (0x20, 0x80000), (0x28, 3)] { fab 2 with mem := bytesAt 0x20000 16 (0x40000 + 128 * 2 ^ 64) }
def snap0 : Snap := { buddy := 0x26, dest := 0x80000, regions := [(0x40000, 128)] }
def snapped (n : Snap) : State := { fab 2 with ws := { snap := some n } }
theorem witness_snapshots :
    (Ready (mbHas 0 0x401 [] (snapped snap0)) 0 0x401 [(4, 1), (6, 2), (8, 8), (0x10, 2), (0x18, 8), (0x20, 8), (0x28, 8)] ∧ (mbHas 0 0x401 [] (snapped snap0)).ws.snap ≠ none) ∧
    (Ready (snapping 0) 0 0x401 [(4, 1), (6, 2), (8, 8), (0x10, 2), (0x18, 8), (0x20, 8), (0x28, 8)] ∧ (snapping 0).ws.snap = none ∧ (snapping 0).memOk = true ∧
      argOf (snapping 0) 0 4 1 ≤ 1 ∧ (snapping 0).laddr = some 0x25 ∧ argOf (snapping 0) 0 6 2 = 0x26 ∧ argOf (snapping 0) 0 0x10 2 = 1 ∧
      localRange (argOf (snapping 0) 0 8 8) 16 = true ∧ argOf (snapping 0) 0 0x20 8 % 128 = 0 ∧
      (match (snapping 0).readBytes (argOf (snapping 0) 0 8 8) 16 with
       | some (_, b, false) => (regionsOf b 1).all (fun r => r.1 % 128 == 0 && r.2 % 128 == 0 && (r.2 == 0 || localRange r.1 r.2)) &&
          decide (argOf (snapping 0) 0 0x20 8 + 128 + ((regionsOf b 1).map (·.2)).sum ≤ 2 ^ 41)
       | _ => false) = true ∧ argOf (snapping 0) 0 0x18 8 = 0 ∧ (snapping 0).moverJobs < 64) ∧
    ((snapped snap0).ws.snap = some snap0 ∧ snap0.stage = 0 ∧ snap0.start ≤ (snapped snap0).now) ∧
    ((snapped { snap0 with stage := 1, copied := true }).ws.snap = some { snap0 with stage := 1, copied := true }) ∧ snap0.copied = false ∧
    (fab 2).remoteKnown (remoteAddr snap0.buddy snap0.dest) = true ∧ (snapped { snap0 with stage := 2 }).ws.snap = some { snap0 with stage := 2 } :=
  ⟨⟨ready_iff (by decide +kernel), by decide +kernel⟩, ⟨ready_iff (by decide +kernel), by decide +kernel⟩, by decide +kernel, by decide +kernel, by decide +kernel,
    by decide +kernel, by decide +kernel⟩
/-- Group records: export of group 7 at 0x20000, and import of its entry there. -/
def exporting (limit : Nat) : State := mbHas 0 0x402 [(6, 0xFFFF), (8, 0x20000), (0x10, limit)] (coll id)
def importing : State := mbHas 0 0x403 [(8, 0x20000), (0x10, 0x40000), (0x20, 0x26)]
  { fab 2 with mem := bytesAt 0x20000 128 (7 + 2 * 2 ^ 16 + 5 * 2 ^ 32 + 3 * 2 ^ 64 + 16 * 2 ^ 128 + 128 * 2 ^ 160 + (0x25 + 0x26 * 2 ^ 16) * 2 ^ 512) }
theorem witness_groupRecords :
    (Ready (exporting 4096) 0 0x402 [(6, 2), (8, 8), (0x10, 4)] ∧ argOf (exporting 4096) 0 8 8 % 64 = 0 ∧
      localRange (argOf (exporting 4096) 0 8 8) (argOf (exporting 4096) 0 0x10 4) = true ∧ (exporting 4096).memOk = true ∧
      (let b := (exporting 4096).cgs.flatMap (fun (e : Nat × CGrp) => cgEntry e.1 e.2)
       b.length ≤ argOf (exporting 4096) 0 0x10 4 ∧ ((exporting 4096).writeBytes (argOf (exporting 4096) 0 8 8) b (b.length / 128 + 2)).isSome = true)) ∧
    (Ready (exporting 0) 0 0x402 [(6, 2), (8, 8), (0x10, 4)] ∧ argOf (exporting 0) 0 0x10 4 = 0 ∧
      0 < ((exporting 0).cgs.flatMap (fun (e : Nat × CGrp) => cgEntry e.1 e.2)).length) ∧
    (Ready importing 0 0x403 [(8, 8), (0x10, 8), (0x18, 2), (0x20, 2)] ∧ argOf importing 0 8 8 % 64 = 0 ∧ localRange (argOf importing 0 8 8) 64 = true ∧ importing.memOk = true ∧
      argOf importing 0 0x18 2 = 0 ∧ cgRingOk (argOf importing 0 0x10 8) 16 = true ∧ argOf importing 0 0x20 2 = 0x26 ∧ importing.cgs.has 7 = false ∧
      (match importing.readBytes (argOf importing 0 8 8) 64 with
       | some (s1, h, false) => ofLeBytes ((h.drop 0).take 2) == 7 && ofLeBytes ((h.drop 2).take 2) == 2 && ofLeBytes ((h.drop 0x10).take 2) == 16 &&
         localRange (argOf importing 0 8 8 + 64) 4 &&
         (match s1.readBytes (argOf importing 0 8 8 + 64) 4 with
          | some (_, b, false) => (upTo 2).map (fun i => ofLeBytes ((b.drop (2 * i)).take 2)) == [0x25, 0x26]
          | _ => false)
       | _ => false) = true) :=
  ⟨⟨ready_iff (by decide +kernel), by decide +kernel⟩, ⟨ready_iff (by decide +kernel), by decide +kernel⟩, ⟨ready_iff (by decide +kernel), by decide +kernel⟩⟩

/-- Mailboxes: a command stands in the area of MB0 or MB7, or MB0 is busy. -/
def ringing (busy : Bool) : State := (setR .mbCmd 0 0 1 up).setFld .mbStatus 0 0 24 1 busy.toNat
/-- MB0's command is complete. -/
def completing : State := up.setMbox 0 { cmd := cmdOf 1 [(3, 9)], busy := true, res := some (0, padTo 64 [1, 2]) }
theorem witness_mailboxes :
    ((∀ iss ∈ [Iss.ext, Iss.store 3], ∀ b, (ringing b).reach iss (regAddr .mbDoorbell 0 0) = .ok) ∧ up.reach .ext (regAddr .mbDoorbell 7 0) = .ok ∧
      bit (0 : Word) 0 = false ∧ bit (1 : Word) 0 = true ∧ (ringing false).fld .mbStatus 0 0 24 1 ≠ 1 ∧ (ringing true).fld .mbStatus 0 0 24 1 = 1) ∧
    (let s := setR .cpStatus 0 0 1 up
     s.fld .cpStatus 0 0 0 2 = 1 ∧ s.fld .secStatus 0 0 0 1 = 0 ∧ s.inReset .warm = false ∧
      (let m : Mbx := { cmd := cmdOf 1 [] }; bit (BitVec.ofNat 64 m.ctrl) 14 = false ∧ m.held = false ∧ m.res = none ∧ assigned m.opcode = true) ∧
      (let m : Mbx := { cmd := cmdOf 0xABC [] }; assigned m.opcode = false)) ∧
    ((completing.mbox 0).busy = true ∧ (completing.mbox 0).res = some (0, padTo 64 [1, 2]) ∧ (completing.mbox 0).ctrl / 2 ^ 15 % 2 = 0) := by decide +kernel
/-- A management packet of n bytes from module 6, and a command of MB1 that runs there. -/
def mgmtK (n : Nat) : Pkt := { pktBlank with dst := 0x25, src := 0x26, tc := 3, op := 0x30, tag := 4, data := leBytes n 2 }
def served (busy : Bool) : State := { (fab 2).setMbox 7 { busy := busy } with fab := { (fab 2).fab with inbox := [mgmtK 64] } }
def remoteMb : Mbx := { cmd := cmdOf 1 [], ctrl := 2 ^ 14 + 0x26, busy := true, remote := some 4, remoteBound := 5000 }
theorem witness_remoteCommands :
    ((mgmtK 64).wf = true ∧ (served false).hdOn = true ∧ (mgmtK 64).tc = 3 ∧ (mgmtK 64).op = 0x30 ∧ (mgmtK 64).data.length = 64 ∧
      ((served false).mbox 7).busy = false ∧ (served false).fab.inbox.find? (isMgmt 64) = some (mgmtK 64)) ∧ ((served true).mbox 7).busy = true ∧
    ((mgmtK 66).wf = true ∧ (mgmtK 66).data.length = 66 ∧
      List.find? (fun (e : Nat × Mbx) => e.2.busy && e.2.res.isNone && e.2.remote == some (mgmtK 66).tag && e.2.ctrl % 2 ^ 14 == (mgmtK 66).src)
        ((fab 2).setMbox 1 remoteMb).mbs = some (1, remoteMb)) ∧
    ((((fab 2).setMbox 1 remoteMb).mbox 1).remote.isSome = true ∧ ((fab 2).setMbox 1 remoteMb).now < (((fab 2).setMbox 1 remoteMb).mbox 1).remoteBound ∧
      (let s : State := { (fab 2).setMbox 1 remoteMb with now := 5000 }; (s.mbox 1).remoteBound ≤ s.now)) := by decide +kernel
def ev0 : Ev := { code := 0x310, source := 13 }
/-- Ring 1 is on, with w records written and none read. -/
def ringed (w : Nat) : State :=
  setR .evrStatus 1 0 1 (setR .evrWidx 1 0 (BitVec.ofNat 64 w) { up with cp := { rings := [(1, { base := 0x20000, log2 := 6, mask := 8 })], ring3 := [ev0] } })
theorem witness_systemCommands :
    Ready (mbHas 0 1 [] up) 0 1 [] ∧ Ready (mbHas 0 2 [] up) 0 2 [] ∧
    (Ready (mbHas 0 3 [(8, 5), (10, 1)] up) 0 3 [(8, 2), (10, 1)] ∧ argOf (mbHas 0 3 [(8, 5), (10, 1)] up) 0 10 1 ≤ 1) ∧
    (let s := mbHas 0 4 [(5, 6), (6, 3), (8, 0x20000), (0x10, 1), (0x18, 1)] up
     Ready s 0 4 [(4, 1), (5, 1), (6, 2), (8, 8), (0x10, 8), (0x18, 1)] ∧ ownRing 0 = some 0 ∧ argOf s 0 4 1 = 0 ∧ s.memOk = true ∧ argOf s 0 5 1 = 6 ∧
      argOf s 0 8 8 % 64 = 0 ∧ localRange (argOf s 0 8 8) (64 * 2 ^ argOf s 0 5 1) = true ∧ argOf s 0 0x18 1 ≤ 1) ∧
    Ready (mbHas 0 5 [] up) 0 5 [] ∧ (mbHas 0 5 [] up).cp.ring3 = [] ∧ (Ready (mbHas 0 5 [] (ringed 0)) 0 5 [] ∧ (mbHas 0 5 [] (ringed 0)).cp.ring3 = [ev0]) :=
  ⟨ready_iff (by decide +kernel), ready_iff (by decide +kernel), ⟨ready_iff (by decide +kernel), by decide +kernel⟩, ⟨ready_iff (by decide +kernel), by decide +kernel⟩,
    ready_iff (by decide +kernel), by decide +kernel, ready_iff (by decide +kernel), by decide +kernel⟩
theorem witness_events :
    (up.fld .cpStatus 0 0 1 1 = 0 ∧ (∀ r < 3, up.fld .evrStatus r 0 0 1 = 0) ∧ up.cp.ring3.length < 256 ∧ up.wq = []) ∧
    ((∀ w ∈ [0, 63, 64], (ringed w).fld .evrStatus 1 0 0 1 = 1 ∧ (((ringed w).cp.rings.get {} 1).mask >>> (ev0.code / 256)) % 2 = 1 ∧ (ringed w).memOk = true ∧
        (ringed w).reg .evrRidx 1 0 = 0 ∧ (ringed w).recordsOut .evrWidx 1 = 0) ∧
      ((ringed 63).reg .evrWidx 1 0).toNat < 2 ^ ((ringed 63).cp.rings.get {} 1).log2 ∧ 2 ^ ((ringed 64).cp.rings.get {} 1).log2 ≤ ((ringed 64).reg .evrWidx 1 0).toNat) ∧
    (setR .cpStatus 0 0 2 up).fld .cpStatus 0 0 1 1 = 1 ∧ (setR .cpStatus 0 0 2 up).cp.queued.length < 256 ∧ (setR .cpStatus 0 0 2 up).wq = [] := by decide +kernel
theorem witness_indexStores :
    (let s := setR .evrRidx 1 0 2 (ringed 5)
     (bits (4 : Word) 0 32 + 2 ^ 32 - s.fld .evrRidx 1 0 0 32) % 2 ^ 32 ≤ (s.fld .evrWidx 1 0 0 32 + 2 ^ 32 - s.fld .evrRidx 1 0 0 32) % 2 ^ 32 ∧ bits (4 : Word) 0 32 ≠ s.fld .evrWidx 1 0 0 32 ∧
      (s.fld .evrWidx 1 0 0 32 + 2 ^ 32 - s.fld .evrRidx 1 0 0 32) % 2 ^ 32 < (bits (6 : Word) 0 32 + 2 ^ 32 - s.fld .evrRidx 1 0 0 32) % 2 ^ 32) ∧
    (setR .evrRidx 1 0 2 (ringed 5)).reach .ext (regAddr .evrRidx 1 0) = .ok ∧
    (linked [420] up).reach .ext (regAddr .dqint 0 0) = .ok ∧ bit (1 : Word) 0 = true ∧ bit (0 : Word) 0 = false := by decide +kernel
/-- Telemetry: sensor 0x11 reads v, and slot 2 watches it. -/
def alert0 (armed : Bool) : Alert := { sensor := 0x11, high := 100, low := 10, en := true, armed := armed }
def watching (v : Nat) (armed : Bool) : State :=
  setR .cpStatus 0 0 1 { up with cp := { sensors := [(0x11, BitVec.ofNat 32 v)], alerts := [(2, alert0 armed)] } }
theorem witness_telemetry :
    (let s := mbHas 0 0x601 [(4, 1), (8, 0x11)] (watching 50 true)
     Ready s 0 0x601 [(4, 1), (8, 2 * argOf s 0 4 1)] ∧ argOf s 0 4 1 = 1 ∧ ∀ i < argOf s 0 4 1, sensorListed (argOf s 0 (8 + 2 * i) 2) = true) ∧
    (let s := mbHas 0 0x602 [(4, 3), (6, 0x11), (8, 100), (0xC, 100), (0x10, 1)] up
     Ready s 0 0x602 [(4, 1), (6, 2), (8, 4), (0xC, 4), (0x10, 1)] ∧ argOf s 0 4 1 < 16 ∧ sensorListed (argOf s 0 6 2) = true ∧
      (BitVec.ofNat 32 (argOf s 0 0xC 4)).toInt ≤ (BitVec.ofNat 32 (argOf s 0 8 4)).toInt ∧ argOf s 0 0x10 1 ≤ 1) ∧
    (sensorListed 0x11 = true ∧ up.hdOn = true) ∧
    (∀ armed : Bool, (watching 50 armed).fld .cpStatus 0 0 0 2 = 1 ∧ (watching 50 armed).cp.alerts = [(2, alert0 armed)] ∧ (alert0 armed).en = true ∧
      (alert0 armed).low ≤ ((watching 50 armed).sensorSeen 0x11).toInt ∧ ((watching 50 armed).sensorSeen 0x11).toInt ≤ (alert0 armed).high ∧
      (alert0 armed).high < ((watching 101 armed).sensorSeen 0x11).toInt ∧ ((watching 9 armed).sensorSeen 0x11).toInt < (alert0 armed).low) := by
  refine ⟨⟨ready_iff (by decide +kernel), by decide +kernel⟩, ⟨ready_iff (by decide +kernel), by decide +kernel⟩, by decide +kernel, by decide +kernel⟩
theorem witness_controlProcessor :
    (let s : State := setR .cpStatus 0 0 0 { up with pwr := { up.pwr with phase := .boot 7 } }
     s.pwr.phase = .boot 7 ∧ s.fld .cpStatus 0 0 0 1 = 0 ∧ s.fld .secStatus 0 0 0 1 = 0) ∧ up.pwr.phase ≠ .boot 7 ∧
    (let s := setR .cpStatus 0 0 1 (mbHas 0 1 [] up)
     s.fld .cpStatus 0 0 0 2 = 1 ∧ (s.mbox 0).busy = true ∧ (s.mbox 0).res = none ∧ (s.mbox 0).held = false) ∧
    (let s := setR .cpStatus 0 0 3 up; s.fld .cpStatus 0 0 1 1 = 1 ∧ s.cp.queued = [] ∧ s.cp.queuedLost = []) := by decide +kernel
/-- A debugger is attached, or not. -/
def attached (a : Bool) (op : Nat) (args : List (Nat × Nat)) : State := mbHas 6 op args { up with cp := { up.cp with attach := a } }
theorem witness_debug :
    (Ready (attached false 0xF01 [(4, 1)]) 6 0xF01 [(4, 1)] ∧ argOf (attached false 0xF01 [(4, 1)]) 6 4 1 = 1) ∧
    (Ready (attached true 0xF01 []) 6 0xF01 [(4, 1)] ∧ argOf (attached true 0xF01 []) 6 4 1 = 0 ∧ (attached true 0xF01 []).grps = [] ∧ (attached true 0xF01 []).cores = []) ∧
    (∀ a : Bool, Ready (attached a 0xF02 [(6, 3)]) 6 0xF02 [(4, 1), (6, 2)] ∧ argOf (attached a 0xF02 [(6, 3)]) 6 4 1 = 0 ∧ argOf (attached a 0xF02 [(6, 3)]) 6 6 2 < 64 ∧
      (attached a 0xF02 [(6, 3)]).cp.attach = a ∧ (attached a 0xF02 [(6, 3)]).fld .pwrStatus 0 0 0 3 ≠ 3 ∧ ((attached a 0xF02 [(6, 3)]).core 3).op = none ∧ ((attached a 0xF02 [(6, 3)]).core 3).barrier = none) ∧
    (let s := setR .pwrStatus 0 0 3 (attached true 0xF02 [(6, 3)]); Ready s 6 0xF02 [(4, 1), (6, 2)] ∧ s.fld .pwrStatus 0 0 0 3 = 3) ∧
    (Ready (attached true 0xF03 [(6, 3)]) 6 0xF03 [(4, 1), (6, 2)] ∧ argOf (attached true 0xF03 [(6, 3)]) 6 4 1 = 0 ∧ (attached true 0xF03 [(6, 3)]).fld .pwrStatus 0 0 0 3 ≠ 3) ∧
    (let s := attached true 0xF04 [(8, 0x20000), (0x10, 64)]
     Ready s 6 0xF04 [(8, 8), (0x10, 1)] ∧ argOf s 6 0x10 1 = 64 ∧ argOf s 6 8 8 % 128 + argOf s 6 0x10 1 ≤ 128 ∧ s.memKind (argOf s 6 8 8) true = .nc ∧
      (match s.ncRead (argOf s 6 8 8 / 128) 1 with | .ok _ _ false => true | _ => false) = true) ∧
    (let s : State := { attached true 0xF04 [(8, 0x20000), (0x10, 64)] with poison := [0x20000 / 128] }
     Ready s 6 0xF04 [(8, 8), (0x10, 1)] ∧ s.memKind (argOf s 6 8 8) true = .nc ∧ (match s.ncRead (argOf s 6 8 8 / 128) 1 with | .ok _ _ true => true | _ => false) = true) ∧
    (let s := attached true 0xF05 [(8, 0x20000), (0x10, 40), (0x18, 77)]
     Ready s 6 0xF05 [(8, 8), (0x10, 1), (0x18, 40)] ∧ argOf s 6 0x10 1 = 40 ∧ argOf s 6 8 8 % 128 + argOf s 6 0x10 1 ≤ 128 ∧ s.memKind (argOf s 6 8 8) true = .nc ∧
      (match s.ncPut (argOf s 6 8 8) ((s.mbox 6).bytes 0x18 (argOf s 6 0x10 1)) 1 with | .ok .. => true | _ => false) = true) := by
  refine ⟨⟨ready_iff ?_, ?_⟩, ⟨ready_iff ?_, ?_⟩, fun a => ⟨ready_iff (by cases a <;> decide +kernel), by cases a <;> decide +kernel⟩, ⟨ready_iff ?_, ?_⟩, ⟨ready_iff ?_, ?_⟩, ⟨ready_iff ?_, ?_⟩, ⟨ready_iff ?_, ?_⟩, ⟨ready_iff ?_, ?_⟩⟩
  all_goals decide +kernel

/-- The module's power state is st; power commands. -/
def powered (st : Nat) (s : State) : State := s.setFld .pwrStatus 0 0 0 3 st
def warmed (s : State) : State := setR .pwrLimits 0 0 200 (setR .pwrStatus 0 0 0 s)
theorem witness_powerStates :
    (∀ x ∈ [(2, 0), (2, 1), (0, 1), (0, 2), (0, 3), (3, 0), (4, 0), (0, 0), (2, 2)],
      let s := powered x.2 (mbHas 0 0x501 [(4, x.1), (8, 1000000)] up)
      readyB s 0 0x501 [(4, 1), (8, 4)] = true ∧ argOf s 0 4 1 = x.1 ∧ argOf s 0 8 4 ≤ 1000000 ∧ s.pwr.park = none ∧ s.fld .pwrStatus 0 0 0 3 = x.2 ∧ s.parkBusy = false) ∧
    (let s : State := { mbHas 0 0x501 [(4, 3)] up with jobs := [{ kind := 0 }] }; Ready s 0 0x501 [(4, 1), (8, 4)] ∧ s.parkBusy = true) ∧
    (warmed up).fld .pwrStatus 0 0 0 3 ≠ 5 :=
  ⟨by decide +kernel, ⟨ready_iff (by decide +kernel), by decide +kernel⟩, by decide +kernel⟩
/-- A time for a setting, locked to the fabric's. -/
def slewing (lock t : Nat) (op : Nat := 0x503) (args : List (Nat × Nat) := [(8, 200)]) : State := setR .fabTimeStatus 0 0 (BitVec.ofNat 64 lock) (mbHas 0 op ((0x10, t) :: args) (warmed up))
theorem witness_powerSettings :
    (∀ v ∈ [0, 1200, 3000, 1199, 3001], readyB (mbHas 0 0x502 [(8, v)] up) 0 0x502 [(8, 2)] = true ∧ argOf (mbHas 0 0x502 [(8, v)] up) 0 8 2 = v) ∧
    (∀ x ∈ [(0, 5), (1, 19999), (1, 20000), (0, 0)], let s := slewing x.1 x.2
      readyB s 0 0x503 [(8, 2), (0x10, 8)] = true ∧ argOf s 0 8 2 = 200 ∧ argOf s 0 0x10 8 = x.2 ∧ s.fld .fabTimeStatus 0 0 0 2 = x.1 ∧ s.now = 0 ∧ s.fld .pwrStatus 0 0 3 1 = 0 ∧ s.pwr.ldPend = none) ∧
    (let s := slewing 0 0 0x504 [(4, 1), (8, 3000)]
     Ready s 0 0x504 [(4, 1), (8, 2), (0x10, 8)] ∧ argOf s 0 4 1 ≤ 1 ∧ argOf s 0 8 2 ≤ 3000 ∧ argOf s 0 0x10 8 = 0 ∧ s.fld .pwrStatus 0 0 3 1 = 0 ∧ s.pwr.slewPend = none) ∧
    Ready (mbHas 0 0x505 [] up) 0 0x505 [] ∧
    (∀ now ∈ [7, 8, 9], let s : State := { warmed up with now := now, pwr := { phase := .on, slewPend := some (50, 8) } }
      s.pwr.slewPend = some (50, 8) ∧ s.pwr.ldPend = none ∧ s.fld .pwrStatus 0 0 3 1 = 0 ∧ (powered 0 (setR .pwrStatus 0 0 8 s)).fld .pwrStatus 0 0 3 1 = 1) ∧
    (let s : State := { setR .pwrStatus 0 0 8 up with ref := 10 ^ 8 }; s.fld .pwrStatus 0 0 3 1 = 1 ∧ s.pwr.phase = .on ∧ s.pwr.poweredAt + 10 ^ 8 ≤ s.ref) :=
  ⟨by decide +kernel, by decide +kernel, ⟨ready_iff (by decide +kernel), by decide +kernel⟩, ready_iff (by decide +kernel), by decide +kernel, by decide +kernel⟩
theorem witness_powerSamples :
    ((warmed up).running = true ∧ (warmed up).fld .pwrStatus 0 0 3 1 = 0 ∧ (warmed up).fld .pwrLimits 0 0 44 1 = 0) ∧
    (200 ≤ (warmed up).pwr.lastCur + (warmed up).fld .pwrLimits 0 0 0 8 ∧ (warmed up).fld .pwrLimits 0 0 16 12 = 0 ∧ (warmed up).pwr.stress = [] ∧ (warmed up).pwr.therm = []) ∧
    up.running = true := by decide +kernel
/-- Sensor id reads v (hundredths of a degree), and its die throttles n steps. -/
def heated (id v n : Nat) (at' : NMap Nat := []) : State :=
  { warmed up with cp := { sensors := [(id, BitVec.ofNat 32 v)] }, pwr := { phase := .on, therm := if n = 0 then [] else [(id, n)], thermAt := at' } }
theorem witness_temperatures :
    (let s := heated 8 10000 24 [(8, 0)]; s.running = true ∧ s.cp.sensors.has 8 = true ∧ s.pwr.thermAt.find? 8 = some 0 ∧ 10000 ≤ (s.sensor 8).toInt ∧ s.ref < 0 + 1000) ∧
    (let s := heated 3 10000 5; s.running = true ∧ s.cp.sensors.has 3 = true ∧ 10000 ≤ (s.sensor 3).toInt ∧ s.pwr.thermAt.find? 3 = none ∧ 0 < s.pwr.therm.get 0 3) ∧
    (let s := heated 3 9899 5; (s.sensor 3).toInt < 9900 ∧ s.pwr.thermAt.find? 3 = none ∧ 0 < s.pwr.therm.get 0 3) ∧
    (let s := heated 3 9999 5; (s.sensor 3).toInt < 10000 ∧ 9900 ≤ (s.sensor 3).toInt) ∧
    (∀ id ∈ [0, 14], sensorListed id = true ∧ (heated id 11000 0).running = true ∧ (heated id 11000 0).cp.sensors.has id = true ∧ 11000 ≤ ((heated id 11000 0).sensor id).toInt ∧
      (setR .fwStatus 0 0 1 (heated id 11000 0)).running = true ∧ (setR .fwStatus 0 0 1 (heated id 11000 0)).sensorThere id = true ∧ (setR .fwStatus 0 0 0 (heated 14 11000 0)).sensorThere 14 = false ∧
      ((heated id 10999 0).sensor id).toInt < 11000) := by decide +kernel
/-- A disturbance of the supply that began at time 5 with v mV. -/
def sagging (v ref : Nat) : State := { up with ref := ref, pwr := { phase := .on, sag := some (5, v) } }
def surging (v ref : Nat) : State := { up with ref := ref, pwr := { phase := .on, surge := some (5, v) } }
theorem witness_inputSupply :
    up.running = true ∧ ((sagging 37000 100005).pwr.sag = some (5, 37000) ∧ 5 + 100000 ≤ (sagging 37000 100005).ref) ∧
    ((surging 57000 100005).pwr.surge = some (5, 57000) ∧ 5 + 100000 ≤ (surging 57000 100005).ref) ∧
    (5 + 1000000 ≤ (sagging 37000 1000005).ref ∧ (sagging 37000 1000004).ref < 5 + 1000000) ∧
    ((surging 57000 10000005).running = true ∧ 5 + 10000000 ≤ (surging 57000 10000005).ref) ∧ up.pwr.sag = none ∧ up.pwr.phase ≠ .off := by decide +kernel
/-- The module is down, off, or held in reset. -/
def powerless (p : PwrPhase) : State := { up with mem := [(0x20000, 5)], pwr := { phase := p } }
theorem witness_powerDowns :
    (powerless (.down true)).pwr.phase = .down true ∧ (powerless (.down false)).pwr.phase ≠ .down true ∧ (powerless .off).pwr.phase = .off ∧ (powerless .held).pwr.phase = .held ∧
    (powerless .held).pwr.phase ≠ .off ∧ (up.running = true ∧ up.pciUp 0 = false ∧ up.pciUp 1 = false) := by decide +kernel

/-- SYS_RESET of a kind and target. -/
def resetting (k t : Nat) (s : State := up) : State := mbHas 0 6 [(4, k), (6, t)] s
theorem witness_resetCommands :
    (∀ x ∈ [(0, 63), (0, 64), (1, 511), (2, 7), (3, 0), (4, 47), (6, 0), (7, 0)],
      readyB (resetting x.1 x.2) 0 6 [(4, 1), (6, 2)] = true ∧ argOf (resetting x.1 x.2) 0 4 1 = x.1 ∧ argOf (resetting x.1 x.2) 0 6 2 = x.2) ∧
    resetTarget 0 64 = false ∧ (linkPartner 0).isSome = true ∧
    (let s := setR .fwStatus 0 0 1 (resetting 5 0); Ready s 0 6 [(4, 1), (6, 2)] ∧ argOf s 0 4 1 = 5 ∧ s.fld .fwStatus 0 0 0 1 = 1) ∧
    (let s : State := { up with rsts := [{ dom := .pcore 3 }] }; s.inReset .warm = false ∧ s.sb = [] ∧ s.rsts.any (fun r => r.dom == .pcore 3) = true) ∧ up.rsts = [] :=
  ⟨by decide +kernel, by decide, by decide, ⟨ready_iff (by decide +kernel), by decide +kernel⟩, by decide +kernel, rfl⟩
theorem witness_warmReset : gs.inReset .warm = false ∧ gs.pwr.parkMb = none ∧ gs.queues = [] ∧ gs.cores = [] ∧ gs.msc = [] ∧
    (blkOf (regAddr .fabId 0 0)).map (·.1) = some .HD := by decide +kernel
/-- Step n of the boot sequence is next. -/
def booting (n : Nat) (s : State) : State := { s with pwr := { s.pwr with phase := .boot n } }
theorem witness_bootSequence :
    (∀ n ∈ [1, 2, 3, 4, 5, 6, 7], (booting n up).pwr.phase = .boot n) ∧ (setR .secStatus 0 0 1 (booting 3 up)).fld .secStatus 0 0 0 1 = 1 ∧
    ((booting 3 up).fld .secStatus 0 0 0 1 = 0 ∧ ∀ p < 48, ((booting 3 up).port p).light = false) ∧
    ({ booting 6 up with sec := { measured := [(1, 5)] } } : State).sec.measured.has 1 = true ∧ (booting 6 up).sec.measured.has 1 = false ∧ up.pwr.phase = .on := by decide +kernel
/-- Images in flash: those named are bad. -/
def flash (bad : List Nat) (sel : Nat) (f : SecS → SecS := id) : State :=
  { up with sec := f { img := (upTo 6).map (fun i => (i, { ok := !bad.elem i, svn := 3, hash := BitVec.ofNat 256 (100 + i) })), sel := sel, fuse := 7, flashTop := some 7, rb := [(0, 2), (1, 3)] } }
theorem witness_secureBoot :
    (let s := flash [] 1; s.sec.sel < 2 ∧ (s.image 1 0).ok = true ∧ s.rollback 0 ≤ (s.image 1 0).svn ∧ (s.image 1 1).ok = true ∧ s.rollback 1 ≤ (s.image 1 1).svn ∧ s.sec.flashTop = some s.sec.fuse) ∧
    (let s := flash [3] 1; (s.image 1 0).ok = false ∧ (s.image 0 0).ok = true ∧ s.rollback 0 ≤ (s.image 0 0).svn) ∧
    (let s := flash [0, 3] 1; (s.image 1 0).ok = false ∧ (s.image 0 0).ok = false) ∧
    (let s := flash [] 0 (fun x => { x with flashTop := none }); s.sec.fuse < 4096 ∧ s.sec.flashTop ≠ some s.sec.fuse) := by decide +kernel
/-- A stage of n bytes of component c, of which got have come. -/
def stage0 (streamed : Bool) (got : List Byte) : Stage := { comp := 1, bank := 1, len := 4, streamed := streamed, got := got, src := 0x20000, last := 5 }
def staging (g : Stage) (op : Nat) (args : List (Nat × Nat)) : State := mbHas 0 op args (flash [] 0 (fun x => { x with stage := some g }))
def staged (g : Stage) : State := flash [] 0 (fun x => { x with stage := some g })
theorem witness_firmwareUpdate :
    (let s := mbHas 0 0x701 [(4, 2), (0x10, 2 ^ 25)] (flash [] 0); Ready s 0 0x701 [(4, 1), (8, 8), (0x10, 4)] ∧ argOf s 0 4 1 ≤ 2 ∧ argOf s 0 0x10 4 ≤ 2 ^ 25 ∧ argOf s 0 8 8 = 0 ∧ s.sec.stage = none) ∧
    (∀ n ∈ [1, 4], let s := staging (stage0 true []) 0x705 [(4, n), (0x10, 9)]
      readyB s 0 0x705 [(4, 1), (8, 4), (0x10, argOf s 0 4 1)] = true ∧ argOf s 0 4 1 = n ∧ s.sec.stage = some (stage0 true []) ∧ argOf s 0 8 4 = 0 ∧ n ≤ (stage0 true []).len) ∧
    (∀ x ∈ [([], 0), ([3], 1)], let s := mbHas 0 0x702 [(4, x.2)] (flash x.1 0)
      readyB s 0 0x702 [(4, 1), (5, 1)] = true ∧ argOf s 0 4 1 = x.2 ∧ argOf s 0 5 1 = 0 ∧ (s.accepts x.2 0 && s.accepts x.2 1 && s.accepts x.2 2) = x.1.isEmpty) ∧
    (let s := mbHas 0 0x702 [(5, 1)] (flash [] 0); Ready s 0 0x702 [(4, 1), (5, 1)] ∧ argOf s 0 5 1 = 1 ∧ argOf s 0 4 1 = s.sec.running ∧ (s.accepts 0 0 && s.accepts 0 1 && s.accepts 0 2) = true) ∧
    (let g := { stage0 true [] with res := some 0 }; (staged g).sec.stage = some g ∧ ((staged g).mbox g.mb).busy = false ∧ (staged g).fld .secStatus 0 0 0 1 = 0) ∧
    (let g := stage0 false []; (staged g).sec.stage = some g ∧ ((staged g).mbox g.mb).busy = false ∧ (staged g).memOk = true ∧
      (match (staged g).readBytes g.src g.len with | some (_, _, false) => true | _ => false) = true) ∧
    (let g := stage0 true []; (staged g).sec.stage = some g ∧ (staged g).ref < g.last + 10 ^ 9 ∧ g.last + 10 ^ 9 ≤ ({ staged g with ref := 2 * 10 ^ 9 } : State).ref) :=
  ⟨⟨ready_iff (by decide +kernel), by decide +kernel⟩, by decide +kernel, by decide +kernel, ⟨ready_iff (by decide +kernel), by decide +kernel⟩, by decide +kernel, by decide +kernel,
    by decide +kernel⟩
theorem witness_attestation :
    (let s := mbHas 0 0x703 [(8, 77)] (flash [] 0); Ready s 0 0x703 [(4, 1), (8, 32)] ∧ argOf s 0 4 1 = 0 ∧ s.sec.fuse < 4096 ∧ s.sec.leaf + 1 < 2 ^ 20) ∧
    (let s := mbHas 0 0x703 [(8, 77)] (flash [] 0 (fun x => { x with fuse := 4096 })); Ready s 0 0x703 [(4, 1), (8, 32)] ∧ 4096 ≤ s.sec.fuse) ∧
    (∀ r : List (Nat × List Byte), r = [] ∨ r = [(0, [1, 2])] → let s := mbHas 0 0x703 [(4, 1), (8, 64)] (flash [] 0 (fun x => { x with reports := r }))
      readyB s 0 0x703 [(4, 1), (8, 4)] = true ∧ argOf s 0 4 1 = 1 ∧ argOf s 0 8 4 % 64 = 0 ∧ s.sec.reports.find? 0 = r.head?.map (·.2)) ∧
    (let s := mbHas 0 0x703 [(4, 2)] up; Ready s 0 0x703 [(4, 1)] ∧ argOf s 0 4 1 = 2) ∧
    (let s := mbHas 0 0x704 [(4, 27)] up; Ready s 0 0x704 [(4, 1)] ∧ argOf s 0 4 1 ∈ idDies ∧ argOf s 0 4 1 ≠ 14) := by
  refine ⟨⟨ready_iff (by decide +kernel), by decide +kernel⟩, ⟨ready_iff (by decide +kernel), by decide +kernel⟩, fun r h => ?_, ⟨ready_iff (by decide +kernel), by decide +kernel⟩,
    ⟨ready_iff (by decide +kernel), by decide +kernel⟩⟩
  rcases h with rfl | rfl <;> decide +kernel

/-- Port 0 of PCIe has trained, with x; root or endpoint. -/
def pcie (root upB : Bool) (x : PciS := {}) (s : State := up) : State :=
  setR .pciPortStatus 0 0 (BitVec.ofNat 64 (root.toNat + 2 * upB.toNat)) { s with pci := [(0, x)] }
theorem free_all (s : State) (h1 : s.txns = []) (h2 : s.hq = []) (i : Nat) : s.lineBusy i = false := by simp [State.lineBusy, NMap.has, h1, h2]
theorem witness_pcieRequests :
    (∀ r : Bool, (pcie r true).pciUp 0 = true ∧ (pcie r true).fld .pciPortCtrl 0 0 0 1 = 1 ∧ (pcie r true).pmuOn 580 = false ∧ (pcie r true).memReady = true ∧
      localRange 0x20040 4096 = true ∧ (pcie r true).rangeBusy 0x20040 4096 = false ∧ ((pcie r true).pciP 0).posted = [] ∧
      (match (pcie r true).readBytes 0x20040 64 with | some _ => true | none => false) = true ∧
      (match (pcie r true).putBytes 0x20040 (List.replicate 512 5) false 6 with | some _ => true | none => false) = true) ∧
    ((setR .memStatus 1 0 0 (pcie true true)).memReady = false ∧ 2 ^ 41 < (2 ^ 41 - 1 : Nat) + 2) ∧
    (∀ k ∈ [0, 4, 5], (match (pcie true true).ncAmo 0x20040 8 k 3 0 1 with | .ok _ _ p => !p | _ => false) = true) ∧ (pcie true false).pciUp 0 = false ∧
    (let s := pcie true true { posted := [{ bar := 2, addr := 0x20040, data := [1], ep := false }] } { up with txns := [(0x20040 / 128, { req := { kind := .rds }, phase := .mem })] }
     (s.pciP 0).posted ≠ [] ∧ s.pciUp 0 = true ∧ s.fld .pciPortCtrl 0 0 0 1 = 1 ∧ s.pmuOn 580 = false ∧ s.memReady = true ∧ localRange 0x20040 64 = true ∧ s.rangeBusy 0x20040 64 = true) ∧
    ({ relaxed := true } : TlpAttr).relaxed = true ∧ ({} : TlpAttr).relaxed = false := by decide +kernel
theorem witness_pciePorts :
    ((pcie false false).hdOn = true ∧ (pcie false false).pciUp 0 = false ∧ (pcie false false).fld .pciPortCtrl 0 0 0 1 = 1 ∧ ((pcie false false).pciP 0).noRefclk = false ∧
      (pcie false false).isRoot 0 = false ∧ ((pcie false false).pciP 0).perst = false) ∧
    ((pcie true false { released := true }).isRoot 0 = true ∧ ((pcie true false { released := true }).pciP 0).released = true) ∧
    (setR .pciPortCtrl 0 0 0 (pcie true false)).fld .pciPortCtrl 0 0 0 1 = 0 ∧ ((pcie true true).pciUp 0 = true ∧ ((pcie true true).pciP 0).out = [] ∧ (pcie true true).sb = []) ∧
    ((pcie true true).reach .ext (regAddr .pciPortCtrl 0 0) = .ok ∧ (setR .pciPortStatus 0 0 0x400 (pcie true true)).reach .ext (regAddr .pciPortCtrl 0 0) = .ok ∧
      (pcie true true).fld .pciPortStatus 0 0 10 1 = 0 ∧ (setR .pciPortStatus 0 0 0x400 (pcie true true)).fld .pciPortStatus 0 0 10 1 = 1) ∧
    (let s := pcie true true { drainEnd := some 5, out := [(.op 1, 7)] }; (s.pciP 0).drainEnd = some 5 ∧ s.now < 5 ∧ s.outOpen 0 = true ∧ (Who.op 1).wf = true ∧ (s.pciP 0).out.elem (.op 1, 7) = true) ∧
    (pcie true true { drainEnd := some 5 }).outOpen 0 = false := by decide +kernel
/-- The side-band has its address; its pointer stands at p. -/
def i3c (p : Nat) : State := { up with cp := { i3cDyn := some 9, i3cPtr := p, i3cAlert := 6 } }
theorem witness_sideBand :
    (i3c 0x8F).i3cOn = true ∧ up.i3cOn = false ∧ up.hdOn = true ∧ up.cp.prsnt = true ∧ ({ up with cp := { prsnt := false } } : State).hdOn = true ∧ up.cp.i3cDyn = none ∧ (i3c 0).cp.i3cDyn ≠ none ∧
    (∃ i < 2, ((i3c 0x8F).cp.i3cPtr + i) % 256 = 0x90) ∧
    (∀ x ∈ [(2 ^ 69, true, 0), (2 ^ 69 + 18 * 2 ^ 64, true, 18), (2 ^ 69 + 19 * 2 ^ 64, true, 19), (18 * 2 ^ 64, false, 18), (31 * 2 ^ 64, false, 31)],
      ((BitVec.ofNat 72 x.1).getLsbD 69 = x.2.1 ∧ (BitVec.ofNat 72 x.1).toNat / 2 ^ 64 % 32 = x.2.2)) ∧
    (up.regStore .ext (mbPage 6 + 8 * 18) 8 5).isSome = true := by
  refine ⟨by decide, by decide, by decide, rfl, by decide, rfl, by decide, ⟨1, by decide, by decide⟩, by decide +kernel, by decide +kernel⟩
/-- Dumps are on, of unit 3 and of monitor 1, at the time of a tick. -/
def dumping (room busy : Bool) : State :=
  setR .dctrl 0 0 (1 + 1000 * 4) (setR .dbase 0 0 (8 + 0x20000) (setR .dsel 0 0 8 (setR .dsel 0 9 0x20000 (setR .dwidx 0 0 (if room then 254 else 255)
    { up with now := 1000000, pmu := { interval := 1000, last := 0, out := if busy then [[1]] else [] } }))))
theorem witness_counters :
    ((linked [416, 288] up).reach .ext (regAddr .pmuPmc 3 0) = .ok ∧ (linked [416, 288] (setR .pmuCtrl 3 0 1 up)).reach .ext (regAddr .pmuPmc 3 0) = .ok ∧ (linked [416] up).reach .ext (regAddr .monCtrl 0 0) = .ok ∧
      up.pmuOn 3 = false ∧ (setR .pmuCtrl 3 0 1 up).pmuOn 3 = true) ∧ up.fld .dctrl 0 0 0 1 = 0 ∧
    (∀ x ∈ [(true, false), (false, false), (true, true)], let s := dumping x.1 x.2
      s.fld .dctrl 0 0 0 1 = 1 ∧ s.pmu.last / (1000 * max 1 s.pmu.interval) < s.now / (1000 * max 1 s.pmu.interval) ∧ s.fld .pwrStatus 0 0 0 3 ≠ 3 ∧ s.dumpSel = [3, 585] ∧
      s.dumpBusy = x.2 ∧ s.memOk = true ∧ s.dumpRoom 2 = x.1) ∧
    (dumping true true).pmu.out = [[1]] ∧ (dumping true false).pmu.out = [] ∧ (up.hdOn = true ∧ ∀ i < 16, up.fld .monCtrl i 0 0 1 = 0) := by decide +kernel
theorem witness_register : let a := regAddr .fqDeadline 0 0; isMmio a = true ∧ a % 8 = 0 ∧ isAuxWin a = false ∧ (linked [416, 288] up).reach .ext a = .ok ∧ regAt a = some (.fqDeadline, 0, 0) ∧ accessWf a 8 = true ∧
    (let b := regAddr .dsel 0 9; isMmio b = true ∧ b % 8 = 0 ∧ isAuxWin b = false ∧ (linked [416] up).reach .ext b = .ok ∧ regAt b = some (.dsel, 0, 9)) := by decide +kernel
theorem witness_registerFields : up.outOfRange .fqDeadline 0 0 1 = [] ∧ up.outOfRange .fqDeadline 0 0 1000000 = [] ∧ up.outOfRange .mxStatus 0 0 1 = [] ∧
    (⟨0, 20, .rw⟩ : Fld) ∈ regFields .fqDeadline ∧ (⟨0, 1, .w1c⟩ : Fld) ∈ regFields .mxStatus ∧ (⟨8, 8, .rc⟩ : Fld) ∈ regFields .mxStatus ∧ (⟨0, 32, .ro⟩ : Fld) ∈ regFields .mxFuse := by
  refine ⟨by simp [State.outOfRange]; decide, by simp [State.outOfRange]; decide, rfl, by decide +kernel, by decide +kernel, by decide +kernel, by decide +kernel⟩
theorem witness_registerRows : (∀ k ∈ [RegKind.mbDoorbell, .dqDoorbell, .cgDoorbell, .fqRidx, .evrRidx, .mscCtrl, .seqBtcCtrl, .ccCtrl, .lnkCtrl, .monCtrl],
    State.reset.reach .ext (regAddr k 0 0) = .bus) ∧
    (∀ k ∈ [RegKind.mbDoorbell, .dqDoorbell, .cgDoorbell, .evrRidx, .monCtrl], (setR .lnkStatus 260 0 1 { up with sb := [(1, { u := .core 0, mem := .mmio })] }).reach (.store 1) (regAddr k 0 0) = .wait) ∧
    (∀ k ∈ [RegKind.fqRidx, .mscCtrl, .seqBtcCtrl, .ccCtrl, .lnkCtrl], (setR .lnkStatus 256 0 1 (setR .lnkStatus 297 0 2 { up with sb := [(1, { u := .core 0, mem := .mmio })] })).reach (.store 1) (regAddr k 0 0) ≠ .ok) := by
  decide +kernel
theorem witness_registerBus : ({ up with rsts := [{ dom := .die 0 }] } : State).reach .ext 0xF00000000000 = .bus := by decide +kernel
theorem witness_registerWait : (setR .lnkStatus 260 0 1 { up with ops := [(1, { u := .core 0, kind := .ll })] }).reach (.op 1) 0xF00034A00008 = .wait := by decide +kernel
theorem witness_registerNone : let a := 0xF00000001000; isMmio a = true ∧ accessWf a 8 = true ∧ (linked [416, 288] up).reach .ext a = .ok ∧ isAuxWin a = false ∧ regAt a = none := by decide +kernel

theorem witness_stepRunsFront : ({ up with pending := [.bootStep []] } : State).pending = [.bootStep []] := rfl
theorem witness_timePasses :
    up.pending = [] ∧ (powerless .off).pwr.phase = .off ∧ (powerless .held).pwr.phase = .held ∧ (powerless (.down true)).pwr.phase = .down true ∧
    (let s : State := { up with pd := [], fab := { electAt := none } }; s.pwr.phase = .on ∧ s.wq = [] ∧ s.fab.slewLeft = 0 ∧ s.fab.electAt = none ∧ s.pci = [] ∧ s.fab.ports = [] ∧ s.cgs = [] ∧ s.pwr.park = none ∧ s.pd = [] ∧ ∀ u < 581, s.pmuOn u = false) := by
  refine ⟨rfl, rfl, rfl, rfl, ?_⟩
  decide +kernel

theorem witness_division :
    (∀ f < 4, (coreAt (core0 (fun c => { c with thr := c.thr.setG 1 5 })) 0 (fR 0x01 3 1 2 (0x13 + f)) (.div f 3 1 2)) = true) ∧
    ((core0 (fun c => { c with thr := c.thr.setG 1 5 })).core 0).thr.getG 2 = 0 ∧
    (let s := core0 (fun c => { c with thr := (c.thr.setG 1 (BitVec.ofInt 64 (-2 ^ 63))).setG 2 (BitVec.ofInt 64 (-1)) })
     (∀ f ∈ [0, 2], coreAt s 0 (fR 0x01 3 1 2 (0x13 + f)) (.div f 3 1 2) = true) ∧ (s.core 0).thr.getG 1 = BitVec.ofInt 64 (-2 ^ 63) ∧ (s.core 0).thr.getG 2 = BitVec.ofInt 64 (-1)) ∧
    (issues gs (.grp 0 0) (fR 0x01 3 1 2 0x14) = some (.div 1 3 1 2)) := by decide +kernel
/-- The core at K, which a trap at K reached from U. -/
def trapped (l : Nat) : State := core0 (fun c => { c with state := BitVec.ofNat 64 (l + 2 ^ 6 + 2 ^ 8 + 2 ^ 10), tpcK := 0x400, tpcM := 0x800 })
theorem witness_returnFromTraps :
    (∃ x s1, fetched (trapped 0) 0 (fR 0x3E 0 0 0 0) .tret = some (x, s1) ∧ s1.lvl 0 = 0 ∧ (s1.core 0).tagged = none) ∧
    (∀ l, l = 1 ∨ l = 2 → ∃ x s2, issued (trapped l) (.core 0) (fR 0x3E 0 0 0 0) = some (x, .tret, s2) ∧ s2.lvl 0 = l ∧ (s2.core 0).tagged = none ∧ s2.pmuOn 512 = false) := by
  refine ⟨?_, fun l h => ?_⟩
  · have h : (match fetched (trapped 0) 0 (fR 0x3E 0 0 0 0) .tret with | some (_, s1) => s1.lvl 0 == 0 && (s1.core 0).tagged.isNone | none => false) = true := by decide +kernel
    split at h
    · rename_i x s1 hx
      simp only [Bool.and_eq_true, beq_iff_eq, Option.isNone_iff_eq_none] at h
      exact ⟨x, s1, hx, h⟩
    · cases h
  · have h : (match issued (trapped l) (.core 0) (fR 0x3E 0 0 0 0) with
        | some (_, op, s2) => op == .tret && s2.lvl 0 == l && (s2.core 0).tagged.isNone && !s2.pmuOn 512 | none => false) = true := by
      rcases h with rfl | rfl <;> decide +kernel
    split at h
    · rename_i x op s2 hx
      simp only [Bool.and_eq_true, beq_iff_eq, Option.isNone_iff_eq_none, Bool.not_eq_true'] at h
      obtain ⟨⟨⟨h1, h2⟩, h3⟩, h4⟩ := h
      exact ⟨x, s2, h1 ▸ hx, h2, h3, h4⟩
    · cases h
theorem witness_counterWrites : (setR .pmuCtrl 3 0 1 up).pmuMayWrite .ext = true ∧ (setR .pmuCtrl 3 0 1 up).pmuOn 3 = true ∧ (setR .pmuCtrl 576 0 1 up).pmuOn 576 = true ∧
    (linked [416, 288] (setR .pmuCtrl 3 0 1 up)).reach .ext (regAddr .pmuPmc 3 0) = .ok ∧ (linked [416] (setR .pmuCtrl 576 0 1 up)).reach .ext (regAddr .pmuFixed 576 0) = .ok := by decide +kernel
theorem witness_delegation :
    (∀ e ∈ [0, 1], readyB (mbHas 0 3 [(8, 5), (10, e)] up) 0 3 [(8, 2), (10, 1)] = true ∧ argOf (mbHas 0 3 [(8, 5), (10, e)] up) 0 10 1 = e) ∧
    ((mbHas 1 2 [] up).mbox 1).deleg = none ∧ (mbHas 1 2 [] up).mayRun 1 2 = true ∧
    (let s := setR .cpStatus 0 0 1 up; s.fld .cpStatus 0 0 0 2 = 1 ∧ s.fld .secStatus 0 0 0 1 = 0 ∧ s.inReset .warm = false ∧
      (let m : Mbx := { deleg := some 5 }; bit (BitVec.ofNat 64 m.ctrl) 14 = false ∧ m.res = none)) ∧
    (up.reach .ext (regAddr .mbDoorbell 1 0) = .ok ∧ bit (1 : Word) 0 = true ∧ up.fld .mbStatus 1 0 24 1 = 0) := by decide +kernel
theorem witness_thermalShutdown :
    (∀ id ∈ [0, 14], let s := setR .fwStatus 0 0 1 (heated id 11000 0)
      s.sensorThere id = true ∧ s.running = true ∧ s.cp.sensors.has id = true ∧ 11000 ≤ (s.sensor id).toInt) ∧
    (∀ id ∈ [0x10, 0x17], (heated id 10500 0).running = true ∧ (heated id 10500 0).cp.sensors.has id = true ∧ 10500 ≤ ((heated id 10500 0).sensor id).toInt) ∧
    (powerless (.down false)).pwr.phase = .down false ∧ (powerless .held).pwr.phase = .held ∧ (powerless .off).pwr.phase = .off := by decide +kernel

theorem witness_memoryForm : MemInv gs ∧ (match step gs with | .next _ => true | _ => false) = true ∧
    MemInv { gs with mem := [(5, 1), (7, 2)] } := by
  refine ⟨(by decide +kernel : Memory.wf gs.mem = true), by decide +kernel, (by decide : Memory.wf [(5, 1), (7, 2)] = true)⟩
theorem witness_words :
    (let v := fR 0x01 3 1 2 0; iwordWf v = true ∧ (decodeI v).op = some (.alu 0 3 1 2)) ∧
    (let v := fG 0x41 0 3 1 0; iwordWf v = true ∧ (decodeI v).op ≠ none) := by decide +kernel

end Sys2Proof.Tests
end

section
/-! SUPPORT. Byte order (R3) and the state after reset (R4): the statements on them. -/

namespace Sys2Proof.Machine

/- Byte order (R3). -/

theorem leBytes_length (n v : Nat) : (leBytes n v).length = n := by simp [leBytes, upTo]

/-- Byte i of a value holds its bits 8 i + 7 to 8 i. -/
theorem leBytes_getElem? {n v i : Nat} (h : i < n) : (leBytes n v)[i]? = some (BitVec.ofNat 8 (v / 2 ^ (8 * i))) := by
  simp [leBytes, upTo, h, Nat.shiftRight_eq_div_pow]

/-- The lowest byte stands first; the rest are the bytes of what is above it. -/
theorem leBytes_succ (n v : Nat) : leBytes (n + 1) v = BitVec.ofNat 8 v :: leBytes n (v / 256) := by
  simp only [leBytes, upTo, List.range_succ_eq_map, List.map_cons, List.map_map, Nat.mul_zero, Nat.shiftRight_zero]
  congr 1
  apply List.map_congr_left
  intro i _
  simp only [Function.comp, Nat.shiftRight_eq_div_pow, Nat.div_div_eq_div_mul]
  rw [show 2 ^ (8 * i.succ) = 256 * 2 ^ (8 * i) by rw [Nat.mul_succ, Nat.pow_add]; omega]

/-- Reading the bytes of a value back gives the value, modulo what its bytes hold. -/
theorem ofLeBytes_leBytes (n v : Nat) : ofLeBytes (leBytes n v) = v % 2 ^ (8 * n) := by
  induction n generalizing v with
  | zero => simp [leBytes, upTo, ofLeBytes, Nat.mod_one]
  | succ n ih =>
    rw [leBytes_succ]
    have h : ofLeBytes (BitVec.ofNat 8 v :: leBytes n (v / 256)) = v % 256 + 256 * ofLeBytes (leBytes n (v / 256)) := by
      simp [ofLeBytes]
    rw [h, ih, show 2 ^ (8 * (n + 1)) = 256 * 2 ^ (8 * n) by rw [Nat.mul_succ, Nat.pow_add]; omega, Nat.mod_mul]

theorem byte_getLsbD (v q : Nat) (h : q < 8) : (BitVec.ofNat 8 v).getLsbD q = v.testBit q := by
  rw [BitVec.getLsbD_ofNat, decide_eq_true h, Bool.true_and]

/-- Bit q of byte k of a line is bit 8 k + q of the line. -/
theorem lineByte_getLsbD (d : Line) (k q : Nat) (h : q < 8) : (lineByte d k).getLsbD q = d.getLsbD (8 * k + q) := by
  rw [lineByte, byte_getLsbD _ _ h, Nat.testBit_shiftRight, BitVec.testBit_toNat]

/-- The bytes of a number taken from a line are the bytes of the line from where it was taken. -/
theorem leBytes_lineBytes (d : Line) (i n : Nat) : leBytes n (lineBytes d i n) = (List.range n).map (fun k => lineByte d (i + k)) := by
  apply List.map_congr_left
  intro k hk
  have hk : k < n := by simpa [upTo] using hk
  apply BitVec.eq_of_getLsbD_eq
  intro q hq
  have hin : 8 * k + q < 8 * n := by omega
  rw [lineByte_getLsbD _ _ _ hq, byte_getLsbD _ _ hq]
  simp [lineBytes, hin, BitVec.testBit_toNat, show 8 * i + (8 * k + q) = 8 * (i + k) + q by omega]

/-- The bytes of a line, put together, are the line. -/
theorem lineOfBytes_lineByte (d : Line) : lineOfBytes ((List.range 128).map (fun k => lineByte d k)) = d := by
  have h : (List.range 128).map (fun k => lineByte d k) = leBytes 128 d.toNat := rfl
  rw [h, lineOfBytes, ofLeBytes_leBytes]
  apply BitVec.eq_of_toNat_eq
  have := d.isLt
  rw [BitVec.toNat_ofNat]
  omega

/-- A value placed in a line has its bytes there, and zeroes stand around it. -/
theorem lineByte_lineAt (i n v k : Nat) (hk : k < 128) :
    lineByte (lineAt i n v) k = if i ≤ k ∧ k < i + n then BitVec.ofNat 8 (v / 2 ^ (8 * (k - i))) else 0 := by
  apply BitVec.eq_of_getLsbD_eq
  intro q hq
  have hl : 8 * k + q < 1024 := by omega
  rw [lineByte_getLsbD _ _ _ hq]
  simp only [lineAt, BitVec.getLsbD_ofNat, hl, Nat.testBit_shiftLeft, Nat.testBit_mod_two_pow, decide_true, Bool.true_and]
  split
  case isTrue hin =>
    have h1 : 8 * k + q ≥ 8 * i := by omega
    have h2 : 8 * k + q - 8 * i < 8 * n := by omega
    have h3 : 8 * k + q - 8 * i = 8 * (k - i) + q := by omega
    rw [byte_getLsbD _ _ hq, ← Nat.shiftRight_eq_div_pow, Nat.testBit_shiftRight, ← h3]
    simp [h1, h2]
  case isFalse hout =>
    have : ¬ (8 * k + q ≥ 8 * i ∧ 8 * k + q - 8 * i < 8 * n) := by omega
    simp only [ge_iff_le, not_and] at this
    by_cases h1 : 8 * i ≤ 8 * k + q
    · simp [this h1]
    · simp [h1]

end Sys2Proof.Machine

open Sys2Proof.Machine

/-- Settles O8: bit by bit, and for the bytes of a number by induction on how many there are. -/
theorem littleEndian : Obligations.LittleEndian := by
  unfold Obligations.LittleEndian
  exact ⟨fun _ _ _ h => leBytes_getElem? h, fun n v => ⟨leBytes_length n v, ofLeBytes_leBytes n v⟩,
    fun d i n _ => leBytes_lineBytes d i n, lineOfBytes_lineByte, fun i n v k _ => lineByte_lineAt i n v k⟩

/-- Settles O3: no register and no core is listed in that state, so that each reads as its reset value. -/
theorem resetState : Obligations.ResetState := by
  unfold Obligations.ResetState
  have hcore : ∀ n, State.reset.core n = {} := fun _ => rfl
  have hreg : ∀ k i j, State.reset.reg k i j = regReset k i j := fun _ _ _ => rfl
  refine ⟨fun n => ?_, hreg, rfl, by decide, by decide, by decide, by decide, by decide, rfl, rfl, rfl, rfl, rfl⟩
  rw [hcore]
  exact ⟨by decide, by decide, rfl, rfl, fun i hi _ => by simp [Thr.getP, Nat.ne_of_gt hi], rfl⟩
end

section
/-! SUPPORT. Registers as they are stored and loaded (R4, R5, R170, R421), counters, dumps and monitors (R392 to R400): the
statement on them. -/

namespace Sys2Proof.Machine

/- Folds over lists of fields, units and registers. -/

/-- What each turn of a fold keeps, the fold keeps. -/
theorem foldl_keeps {α β γ : Type} (g : α → γ) (f : α → β → α) (l : List β) (h : ∀ a, ∀ b ∈ l, g (f a b) = g a) (a : α) :
    g (l.foldl f a) = g a := by
  induction l generalizing a with
  | nil => rfl
  | cons b l ih =>
    rw [List.foldl_cons, ih (fun a c hc => h a c (List.mem_cons_of_mem _ hc)), h a b List.mem_cons_self]

/- Whole words. -/

/-- A write of all 64 bits leaves nothing of the old word. -/
theorem setBits_all (w : Word) (v : Nat) : setBits w 0 64 v = BitVec.ofNat 64 v := by
  apply BitVec.eq_of_toNat_eq
  have h : bits (setBits w 0 64 v) 0 64 = v % 2 ^ 64 := bits_setBits w 0 64 v (by omega)
  have h2 : bits (setBits w 0 64 v) 0 64 = (setBits w 0 64 v).toNat := by
    rw [bits, Nat.shiftRight_zero, Nat.mod_eq_of_lt (BitVec.isLt _)]
  rw [← h2, h, BitVec.toNat_ofNat]

theorem bits_all (w : Word) : bits w 0 64 = w.toNat := by
  rw [bits, Nat.shiftRight_zero, Nat.mod_eq_of_lt w.isLt]

/-- A store of 8 bytes replaces the register. -/
theorem mergeReg_all (w v : Word) : mergeReg w 0 8 v = v := by
  rw [mergeReg, setBits_all, BitVec.ofNat_toNat, BitVec.setWidth_eq]

/-- Storing 0 in a field clears its bits. -/
theorem setBits_zero (w : Word) (lo n : Nat) : setBits w lo n 0 = w &&& ~~~(BitVec.ofNat 64 ((2 ^ n - 1) <<< lo)) := by
  simp [setBits]

theorem accessWf_8 {a : Nat} : accessWf a 8 = true ↔ a % 8 = 0 := by simp [accessWf]

/- Fields of one register. -/

/-- Two fields share no bit. -/
abbrev Fld.apart (f g : Fld) : Prop := g.lo + g.wid ≤ f.lo ∨ f.lo + f.wid ≤ g.lo

/-- The fields of a register share no bits. -/
theorem regFields_apart (k : RegKind) : (regFields k).Pairwise Fld.apart := by
  cases k <;> decide

/-- In a list of fields that share no bits, the fields before and after a field are apart from it. -/
theorem apart_of_pairwise_split {before after : List Fld} {g : Fld} (h : (before ++ g :: after).Pairwise Fld.apart) :
    (∀ f ∈ before, f.apart g) ∧ ∀ f ∈ after, f.apart g := by
  obtain ⟨-, hafter, hbefore⟩ := List.pairwise_append.1 h
  exact ⟨fun f hf => hbefore f hf g List.mem_cons_self, fun f hf => ((List.pairwise_cons.1 hafter).1 f hf).symm⟩

/-- Two different fields of a register share no bit. -/
theorem regFields_apart_of_ne {k : RegKind} {f g : Fld} (hf : f ∈ regFields k) (hg : g ∈ regFields k) (h : f ≠ g) :
    f.apart g := by
  obtain ⟨before, after, hk⟩ := List.append_of_mem hg
  have hsplit := regFields_apart k
  rw [hk] at hf hsplit
  obtain ⟨hbefore, hafter⟩ := apart_of_pairwise_split hsplit
  rcases List.mem_append.1 hf with hf | hf
  · exact hbefore f hf
  · rcases List.mem_cons.1 hf with hf | hf
    · exact absurd hf h
    · exact hafter f hf

/-- A turn at one field leaves a field that shares no bit with it. -/
def KeepsApart (k : RegKind) (i j : Nat) (turn : State → Fld → State) : Prop :=
  ∀ (s : State) (f g : Fld), f.apart g → (turn s f).fld k i j g.lo g.wid = s.fld k i j g.lo g.wid

section
variable {k : RegKind} {i j : Nat} {turn : State → Fld → State} (hturn : KeepsApart k i j turn)
include hturn

/-- Turns at other fields leave a field. -/
theorem fld_foldl_apart {l : List Fld} {g : Fld} (h : ∀ f ∈ l, f.apart g) (s : State) :
    (l.foldl turn s).fld k i j g.lo g.wid = s.fld k i j g.lo g.wid :=
  foldl_keeps (fun t : State => t.fld k i j g.lo g.wid) turn l (fun t f hf => hturn t f g (h f hf)) s

/-- Over fields that share no bits, a field is what its own turn makes of it, from a state in which it is as it was. -/
theorem fld_foldl_own {l : List Fld} (hl : l.Pairwise Fld.apart) {g : Fld} (hg : g ∈ l) (s : State) :
    ∃ t : State, t.fld k i j g.lo g.wid = s.fld k i j g.lo g.wid ∧
      (l.foldl turn s).fld k i j g.lo g.wid = (turn t g).fld k i j g.lo g.wid := by
  obtain ⟨before, after, rfl⟩ := List.append_of_mem hg
  obtain ⟨hbefore, hafter⟩ := apart_of_pairwise_split hl
  refine ⟨before.foldl turn s, fld_foldl_apart hturn hbefore s, ?_⟩
  rw [List.foldl_append, List.foldl_cons]
  exact fld_foldl_apart hturn hafter _
end

/-- A write to a field is a turn that leaves the fields apart from it. -/
theorem fld_setFld_apart {k : RegKind} {i j v : Nat} {f g : Fld} (h : f.apart g) (s : State) :
    (s.setFld k i j f.lo f.wid v).fld k i j g.lo g.wid = s.fld k i j g.lo g.wid :=
  s.fld_setFld_field k i j f.lo f.wid v g.lo g.wid h

/- Stores (R4, R421). -/

/-- What a store of 8 bytes does at one field, where no field is out of range. -/
def State.storeField (k : RegKind) (i j : Nat) (v : Word) (s : State) (f : Fld) : State :=
  match f.acc with
  | .rw => s.setFld k i j f.lo f.wid (bits v f.lo f.wid)
  | .w1c => if bit v f.lo then s.setFld k i j f.lo f.wid 0 else s
  | .w1s => if bit v f.lo then s.setFld k i j f.lo f.wid 1 else s
  | _ => s

/-- A store whose fields are all in range acts field by field. -/
theorem State.storeFields_inRange {s : State} {k : RegKind} {i j : Nat} {v : Word} (h : s.outOfRange k i j v = []) :
    s.storeFields k i j 0 8 v = (regFields k).foldl (State.storeField k i j v) s := by
  have hbit : ∀ lo, (lo < 64 && bit v lo) = bit v lo := by
    intro lo
    by_cases hlo : lo < 64
    · simp [hlo]
    · simp [bit, BitVec.getLsbD_of_ge v lo (by omega)]
  unfold State.storeFields
  simp only [mergeReg_all, h, List.isEmpty_nil, if_true, List.any_nil, Bool.false_eq_true, if_false, Nat.mul_zero, Nat.zero_le,
    decide_true, Bool.true_and, Nat.zero_add, Nat.reduceMul, Nat.sub_zero, hbit] <;> rfl

theorem storeField_keepsApart (k : RegKind) (i j : Nat) (v : Word) : KeepsApart k i j (State.storeField k i j v) := by
  intro s f g h
  unfold State.storeField
  split
  · exact fld_setFld_apart h s
  · split
    · exact fld_setFld_apart h s
    · rfl
  · split
    · exact fld_setFld_apart h s
    · rfl
  · rfl

/-- The error bit of a register's group is a field of one bit, or there is none. -/
theorem State.setErr_cases (s : State) (k : RegKind) (i : Nat) :
    s.setErr k i = s ∨ ∃ k' i' lo, s.setErr k i = s.setFld k' i' 0 lo 1 1 := by
  unfold State.setErr
  dsimp only
  split
  rotate_right
  · exact .inl rfl
  all_goals exact .inr ⟨_, _, _, rfl⟩

/-- A store of register fields changes nothing but registers. -/
theorem State.storeFields_keeps {γ : Type} (g : State → γ) (hg : ∀ (t : State) k i j lo n v, g (t.setFld k i j lo n v) = g t)
    (s : State) (k : RegKind) (i j o n : Nat) (v : Word) : g (s.storeFields k i j o n v) = g s := by
  have herr : ∀ t : State, g (t.setErr k i) = g t := by
    intro t
    obtain h | ⟨k', i', lo, h⟩ := t.setErr_cases k i
    · rw [h]
    · rw [h, hg]
  unfold State.storeFields
  dsimp only
  rw [apply_ite g, herr, ite_self]
  refine foldl_keeps g _ _ (fun t f _ => ?_) s
  split
  · rw [apply_ite g, hg, ite_self]
  · rw [apply_ite g, hg, ite_self]
  · rw [apply_ite g, hg, ite_self]
  · rfl

/-- R4, R421: what a store of 8 bytes makes of a field that is in range and holds `old`. -/
def Fld.stored (f : Fld) (v : Word) (old : Nat) : Nat :=
  match f.acc with
  | .rw => bits v f.lo f.wid
  | .w1c => if bit v f.lo then 0 else old
  | .w1s => if bit v f.lo then 1 % 2 ^ f.wid else old
  | _ => old

theorem State.fld_storeField {s : State} {k : RegKind} {i j : Nat} {v : Word} {f : Fld} (h64 : f.lo + f.wid ≤ 64) :
    (s.storeField k i j v f).fld k i j f.lo f.wid = f.stored v (s.fld k i j f.lo f.wid) := by
  have hset : ∀ u, (s.setFld k i j f.lo f.wid u).fld k i j f.lo f.wid = u % 2 ^ f.wid :=
    fun u => s.fld_setFld_same k i j f.lo f.wid u h64
  cases hacc : f.acc with
  | rw => simp only [State.storeField, Fld.stored, hacc, hset, bits, Nat.mod_mod]
  | w1c => simp only [State.storeField, Fld.stored, hacc, apply_ite (State.fld · k i j f.lo f.wid), hset, Nat.zero_mod]
  | w1s => simp only [State.storeField, Fld.stored, hacc, apply_ite (State.fld · k i j f.lo f.wid), hset]
  | ro | rc | wo => simp only [State.storeField, Fld.stored, hacc]

/-- A store of 8 bytes whose fields are all in range makes of each field what its access code says. -/
theorem State.fld_storeFields {s : State} {k : RegKind} {i j : Nat} {v : Word} {f : Fld} (h : s.outOfRange k i j v = [])
    (hf : f ∈ regFields k) (h64 : f.lo + f.wid ≤ 64) :
    (s.storeFields k i j 0 8 v).fld k i j f.lo f.wid = f.stored v (s.fld k i j f.lo f.wid) := by
  obtain ⟨t, ht, hstore⟩ := fld_foldl_own (storeField_keepsApart k i j v) (regFields_apart k) hf s
  rw [State.storeFields_inRange h, hstore, State.fld_storeField h64, ht]

/-- The registers whose store has no effect of its own, but for the last word of HD_PMU_DSEL. -/
def plainKinds : List RegKind :=
  [.tsChCtrl, .tsCfg, .ccMask0, .ccMask1, .xltAst, .fqDeadline, .scrubCtrl, .seqCptRate, .cohCtrl, .ordCtrl, .fabCtrl,
   .wsCtrl, .wsThresh, .dbase, .dsel, .fabTimeCfg, .pmuUserEn]

/-- A store of 8 bytes at such a register stores its fields. -/
theorem State.regStore_plain {s : State} {iss : Iss} {addr : Nat} {k : RegKind} {i j : Nat} (v : Word) (h8 : addr % 8 = 0)
    (haux : isAuxWin addr = false) (hat : regAt addr = some (k, i, j)) (hk : k ∈ plainKinds) (hj : k = .dsel → j < 9) :
    s.regStore iss addr 8 v = some (s.storeFields k i j 0 8 v, false) := by
  unfold State.regStore
  simp only [h8, haux, Nat.sub_zero, hat, Bool.false_eq_true, if_false]
  simp only [plainKinds, List.mem_cons, List.not_mem_nil, or_false] at hk
  rcases hk with rfl | rfl | rfl | rfl | rfl | rfl | rfl | rfl | rfl | rfl | rfl | rfl | rfl | rfl | rfl | rfl | rfl
  case inr.inr.inr.inr.inr.inr.inr.inr.inr.inr.inr.inr.inr.inr.inl =>
    have h9 : ¬ j = 9 := by have := hj rfl; omega
    simp [isPmu, h9]
  all_goals rfl

/-- Word 9 of HD_PMU_DSEL keeps the bits of its units and monitors alone (R401). -/
theorem State.regStore_dsel9 {s : State} {iss : Iss} {addr i : Nat} (v : Word) (h8 : addr % 8 = 0)
    (haux : isAuxWin addr = false) (hat : regAt addr = some (.dsel, i, 9)) :
    s.regStore iss addr 8 v = some (((s.storeFields .dsel i 9 0 8 v).setFld .dsel i 9 5 11 0).setFld .dsel i 9 32 32 0, false) := by
  unfold State.regStore
  simp [h8, haux, hat, isPmu]

theorem State.reg_storeFields_dsel (s : State) (i j : Nat) (v : Word) : (s.storeFields .dsel i j 0 8 v).reg .dsel i j = v := by
  have h : s.outOfRange .dsel i j v = [] := rfl
  rw [State.storeFields_inRange h]
  simp only [regFields, List.foldl_cons, List.foldl_nil, State.storeField, State.setFld, State.reg_setReg_same]
  rw [setBits_all, bits_all, BitVec.ofNat_toNat, BitVec.setWidth_eq]


/- Accesses as they arrive at their block (R4, R5, R170, R421). -/

section
variable {s : State} {iss : Iss} {k : RegKind} {i j : Nat} {f : State → State}

theorem State.atBlock_ok (h : s.reach iss (regAddr k i j) = .ok) : s.atBlock iss k i j f = .next ((f s).wrote iss) := by
  rw [State.atBlock, h]

theorem State.atBlock_bus (h : s.reach iss (regAddr k i j) = .bus) : s.atBlock iss k i j f = .next (s.wrote iss true) := by
  rw [State.atBlock, h]

theorem State.atBlock_wait (h : s.reach iss (regAddr k i j) = .wait) : s.atBlock iss k i j f = .next s := by
  rw [State.atBlock, h]
end

section
variable {s : State} {iss : Iss} {addr : Nat} (hm : isMmio addr = true) (hw : accessWf addr 8 = true)
include hm hw

/-- A store of 8 bytes whose block answers is performed there. -/
theorem exec_registerWrite_ok {v : Word} {s1 : State} {e : Bool} (h : s.reach iss addr = .ok)
    (hst : s.regStore iss addr 8 v = some (s1, e)) : exec (.registerWrite iss addr 8 v) s = .next (s1.wrote iss e) := by
  show execRegisterWrite iss addr 8 v s = _
  simp [execRegisterWrite, hm, hw, h, hst]

theorem exec_registerWrite_bus (h : s.reach iss addr = .bus) (v : Word) :
    exec (.registerWrite iss addr 8 v) s = .next (s.wrote iss true) := by
  show execRegisterWrite iss addr 8 v s = _
  simp [execRegisterWrite, hm, hw, h]

theorem exec_registerWrite_wait (h : s.reach iss addr = .wait) (v : Word) : exec (.registerWrite iss addr 8 v) s = .next s := by
  show execRegisterWrite iss addr 8 v s = _
  simp [execRegisterWrite, hm, hw, h]

/-- A load of 8 bytes whose block answers is performed there. -/
theorem exec_registerReadClear_ok {s1 : State} {w : Word} {e : Bool} (h : s.reach iss addr = .ok)
    (hld : s.regLoad iss addr 8 = (s1, w, e)) : exec (.registerReadClear iss addr 8) s = .next (s1.wasRead iss addr w e) := by
  show execRegisterReadClear iss addr 8 s = _
  simp [execRegisterReadClear, hm, hw, h, hld]

theorem exec_registerReadClear_bus (h : s.reach iss addr = .bus) :
    exec (.registerReadClear iss addr 8) s = .next (s.wasRead iss addr 0 true) := by
  show execRegisterReadClear iss addr 8 s = _
  simp [execRegisterReadClear, hm, hw, h]

theorem exec_registerReadClear_wait (h : s.reach iss addr = .wait) : exec (.registerReadClear iss addr 8) s = .next s := by
  show execRegisterReadClear iss addr 8 s = _
  simp [execRegisterReadClear, hm, hw, h]
end

section
variable {s : State} {iss : Iss} {addr : Nat} (h8 : addr % 8 = 0) (haux : isAuxWin addr = false)
include h8 haux

/-- A store where no chapter assigns the offset keeps nothing. -/
theorem State.regStore_unassigned (hat : regAt addr = none) (v : Word) : s.regStore iss addr 8 v = some (s, false) := by
  simp [State.regStore, h8, haux, hat]

/-- A load there reads 0. -/
theorem State.regLoad_unassigned (hat : regAt addr = none) : s.regLoad iss addr 8 = (s, 0, false) := by
  simp [State.regLoad, h8, haux, hat]

/-- The fields that read and clear. -/
def rcFields (k : RegKind) : List Fld := (regFields k).filter (fun f => f.acc == .rc && f.inside 0 8)

def State.clearField (k : RegKind) (i j : Nat) (s : State) (f : Fld) : State := s.setFld k i j f.lo f.wid 0

/-- A register after a load of all its bytes: its RC fields are clear. -/
def State.readClear (s : State) (k : RegKind) (i j : Nat) : State := (rcFields k).foldl (State.clearField k i j) s

/-- A load of 8 bytes answers the register as its issuer sees it, and clears the RC fields. -/
theorem State.regLoad_reg {k : RegKind} {i j : Nat} (hat : regAt addr = some (k, i, j)) :
    s.regLoad iss addr 8 = (s.readClear k i j, s.regSeen iss k i j, false) := by
  simp [State.regLoad, h8, haux, hat, State.readClear, rcFields, bits_all] <;> rfl
end

theorem mem_rcFields {k : RegKind} {f : Fld} (h64 : f.lo + f.wid ≤ 64) : f ∈ rcFields k ↔ f ∈ regFields k ∧ f.acc = .rc := by
  simp [rcFields, Fld.inside, h64]

theorem clearField_keepsApart (k : RegKind) (i j : Nat) : KeepsApart k i j (State.clearField k i j) :=
  fun s _ _ h => fld_setFld_apart h s

/-- After a load of all its bytes an RC field is 0. -/
theorem State.fld_readClear_rc (s : State) {k : RegKind} {i j : Nat} {f : Fld} (hf : f ∈ regFields k) (hrc : f.acc = .rc)
    (h64 : f.lo + f.wid ≤ 64) : (s.readClear k i j).fld k i j f.lo f.wid = 0 := by
  obtain ⟨t, -, h⟩ := fld_foldl_own (clearField_keepsApart k i j) ((regFields_apart k).filter _) ((mem_rcFields h64).2 ⟨hf, hrc⟩) s
  rw [State.readClear, rcFields, h, State.clearField, State.fld_setFld_same _ _ _ _ _ _ _ h64, Nat.zero_mod]

/-- A field of another kind stays. -/
theorem State.fld_readClear_other (s : State) {k : RegKind} {i j : Nat} {f : Fld} (hf : f ∈ regFields k) (hrc : f.acc ≠ .rc) :
    (s.readClear k i j).fld k i j f.lo f.wid = s.fld k i j f.lo f.wid := by
  refine fld_foldl_apart (clearField_keepsApart k i j) (fun g hg => ?_) s
  obtain ⟨hgk, hg⟩ := List.mem_filter.1 hg
  have hne : g ≠ f := by
    rintro rfl
    simp [hrc] at hg
  exact regFields_apart_of_ne hgk hf hne

theorem State.readClear_mem (s : State) (k : RegKind) (i j : Nat) : (s.readClear k i j).mem = s.mem := by
  unfold State.readClear
  exact foldl_keeps State.mem (State.clearField k i j) (rcFields k) (fun _ _ _ => rfl) s

/-- The bits of HD_PMU_DSEL's last word that a store of it keeps (R401). -/
theorem dsel9_mask (v : Word) : setBits (setBits v 5 11 0) 32 32 0 = v &&& 0xFFFF001F := by
  rw [setBits_zero, setBits_zero, BitVec.and_assoc]
  rfl

/-- A row of the table that is a store of a register by itself is a store at that register's block. -/
theorem doorbells_atBlock {s : State} {iss : Iss} {v : Word} {i : Nat} (hi : i < 2) :
    ∀ c ∈ [(RegKind.mbDoorbell, Instr.mbDoorbell iss i 8 v), (.dqDoorbell, .cdDqDoorbell iss i 8 v),
      (.cgDoorbell, .fabCgDoorbell iss i 8 v), (.fqRidx, .cdFqRidxWrite iss i 8 v), (.evrRidx, .hdEvrRidxWrite iss i 8 v),
      (.mscCtrl, .mdMscFlush iss i), (.seqBtcCtrl, .seqBtcFlush iss i), (.ccCtrl, .cdCcFlush iss i), (.lnkCtrl, .lnkCtrlRetrain iss i), (.monCtrl, .hdMonClear iss i)],
    ∃ f, exec c.2 s = s.atBlock iss c.1 i 0 f := by
  have hsized : ∀ n, 2 ≤ n → ¬ (decide (i ≥ n) || !accessWf 0 8) = true := fun n hn => by simp [accessWf]; omega
  have hlink : ¬ (linkPartner i).isNone = true := by
    obtain rfl | rfl : i = 0 ∨ i = 1 := by omega
    · exact Bool.false_ne_true
    · exact Bool.false_ne_true
  simp only [List.forall_mem_cons, List.not_mem_nil, false_implies, implies_true, and_true]
  exact ⟨⟨_, if_neg (hsized 8 (by omega))⟩, ⟨_, if_neg (hsized 1024 (by omega))⟩, ⟨_, if_neg (hsized 4096 (by omega))⟩,
    ⟨_, if_neg (hsized 8 (by omega))⟩, ⟨_, if_neg (hsized 3 (by omega))⟩, ⟨_, if_neg (by omega)⟩, ⟨_, if_neg (by omega)⟩,
    ⟨_, if_neg (by omega)⟩, ⟨_, if_neg hlink⟩, ⟨_, if_neg (by omega)⟩⟩

/- Counters and monitors (R392, R400). -/

/-- A store of 8 bytes from outside at a programmable counter writes its value plus the events of that clock. -/
theorem exec_pmuCounterWrite {s : State} {unit idx : Nat} (v : Word) (n : Nat) (hu : unit < 581) (hi : idx < 8)
    (h : s.reach .ext (regAddr .pmuPmc unit idx) = .ok) :
    exec (.pmuCounterWrite .ext unit idx 8 v n) s =
      .next (s.setReg .pmuPmc unit idx (v + BitVec.ofNat 64 (if s.pmuOn unit then n else 0))) := by
  have hops : ¬ (decide (unit ≥ 581) || decide (idx ≥ 14) || !accessWf 0 8) = true := by simp [accessWf]; omega
  have hfixed : ¬ 9 ≤ idx := by omega
  show execPmuCounterWrite .ext unit idx 8 v n s = _
  unfold execPmuCounterWrite
  simp only [if_neg hops, hi, if_true]
  rw [State.atBlock_ok h]
  simp [State.pmuMayWrite, State.issuer, hfixed, mergeReg_all, State.wrote]

/-- Registers that read 0 after reset and are all written with 0 read 0, whether or not two of them share an address. -/
theorem State.reg_foldl_setReg_zero {k : RegKind} {i j : Nat} (hk : ∀ i j, regReset k i j = 0) (l : List Nat) (s : State)
    (h : j ∈ l ∨ s.reg k i j = 0) : (l.foldl (fun t x => t.setReg k i x 0) s).reg k i j = 0 := by
  induction l generalizing s with
  | nil => simpa using h
  | cons x l ih =>
    refine ih _ ?_
    rcases h with h | h
    · rcases List.mem_cons.1 h with rfl | h
      · exact .inr (State.reg_setReg_same ..)
      · exact .inl h
    · exact .inr (by simp [State.reg_setReg, hk, h])

/-- A monitor's range and its bins are different registers. -/
theorem monBin_addr_ne_monRange : ∀ i < 16, ∀ j < 8, regAddr .monRange i 0 ≠ regAddr .monBin i j := by
  decide +kernel

/-- A cleared monitor has no value: its smallest is all ones, its largest 0. -/
theorem State.monClear_range (s : State) {i : Nat} (hi : i < 16) : (s.monClear i).reg .monRange i 0 = 0xFFFFFFFF := by
  unfold State.monClear
  rw [foldl_keeps (fun t : State => t.reg .monRange i 0) (fun t j => t.setReg .monBin i j 0) (upTo 8)
    (fun t j hj => t.reg_setReg_other _ _ _ _ _ _ _ (monBin_addr_ne_monRange i hi j (List.mem_range.1 hj)))]
  exact State.reg_setReg_same ..

theorem State.monClear_bin (s : State) {i j : Nat} (hj : j < 8) : (s.monClear i).reg .monBin i j = 0 :=
  State.reg_foldl_setReg_zero (fun _ _ => rfl) (upTo 8) _ (.inl (List.mem_range.2 hj))

theorem State.monClear_mem (s : State) (i : Nat) : (s.monClear i).mem = s.mem := by
  unfold State.monClear
  exact foldl_keeps State.mem (fun t j => t.setReg .monBin i j 0) (upTo 8) (fun _ _ _ => rfl) _

theorem State.monRecord_off {s : State} {i : Nat} (h : s.fld .monCtrl i 0 0 1 = 0) (v : Nat) : s.monRecord i v = s := by
  rw [State.monRecord, if_pos h]

theorem State.monRecord_mem (s : State) (i v : Nat) : (s.monRecord i v).mem = s.mem := by
  unfold State.monRecord
  split
  · rfl
  · rfl

theorem exec_monitorSample_off {s : State} (h : s.hdOn = true) (hoff : ∀ i < 16, s.fld .monCtrl i 0 0 1 = 0) :
    exec .monitorSample s = .next s := by
  have hrec : ∀ i < 16, ∀ v, s.monRecord i v = s := fun i hi => State.monRecord_off (hoff i hi)
  have hfold : ∀ depth : Nat → Nat, (upTo 4).foldl (fun t m => t.monRecord (4 + m) (depth m)) s = s := by
    intro depth
    refine List.foldlRecOn (motive := fun t => t = s) (upTo 4) _ rfl ?_
    rintro _ rfl m hm
    exact hrec (4 + m) (by have := List.mem_range.1 hm; omega) _
  show execMonitorSample s = _
  unfold execMonitorSample
  simp only [h, Bool.not_true, Bool.false_eq_true, if_false]
  rw [hfold, hrec 9 (by omega)]

theorem exec_monitorSample_mem {s : State} (h : s.hdOn = true) : ∃ t, exec .monitorSample s = .next t ∧ t.mem = s.mem := by
  refine ⟨_, if_neg (by simp [h]), ?_⟩
  rw [State.monRecord_mem]
  exact foldl_keeps State.mem _ (upTo 4) (fun _ _ _ => State.monRecord_mem ..) s

/- Dumps (R397, R398). -/

/-- The state at a tick: one more of them, at this time, with the interval of the next. -/
def State.ticked (s : State) : State :=
  { s with pmu := { s.pmu with tick := s.pmu.tick + 1, last := s.now, interval := s.fld .dctrl 0 0 2 20 } }

/-- A multiple of the interval has been reached since the latest tick. -/
def State.tickDue (s : State) : Prop := s.pmu.last / (1000 * max 1 s.pmu.interval) < s.now / (1000 * max 1 s.pmu.interval)

section
variable {s : State} (hen : s.fld .dctrl 0 0 0 1 = 1) (hdue : s.tickDue)
include hen hdue

/-- A tick that is due, where units are selected: missed during a dump or in P-Park, lost without room, and else a record of
each unit, of which the first alone shows what was lost and missed. -/
theorem exec_pmuDumpTick_due {u : Nat} {us : List Nat} (hsel : s.ticked.dumpSel = u :: us) : exec .pmuDumpTick s =
    if (s.ticked.dumpBusy || decide (s.ticked.fld .pwrStatus 0 0 0 3 = 3)) = true then
      .next (({ s.ticked with pmu := { s.ticked.pmu with missed := true } } : State).incFld .dstatus 0 0 32 16)
    else if (!s.ticked.memOk || !s.ticked.dumpRoom (us.length + 1)) = true then
      .next (({ s.ticked with pmu := { s.ticked.pmu with loss := true } } : State).incFld .dstatus 0 0 16 16)
    else .next { s.ticked with pmu := { s.ticked.pmu with
      loss := false, missed := false, out := s.ticked.dumpRecord true u :: us.map (s.ticked.dumpRecord false) } } := by
  have hgo : ¬ (s.fld .dctrl 0 0 0 1 = 0 ∨
      s.now / (1000 * max 1 s.pmu.interval) ≤ s.pmu.last / (1000 * max 1 s.pmu.interval)) := by
    unfold State.tickDue at hdue
    omega
  show execPmuDumpTick s = _
  unfold execPmuDumpTick
  rw [if_neg hgo]
  dsimp only [State.ticked] at hsel ⊢
  simp only [hsel, List.length_cons]
  rfl
end

/-- The records of a dump that has none left to write: nothing changes. -/
theorem exec_dumpComplete_none {s : State} (h : s.pmu.out = []) : exec .dumpComplete s = .next s := by
  show execDumpComplete s = _
  unfold execDumpComplete
  simp only [h, List.zipIdx_nil, List.map_nil, List.foldl_nil]
  rw [← h]

/-- The one record of a dump goes to the next free place of the ring. -/
theorem exec_dumpComplete_one {s : State} {b : List Byte} (h : s.pmu.out = [b]) :
    exec .dumpComplete s = .next (({ s with pmu := { s.pmu with out := [] } } : State).putRecord
      ⟨.dwidx, 0, s.fld .dbase 0 0 7 49 * 128 + 128 * (((s.reg .dwidx 0 0).toNat + s.recordsOut .dwidx 0) % 2 ^ s.fld .dbase 0 0 0 5), b⟩) := by
  show execDumpComplete s = _
  unfold execDumpComplete
  simp only [h, List.zipIdx_cons, List.zipIdx_nil, List.map_cons, List.map_nil, List.foldl_cons, List.foldl_nil, Nat.add_zero]

end Sys2Proof.Machine

namespace Sys2Proof

open Sys2Proof.Machine

theorem parts_counters : Parts.Counters := by
  unfold Parts.Counters
  refine ⟨?_, ?_, ?_, ?_, ?_, ?_, ?_, ?_, ?_⟩
  · intro s unit idx v n hu hi hr hoff
    simpa [hoff] using exec_pmuCounterWrite v n hu hi hr
  · intro s unit idx v n hu hi hr hon
    simpa [hon] using exec_pmuCounterWrite v n hu hi hr
  · intro s iss i hi hr
    have hops : ¬ i ≥ 16 := by omega
    exact ⟨s.monClear i, (if_neg hops).trans (State.atBlock_ok hr), s.monClear_range hi, fun j hj => s.monClear_bin hj,
      s.monClear_mem i⟩
  · intro s h
    exact if_pos (.inl h)
  · intro s u us hen hdue s1 hp hsel
    have hgo := exec_pmuDumpTick_due hen hdue hsel
    have hp' : decide (s.ticked.fld .pwrStatus 0 0 0 3 = 3) = false := decide_eq_false hp
    rw [hp', Bool.or_false] at hgo
    refine ⟨fun hb => hgo.trans (if_pos hb), fun hb hroom => hgo.trans ((if_neg (ne_true_of_eq_false hb)).trans (if_pos ?_)),
      fun hb hm hroom => hgo.trans ((if_neg (ne_true_of_eq_false hb)).trans (if_neg ?_))⟩
    · rw [Bool.or_eq_true, Bool.not_eq_true', Bool.not_eq_true']
      exact hroom
    · rw [show s.ticked.memOk = true from hm, show s.ticked.dumpRoom (us.length + 1) = true from hroom]
      exact Bool.false_ne_true
  · intro s b h
    exact exec_dumpComplete_one h
  · intro s h
    exact exec_dumpComplete_none h
  · intro s h hoff
    exact exec_monitorSample_off h hoff
  · intro s h
    exact exec_monitorSample_mem h

theorem parts_registers : Parts.Registers := by
  unfold Parts.Registers
  refine ⟨?_, ?_, ?_, ?_, ?_, ?_⟩
  · intro s iss addr k i j v hm h8 haux hr hat hk hj
    exact exec_registerWrite_ok hm (accessWf_8.2 h8) hr (State.regStore_plain v h8 haux hat hk hj)
  · intro s iss addr i v hm h8 haux hr hat
    refine ⟨_, exec_registerWrite_ok hm (accessWf_8.2 h8) hr (State.regStore_dsel9 v h8 haux hat), ?_⟩
    simp only [State.setFld, State.reg_setReg_same, State.reg_storeFields_dsel, dsel9_mask]
  · intro s k i j v f hin hf h64
    have h := State.fld_storeFields hin hf h64
    refine ⟨fun hacc => ?_, fun hacc hw => ?_, fun hacc => ?_⟩
    · simpa only [Fld.stored, hacc] using h
    · simpa only [Fld.stored, hacc, hw] using h
    · rcases hacc with hacc | hacc
      · simpa only [Fld.stored, hacc] using h
      · simpa only [Fld.stored, hacc] using h
  · intro s k i j v
    exact ⟨State.storeFields_keeps State.mem (fun _ _ _ _ _ _ _ => rfl) s k i j 0 8 v,
      State.storeFields_keeps State.pd (fun _ _ _ _ _ _ _ => rfl) s k i j 0 8 v⟩
  · intro s iss v i hi c hc
    obtain ⟨f, hf⟩ := doorbells_atBlock (s := s) hi c hc
    rw [hf]
    exact ⟨State.atBlock_bus, State.atBlock_wait⟩
  · intro s iss addr hm hw
    have h8 := accessWf_8.1 hw
    refine ⟨fun hr => ⟨exec_registerWrite_bus hm hw hr, exec_registerReadClear_bus hm hw hr⟩,
      fun hr => ⟨exec_registerWrite_wait hm hw hr, exec_registerReadClear_wait hm hw hr⟩,
      fun hr haux hat => ⟨fun v => exec_registerWrite_ok hm hw hr (State.regStore_unassigned h8 haux hat v),
        exec_registerReadClear_ok hm hw hr (State.regLoad_unassigned h8 haux hat)⟩,
      fun k i j hr haux hat => ⟨s.readClear k i j, exec_registerReadClear_ok hm hw hr (State.regLoad_reg h8 haux hat),
        fun f hf hrc h64 => s.fld_readClear_rc hf hrc (Nat.add_comm f.wid f.lo ▸ h64),
        fun f hf hrc _ => s.fld_readClear_other hf hrc, s.readClear_mem k i j⟩⟩

end Sys2Proof

open Sys2Proof in
/-- Settles O60: a register's fields share no bits, so that each is after a store or a load what its own turn makes of it; the
counters, dumps and monitors follow their commands branch by branch. -/
theorem countersAndRegisters : Obligations.CountersAndRegisters := ⟨parts_counters, parts_registers⟩
end

section
/-! SUPPORT. Decoding of a tile streamer's descriptors (R127, R128, R130, R136, R422) and its synchronising descriptors (R127,
R135): the statement on them. -/

namespace Sys2Proof.Machine

/- A descriptor as it is decoded (R130, R136). -/

theorem Desc.isMem_iff {d : Desc} : d.isMem = true ↔ 1 ≤ d.op ∧ d.op ≤ 5 := by
  rw [Desc.isMem, Bool.and_eq_true, decide_eq_true_eq, decide_eq_true_eq]

/-- A memory descriptor is of no other type. -/
theorem Desc.op_of_isMem {d : Desc} (h : d.isMem = true) :
    d.op ≠ 0x13 ∧ d.op ≠ 0x1F ∧ d.isEng = false ∧ d.isSync = false := by
  obtain ⟨hlo, hhi⟩ := Desc.isMem_iff.1 h
  refine ⟨by omega, by omega, ?_, ?_⟩
  · rw [Desc.isEng, beq_eq_false_iff_ne]
    omega
  · rw [Desc.isSync, Bool.and_eq_false_iff, decide_eq_false_iff_not]
    exact .inl (by omega)

/-- A memory descriptor uses the slot ring. -/
theorem Desc.usesSlot_of_isMem {d : Desc} (h : d.isMem = true) : d.usesSlot = true := by
  rw [Desc.usesSlot, h, Bool.true_or]

/-- The descriptor that a channel decodes from the line of its pc. -/
def Chan.nextDesc (x : Chan) (l : Line) : Desc :=
  { parseDesc l x.pc x.i0 x.i1 with ord := x.ord + 1, n0 := x.cnt.get 0 x.pc }

/-- The channel after it has taken the descriptor at its pc. -/
def Chan.taken (x : Chan) : Chan := { x with lastDesc := x.pc, fetched := none }

/-- The checks of R136 on that descriptor, with its reserved bytes, the team's tiles and the launch's mode. -/
def State.descOk (s : State) (c ch : Nat) (l : Line) : Bool :=
  let x := s.chan c ch
  (x.nextDesc l).ok (lineBytes l (x.pc % 128 + 0x38) 8)
    (match x.team with | some tid => (s.teams.get {} tid).tiles | none => 0) (s.launchOf x.lid).remote x.bound

/- LOOP's indices and place (R135), field by field. -/

theorem loopNext_i0 (d : Desc) : (loopNext d).1 =
    if d.p0 % 2 = 0 then (if d.i0 < d.count then d.i0 + 1 else 0) else (if d.i1 < d.count then 0 else d.i0) := by
  unfold loopNext
  split
  · split <;> rfl
  · split <;> rfl

theorem loopNext_i1 (d : Desc) : (loopNext d).2.1 =
    if d.p0 % 2 = 0 then d.i1 else (if d.i1 < d.count then d.i1 + 1 else 0) := by
  unfold loopNext
  split
  · split <;> rfl
  · split <;> rfl

theorem loopNext_pc (d : Desc) : (loopNext d).2.2 =
    if (if d.p0 % 2 = 0 then d.i0 else d.i1) < d.count then d.adr else (d.addr + 64) % 2 ^ 64 := by
  unfold loopNext
  split
  · split <;> rfl
  · split <;> rfl

/- What decoding makes of each type of descriptor (R127, R128, R135, R136). -/

section
variable {s0 s : State} {c ch : Nat} {l : Line}

theorem State.decodeDesc_bad (h : s.descOk c ch l = false) :
    s0.decodeDesc s c ch l = (s.setChan c ch (s.chan c ch).taken).chanHalt c ch (s.chan c ch).pc 1 0 0x0211 :=
  if_pos (by rw [Bool.not_eq_true']; exact h)

/-- A descriptor that passes the checks is taken according to its type. -/
theorem State.decodeDesc_good (h : s.descOk c ch l = true) :
    s0.decodeDesc s c ch l =
      let x := s.chan c ch
      let d := x.nextDesc l
      if d.op = 0x13 then
        s.setChan c ch { x.taken with i0 := (loopNext d).1, i1 := (loopNext d).2.1, pc := (loopNext d).2.2 }
      else if d.op = 0x1F then s.setChan c ch { x.taken with ending := true }
      else if ((d.isMem || d.isSync) && decide (accUsed x.acc ≥ 16)) || ((d.isEng || d.isSync) && decide (exeUsed x.exe ≥ 32)) then s0
      else s.setChan c ch { x.taken with
        pc := (x.pc + 64) % 2 ^ 64, ord := x.ord + 1,
        bound := if d.isEng && d.eop == 9 then insertN (d.p0 % 4) x.bound
          else if d.isEng && d.eop == 10 then x.bound.filter (· ≠ d.p0 % 4) else x.bound,
        cnt := if d.usesSlot then x.cnt.set x.pc (d.n0 + d.count) else x.cnt,
        acc := if d.isMem || d.isSync then x.acc ++ [d] else x.acc,
        exe := if d.isEng || d.isSync then x.exe ++ [d] else x.exe } :=
  if_neg (by rw [Bool.not_eq_true', Bool.not_eq_false]; exact h)

theorem State.decodeDesc_end (h : s.descOk c ch l = true) (hop : ((s.chan c ch).nextDesc l).op = 0x1F) :
    s0.decodeDesc s c ch l = s.setChan c ch { (s.chan c ch).taken with ending := true } := by
  have hloop : ((s.chan c ch).nextDesc l).op ≠ 0x13 := by omega
  rw [State.decodeDesc_good h]
  exact (if_neg hloop).trans (if_pos hop)

theorem State.decodeDesc_loop (h : s.descOk c ch l = true) (hop : ((s.chan c ch).nextDesc l).op = 0x13) :
    s0.decodeDesc s c ch l =
      let d := (s.chan c ch).nextDesc l
      s.setChan c ch { (s.chan c ch).taken with i0 := (loopNext d).1, i1 := (loopNext d).2.1, pc := (loopNext d).2.2 } := by
  rw [State.decodeDesc_good h]
  exact if_pos hop

/-- A memory descriptor enters the access queue where that has room, and waits where it has none. -/
theorem State.decodeDesc_mem (h : s.descOk c ch l = true) (hm : ((s.chan c ch).nextDesc l).isMem = true) :
    s0.decodeDesc s c ch l =
      let x := s.chan c ch
      let d := x.nextDesc l
      if 16 ≤ accUsed x.acc then s0
      else s.setChan c ch { x.taken with
        pc := (x.pc + 64) % 2 ^ 64, ord := x.ord + 1, cnt := x.cnt.set x.pc (d.n0 + d.count), acc := x.acc ++ [d] } := by
  obtain ⟨hloop, hend, heng, hsync⟩ := Desc.op_of_isMem hm
  rw [State.decodeDesc_good h]
  simp only [hloop, hend, heng, hsync, hm, Desc.usesSlot_of_isMem hm, if_false, if_true, Bool.or_false, Bool.false_and, Bool.true_and,
    decide_eq_true_eq, ge_iff_le, Bool.false_eq_true]
  rfl

end

/- The commands of a channel that runs. -/

/-- The operands of a channel's command name a channel. -/
theorem chan_operands {c ch : Nat} (hc : c < 512) (hch : ch < 8) : ¬ (c ≥ 512 ∨ ch ≥ 8) := by omega

/-- A line of local memory that arrives whole is decoded. -/
theorem exec_descriptorDecode_line {s s2 : State} {c ch : Nat} {l : Line} (h : descLine s c ch s2 l) :
    exec (.descriptorDecode c ch) s = .next (s.decodeDesc s2 c ch l) := by
  obtain ⟨hc, hch, hrun, hend, hstall, hpc, s1, pa, dev, hint, w, hx, hkind, hread⟩ := h
  show execDescriptorDecode c ch s = _
  unfold execDescriptorDecode
  rw [if_neg (chan_operands hc hch)]
  simp only [hrun, hend, hstall, hpc, hx, hread]
  rcases hkind with hk | hk
  · rw [hk]
    rfl
  · rw [hk]
    rfl

theorem exec_descriptorFetchError_runs {s : State} {c ch : Nat} (poison : Bool) (hc : c < 512) (hch : ch < 8)
    (hrun : s.chanRuns c ch = true) (hend : (s.chan c ch).ending = false) (hstall : (s.chan c ch).stall.elem 1 = false) :
    exec (.descriptorFetchError c ch poison) s = .next ((s.setChan c ch { s.chan c ch with fetching := false }).chanHalt
      c ch (s.chan c ch).pc (if poison then 7 else 8) 0 0x0201) :=
  (if_neg (chan_operands hc hch)).trans (if_neg (by rw [hrun, hend, hstall]; exact Bool.false_ne_true))

section
variable {s : State} {c ch : Nat} (hc : c < 512) (hch : ch < 8) (hrun : s.chanRuns c ch = true)
include hc hch hrun

theorem exec_signal_reached {d : Desc} (hd : reachedSync (s.chan c ch) 0x11 = some d) : exec (.signal c ch) s =
    if earlierDone (s.chan c ch) d then .next (((s.syncDone c ch d.ord).addFld .tsChCount c ch 0 32).wakeHand c) else .next s := by
  show execSignal c ch s = _
  unfold execSignal
  rw [if_neg (chan_operands hc hch), hrun, hd]
  rfl

theorem exec_tfenceDescriptor_reached {d : Desc} (hd : reachedSync (s.chan c ch) 0x10 = some d) : exec (.tfenceDescriptor c ch) s =
    if earlierDone (s.chan c ch) d then .next (s.syncDone c ch d.ord) else .next s := by
  show execTfenceDescriptor c ch s = _
  unfold execTfenceDescriptor
  rw [if_neg (chan_operands hc hch), hrun, hd]
  rfl

theorem exec_wait_reached {d : Desc} (hd : reachedSync (s.chan c ch) 0x12 = some d) : exec (.wait c ch) s =
    if d.p1 ≤ s.fld .tsChCount c ch 32 32 then .next (s.syncDone c ch d.ord) else .next s := by
  show execWait c ch s = _
  unfold execWait
  rw [if_neg (chan_operands hc hch), hrun, hd]
  rfl

theorem exec_endComplete_done (hend : (s.chan c ch).ending = true) (hacc : (s.chan c ch).acc = []) (hexe : (s.chan c ch).exe = []) :
    exec (.endComplete c ch) s = .next ((s.endChan c ch 0 0).wakeHand c) :=
  (if_neg (chan_operands hc hch)).trans (if_pos (by rw [hrun, hend, hacc, hexe]; rfl))

end

end Sys2Proof.Machine

namespace Sys2Proof

open Sys2Proof.Machine

theorem parts_descriptorsDecode : Parts.DescriptorsDecode := by
  unfold Parts.DescriptorsDecode
  refine ⟨?_, ?_⟩
  · intro s c ch s2 l h x2 d0 d tiles good
    have hx := exec_descriptorDecode_line h
    refine ⟨fun hbad => ?_, fun hgood hop => ?_, fun hgood hop => ?_, fun hgood hm hroom => ?_, fun hgood hm hfull => ?_⟩
    · rw [hx, State.decodeDesc_bad hbad]
      rfl
    · rw [hx, State.decodeDesc_end hgood hop]
      rfl
    · rw [hx, State.decodeDesc_loop hgood hop]
      dsimp only
      rw [loopNext_i0, loopNext_i1, loopNext_pc]
      rfl
    · rw [hx, State.decodeDesc_mem hgood hm]
      exact congrArg _ (if_neg (Nat.not_le.2 hroom))
    · rw [hx, State.decodeDesc_mem hgood hm]
      exact congrArg _ (if_pos hfull)
  · intro s c ch poison hc hch hrun hend hstall
    exact exec_descriptorFetchError_runs poison hc hch hrun hend hstall

theorem parts_synchronisingDescriptors : Parts.SynchronisingDescriptors := by
  unfold Parts.SynchronisingDescriptors
  intro s c ch hc hch hrun
  refine ⟨fun d hd hdone => ?_, fun d hd hdone => ?_, fun d hd hpost => ?_, fun d hd hpost => ?_, fun d hd hopen => ?_,
    fun hend hacc hexe => exec_endComplete_done hc hch hrun hend hacc hexe⟩
  · exact (exec_signal_reached hc hch hrun hd).trans (if_pos hdone)
  · exact (exec_tfenceDescriptor_reached hc hch hrun hd).trans (if_pos hdone)
  · exact (exec_wait_reached hc hch hrun hd).trans (if_pos hpost)
  · exact (exec_wait_reached hc hch hrun hd).trans (if_neg (Nat.not_le.2 hpost))
  · exact (exec_signal_reached hc hch hrun hd).trans (if_neg (ne_true_of_eq_false hopen))

end Sys2Proof

open Sys2Proof in
/-- Settles O30: decoding of a line by the type of its descriptor, and each synchronising command once its descriptor is reached. -/
theorem streamerDescriptors : Obligations.StreamerDescriptors := ⟨parts_descriptorsDecode, parts_synchronisingDescriptors⟩
end

section
/-! SUPPORT. The fault queue (R253 to R256): its responses, its read index and the timers of the requesters that it stalls; the
statement on them. -/

namespace Sys2Proof.Machine

/- Responses (R253, R255). -/

/-- The command that carries a response of the kernel. -/
def FqAct.instr (iss : Iss) (d token : Nat) : FqAct → Instr
  | .retry => .cdFqRespRetry iss d token
  | .done => .cdFqRespEnd iss d token
  | .fault => .cdFqRespFault iss d token

/-- What a response in time does to its requester. -/
def State.fqAnswer (s : State) (x : Stall) : FqAct → State
  | .retry => s.fqGo x
  | .done => s.fqEnd x true
  | .fault => s.fqEnd x false

/-- The three commands that are responses. -/
theorem FqAct.exists_instr {iss : Iss} {d token : Nat} :
    ∀ c ∈ [Instr.cdFqRespRetry iss d token, .cdFqRespEnd iss d token, .cdFqRespFault iss d token],
      ∃ act : FqAct, c = act.instr iss d token := by
  simp only [List.forall_mem_cons, List.not_mem_nil, false_implies, implies_true, and_true]
  exact ⟨⟨.retry, rfl⟩, ⟨.done, rfl⟩, ⟨.fault, rfl⟩⟩

/-- A response whose store arrives at its queue acts there. -/
theorem exec_fqResp {s : State} {iss : Iss} {d token : Nat} (act : FqAct) (hd : d < 8) (ht : token < 2 ^ 32)
    (hr : s.reach iss (regAddr .fqResp d 0) = .ok) :
    exec (act.instr iss d token) s = .next ((s.fqRespond d token act).wrote iss) := by
  have hops : ¬ (decide (d ≥ 8) || decide (token ≥ 2 ^ 32)) = true := by
    rw [Bool.or_eq_true, decide_eq_true_eq, decide_eq_true_eq]
    omega
  cases act with
  | retry => exact (if_neg hops).trans (State.atBlock_ok hr)
  | done => exact (if_neg hops).trans (State.atBlock_ok hr)
  | fault => exact (if_neg hops).trans (State.atBlock_ok hr)

section
variable {s : State} {d token : Nat} {x : Stall}

/-- A token that names no stalled requester is stale. -/
theorem State.fqRespond_stale (act : FqAct) (h : ∀ x ∈ (s.fq d).stalled, x.token ≠ some token) :
    s.fqRespond d token act = s.setFld .fqStatus d 0 2 1 1 := by
  have hnone : (s.fq d).stalled.find? (fun x => x.token == some token) = none :=
    List.find?_eq_none.2 fun x hx => by rw [beq_iff_eq]; exact h x hx
  rw [State.fqRespond, hnone]

/-- A response that comes when the deadline has is stale, and the requester ends as by a fault. -/
theorem State.fqRespond_late (act : FqAct) (h : (s.fq d).stalled.find? (fun x => x.token == some token) = some x)
    (hdl : x.deadline ≤ s.now) :
    s.fqRespond d token act = (((s.dropStall d x).fqEnd x false).fqFull d).setFld .fqStatus d 0 2 1 1 := by
  rw [State.fqRespond, h]
  exact if_pos hdl

/-- A response in time releases its requester from the queue and acts on it. -/
theorem State.fqRespond_inTime (act : FqAct) (h : (s.fq d).stalled.find? (fun x => x.token == some token) = some x)
    (hdl : s.now < x.deadline) :
    s.fqRespond d token act = (((s.dropStall d x).fqFull d).monRecord 13 ((s.now - x.since) / 1000)).fqAnswer x act := by
  rw [State.fqRespond, h]
  refine (if_neg (Nat.not_le.2 hdl)).trans ?_
  cases act with
  | retry => rfl
  | done => rfl
  | fault => rfl

end

section
variable {s : State} {x : Stall} {c : Nat}

/-- A stalled group goes on where it stood. -/
theorem State.fqGo_grp {sl : Nat} {g : Group} (hx : x.r = .grp c sl) (hg : s.grp c sl = some g) (hup : x.upcall = false) :
    s.fqGo x = s.setGrp c sl { g with stalled := false } := by
  simp only [State.fqGo, hx, hg, hup, Bool.false_eq_true, if_false]

/-- A group that ends takes its launch with it. -/
theorem State.fqEnd_grp {sl : Nat} {g : Group} (cancel : Bool) (hx : x.r = .grp c sl) (hg : s.grp c sl = some g) :
    s.fqEnd x cancel = s.endLaunch g.lid cancel := by
  simp only [State.fqEnd, hx, hg]

/-- A channel goes on with what it waited for. -/
theorem State.fqGo_chan {ch : Nat} (hx : x.r = .chan c ch) :
    s.fqGo x = s.setChan c ch { s.chan c ch with stall := (s.chan c ch).stall.filter (fun w => w ≠ x.what) } := by
  simp only [State.fqGo, hx]

end

/- The read index (R254, R256). -/

section
variable {s : State} {d : Nat} {v : Word}

theorem State.fqRead_inRange (hlo : (s.reg .fqRidx d 0).toNat ≤ v.toNat) (hhi : v.toNat ≤ (s.reg .fqWidx d 0).toNat) :
    s.fqRead d v = (s.setReg .fqRidx d 0 v).fqDrain d 16 :=
  if_pos ⟨hlo, hhi⟩

theorem State.fqRead_outOfRange (h : v.toNat < (s.reg .fqRidx d 0).toNat ∨ (s.reg .fqWidx d 0).toNat < v.toNat) :
    s.fqRead d v = s.setFld .fqStatus d 0 1 1 1 :=
  if_neg (by omega)

/-- A store of 8 bytes that arrives at the read index offers its value whole. -/
theorem exec_fqRidxWrite {iss : Iss} (hd : d < 8) (hr : s.reach iss (regAddr .fqRidx d 0) = .ok) :
    exec (.cdFqRidxWrite iss d 8 v) s = .next ((s.fqRead d v).wrote iss) := by
  have hops : ¬ (decide (d ≥ 8) || !accessWf 0 8) = true := by
    rw [accessWf_8.2 rfl, Bool.not_true, Bool.or_false, decide_eq_true_eq]
    omega
  refine (if_neg hops).trans ((State.atBlock_ok hr).trans ?_)
  rw [mergeReg_all]

end

/- The timers (R254, R255). -/

section
variable {s : State} {d : Nat} {x : Stall}

theorem State.fqRetry_early (h : s.now < x.since + 1000) : s.fqRetry d x = s := if_pos h

section
variable (hup : x.upcall = false) (hdue : x.since + 1000 ≤ s.now) (hcode : ofLeBytes ((x.record.drop 16).take 2) = 5)
include hup hdue hcode

/-- A requester that met a read fault goes on where its address now translates. -/
theorem State.fqRetry_load_ok {s1 : State} {pa hint : Nat} {dev w : Bool} {lf : Nat × Nat}
    (h : s.translate (s.stallWho x.r) .load x.va = .ok s1 pa dev hint w lf) :
    s.fqRetry d x = ((s1.dropStall d x).fqGo x).fqFull d := by
  have hlate : ¬ s.now < x.since + 1000 := Nat.not_lt.2 hdue
  simp [State.fqRetry, hlate, hup, hcode, h]

/-- Where it faults again, its record enters with what the new walk found. -/
theorem State.fqRetry_load_fault {s1 : State} {np perm : Bool} {lv t : Nat}
    (h : s.translate (s.stallWho x.r) .load x.va = .fault s1 np perm false lv t) :
    s.fqRetry d x = s1.fqEnter d x (refault x.record np perm lv t) := by
  have hlate : ¬ s.now < x.since + 1000 := Nat.not_lt.2 hdue
  simp [State.fqRetry, hlate, hup, hcode, h]

end

end

section
variable {s : State} {r : Requester} (hwf : r.wf = true)
include hwf

/-- The retry timer lets each of the requester's stalls without a record try again. -/
theorem exec_fqRetryTimer : exec (.fqRetryTimer r) s =
    .next (((s.fq (Requester.die r)).stalled.filter (fun x => x.r == r && x.token.isNone)).foldl (fun t x => t.fqRetry (Requester.die r) x) s) :=
  if_neg (by rw [hwf]; exact Bool.false_ne_true)

/-- The only stall without a record tries again, and is the requester's. -/
theorem exec_fqRetryTimer_one {x : Stall}
    (h : (s.fq (Requester.die r)).stalled.filter (fun x => x.r == r && x.token.isNone) = [x]) :
    x.r = r ∧ exec (.fqRetryTimer r) s = .next (s.fqRetry (Requester.die r) x) := by
  have hx : x ∈ (s.fq (Requester.die r)).stalled.filter (fun x => x.r == r && x.token.isNone) := h ▸ List.mem_singleton_self x
  obtain ⟨hr, -⟩ := Bool.and_eq_true_iff.1 (List.mem_filter.1 hx).2
  refine ⟨eq_of_beq hr, ?_⟩
  rw [exec_fqRetryTimer hwf, h, List.foldl_cons, List.foldl_nil]

theorem exec_fqRetryTimer_none (h : (s.fq (Requester.die r)).stalled.filter (fun x => x.r == r && x.token.isNone) = []) :
    exec (.fqRetryTimer r) s = .next s := by
  rw [exec_fqRetryTimer hwf, h, List.foldl_nil]

/-- A stall whose deadline has come ends as by a fault. -/
theorem exec_faultDeadlineExpiry_due {x : Stall}
    (h : (s.fq (Requester.die r)).stalled.find? (fun x => x.r == r && decide (x.deadline ≤ s.now)) = some x) :
    exec (.faultDeadlineExpiry r) s = .next (((s.dropStall (Requester.die r) x).fqEnd x false).fqFull (Requester.die r)) := by
  show execFaultDeadlineExpiry r s = _
  rw [execFaultDeadlineExpiry, hwf]
  simp only [h, Bool.not_true, Bool.false_eq_true, if_false]

end

end Sys2Proof.Machine

namespace Sys2Proof

open Sys2Proof.Machine

theorem parts_faultResponses : Parts.FaultResponses := by
  unfold Parts.FaultResponses
  refine ⟨?_, ?_, ?_, fun s x c ch hx => State.fqGo_chan hx⟩
  · rintro s iss d token x ⟨hd, ht, hfind⟩ hr
    refine ⟨fun hdl => ?_, fun hdl c hc => ?_⟩
    · have hact (act : FqAct) : exec (act.instr iss d token) s =
          .next (((((s.dropStall d x).fqFull d).monRecord 13 ((s.now - x.since) / 1000)).fqAnswer x act).wrote iss) := by
        rw [exec_fqResp act hd ht hr, State.fqRespond_inTime act hfind hdl]
      exact ⟨hact .retry, hact .done, hact .fault⟩
    · obtain ⟨act, rfl⟩ := FqAct.exists_instr c hc
      rw [exec_fqResp act hd ht hr, State.fqRespond_late act hfind hdl]
  · intro s iss d token hd ht hr hstale c hc
    obtain ⟨act, rfl⟩ := FqAct.exists_instr c hc
    rw [exec_fqResp act hd ht hr, State.fqRespond_stale act hstale]
  · intro s x c sl g hx hg hup
    exact ⟨State.fqGo_grp hx hg hup, State.fqEnd_grp true hx hg, State.fqEnd_grp false hx hg⟩

theorem parts_faultQueueUpkeep : Parts.FaultQueueUpkeep := by
  unfold Parts.FaultQueueUpkeep
  refine ⟨?_, ?_, fun s r hwf hnone => exec_fqRetryTimer_none hwf hnone,
    fun s r x hwf hdue => exec_faultDeadlineExpiry_due hwf hdue⟩
  · intro s iss d v hd hr
    refine ⟨fun hlo hhi => ?_, fun hout => ?_⟩
    · rw [exec_fqRidxWrite hd hr, State.fqRead_inRange hlo hhi]
    · rw [exec_fqRidxWrite hd hr, State.fqRead_outOfRange hout]
  · intro s r x hwf hone
    obtain ⟨rfl, hexec⟩ := exec_fqRetryTimer_one hwf hone
    refine ⟨fun hearly => by rw [hexec, State.fqRetry_early hearly], fun hup hdue hcode => ⟨?_, ?_⟩⟩
    · intro s1 pa dev h w lf hok
      rw [hexec, State.fqRetry_load_ok hup hdue hcode hok]
    · intro s1 np perm lv t hfault
      rw [hexec, State.fqRetry_load_fault hup hdue hcode hfault]

end Sys2Proof

open Sys2Proof in
/-- Settles O38: a response, a store of the read index and a timer each follow the branch of their command that the queue's
state selects. -/
theorem faultQueues : Obligations.FaultQueues := ⟨parts_faultResponses, parts_faultQueueUpkeep⟩
end
